-- ==== Sys2Proof/Word.lean ====
section
/-! DEFINITION. The widths of the words the host and the converter boards see. -/

namespace Sys2Proof

/-- One byte of the exchange memory or of the converter link. -/
abbrev Byte := BitVec 8

/-- One word of the exchange memory (R99) or of a register (R113). -/
abbrev W16 := BitVec 16

/-- A 32-bit count, serial, number or time that software can see (chapter 12). -/
abbrev W32 := BitVec 32

/-- The address of one of the 16,384 words of the exchange memory (section 6.1). -/
abbrev WordAddr := BitVec 14

/-- The numbers of the 24 load cells C0 to C23. -/
abbrev CellId := Fin 24

/-- The numbers of the four decks D0 to D3. -/
abbrev DeckId := Fin 4

/-- The numbers of the sixteen order slots. -/
abbrev SlotId := Fin 16

/-- The numbers of the 100 journal pages. -/
abbrev PageId := Fin 100

end Sys2Proof
end

