-- ==== Sys2Proof/Syntax.lean ====
section
/-! DEFINITION. The commands of the part: one constructor of `Instr` for each row of spec/opcode_table.json,
with the operands the row's rule needs. -/

namespace Sys2Proof

/-- The four treadle strip lines (section 4.1). -/
inductive Line where
  | aOut | aIn | bOut | bIn
  deriving DecidableEq, Repr

/-- The two ends of the bridge (section 4.1). -/
inductive BridgeEnd where
  | a | b
  deriving DecidableEq, Repr

/-- The level of CAL_SEAL, and the seal state (R21, R162): a flowing loop reads OPEN, a broken one SEALED. -/
inductive SealLevel where
  | opened | sealed
  deriving DecidableEq, Repr

/-- The work that the blocks have at one cadence event. The manual leaves their order open wherever two of them
meet ("may be taken in either order"), so a command that is a cadence event says it (assumption 3). -/
inductive Work where
  /-- The link's own change of state where the event brings one about: the entry to LOST, to LIVE, to RESUMED
  (R5, R7, R8). -/
  | link
  /-- The cell supervisor and, at a frame, the weighing chain, the stability window and the session's provisional means
  (R13 to R17, R24, R47, R166). -/
  | compute
  /-- The deck monitor publishes its snapshot (R44). -/
  | snapshot
  /-- The start-up zero watches (R50). -/
  | zeroWatch
  /-- The tracking count and examination (R55). -/
  | tracking
  /-- The traverse tracker's seven steps (R63). -/
  | tracker
  /-- The lane signals' own work and report (R92, R98). -/
  | signals
  /-- The order intake's sweep (R106). -/
  | sweep
  /-- The examination of a waiting capture (R123). -/
  | capture
  /-- The engine clock's second count (R117). -/
  | clock
  /-- The journal's publish delay (R153). -/
  | journal
  /-- The calibration session: installation and idle count (R175, R177). -/
  | session
  /-- The refresh of the live board (R101). -/
  | board
  deriving DecidableEq, Repr

/-- How one cadence event is taken. `order` lists the blocks' work in the order it is done; work that is not
listed is done after it in a fixed order, and work listed twice is done once (assumption 3).
`apart` stops the cadence event at each event that has a row of its own (a cell fault, a filled filter, a horn
toggle, …): that row's command takes it and goes on with the rest, and any other command first finishes the cadence
event (assumption 4). -/
structure Plan where
  order : List Work
  apart : Bool
  deriving DecidableEq, Repr

/-- What is found in a store row whose write was cut short or failed. R178 calls the contents indeterminate and
has the reader judge them by their CRC: nothing that checks, what stood there before, what was being written, or any
other 64 bytes (assumption 10). -/
inductive Residue where
  | corrupt | old | new
  | other (row : List Byte)
  deriving DecidableEq, Repr

/-- How the store finishes the row it is writing at an engine restart (R179): the first comparison, the second
one after the retry, and what the row holds if both mismatch. -/
structure RowFinish where
  first : Bool
  second : Bool
  left : Residue
  deriving DecidableEq, Repr

/-- The commands. `dt` is the time that has passed on the traverse clock since the last stamped command, in
ticks of 100 µs (assumption 6). An order's command names the slot its order stands in (assumption 5). -/
inductive Instr where
  /-- POWER_ON (R118, R183). `hold`: the reset stays held after power is applied, and a PIN_RESET ends the hold. `left`: if power had not been seen to go,
  what the cut row holds. -/
  | powerOn (hold : Bool) (left : Residue)
  /-- PIN_RESET (R118). `hold`: the reset input is applied and stays; otherwise it is applied and released. -/
  | pinReset (hold : Bool) (left : Residue)
  /-- FRAME_RECEIVED (R1, R2): the bytes that complete a frame arrive. -/
  | frameReceived (dt : W32) (bytes : List Byte) (plan : Plan)
  /-- FRAME_ABANDONED (R1): the bytes of a partial frame, followed by a gap of more than 100 µs. -/
  | frameAbandoned (dt : W32) (bytes : List Byte)
  /-- TICK_TIMER_EVENT (R3). -/
  | tickTimerEvent (dt : W32) (plan : Plan)
  /-- FRAME_TIMER_EXPIRY (R4). -/
  | frameTimerExpiry (dt : W32) (plan : Plan)
  /-- LINK_NO_START (R5). -/
  | linkNoStart
  /-- WARM_UP_COMPLETE (R5): with the plan of the cadence event that its frame is. -/
  | warmUpComplete (plan : Plan)
  /-- LINK_RESUMED (R8): with the plan of the cadence event that its frame is. -/
  | linkResumed (plan : Plan)
  /-- CELL_FAULT (R14). -/
  | cellFault (cell : CellId)
  /-- CELL_RECOVERED (R16). -/
  | cellRecovered (cell : CellId)
  /-- RESTART_DUE (R15). -/
  | restartDue (cell : CellId)
  /-- CHANNEL_RESTART (R15). -/
  | channelRestart
  /-- FILTER_FILLED (R31). -/
  | filterFilled (deck : DeckId)
  /-- ZERO_WATCH_EXPIRED (R50). -/
  | zeroWatchExpired (deck : DeckId)
  /-- TRACKING_EXAMINATION (R55). -/
  | trackingExamination
  /-- STRIP_EDGE (R61): a line's input changes to `pressed`. -/
  | stripEdge (dt : W32) (line : Line) (pressed : Bool)
  /-- DEBOUNCE_HOLD_END (R61). -/
  | debounceHoldEnd (dt : W32) (line : Line)
  /-- SETTLE_WINDOW_END (R72). -/
  | settleWindowEnd
  /-- CROSSING_ABANDONED (R66), of the crossing open at one end. -/
  | crossingAbandoned (bridgeEnd : BridgeEnd)
  /-- STRIP_STUCK (R64). -/
  | stripStuck (line : Line)
  /-- CLOSING_TIMEOUT (R76). -/
  | closingTimeout
  /-- HORN_TOGGLE (R95). -/
  | hornToggle
  /-- BURST_END (R96). -/
  | burstEnd
  /-- SLOT_POSTED (R102): the host writes POSTED to a slot's state word. -/
  | slotPosted (slot : SlotId)
  /-- SLOT_WITHDRAW (R102): the host writes WITHDRAW to a slot's state word. -/
  | slotWithdraw (slot : SlotId)
  /-- SLOT_EMPTIED (R102): the host writes EMPTY to a slot's state word. -/
  | slotEmptied (slot : SlotId)
  /-- PAGE_RETURN (R104, R155): the host writes RETURNED to a page's state word. -/
  | pageReturn (page : PageId)
  /-- HOST_MEMORY_WRITE (R99, R102 to R105): any host write of a word of the exchange memory. -/
  | hostMemoryWrite (addr : WordAddr) (value : W16)
  /-- CLEAR_ANSWER (R112). -/
  | clearAnswer
  /-- CLEAR_JOURNAL (R112, R154). -/
  | clearJournal
  /-- CLEAR_CONDITION (R112). -/
  | clearCondition
  /-- CLEAR_PROTOCOL (R105, R112). -/
  | clearProtocol
  /-- CLEAR_STORE (R112). -/
  | clearStore
  /-- ATTN_ENABLE_WRITE (R113). -/
  | attnEnableWrite (value : W16)
  /-- RUN (R111, R113): ENGINE_CTRL is written with this value of RUN. -/
  | run (value : Bool)
  /-- RESTART (R119): ENGINE_CTRL is written with RESTART as 1. -/
  | restart (finish : RowFinish)
  /-- REGISTER_WRITE (R113): a write of the low or high word of IDENT. -/
  | registerWrite (high : Bool) (value : W16)
  /-- ENGINE_TIME_ADVANCE (R117). -/
  | engineTimeAdvance
  /-- CLEAR_LINK (R10). -/
  | clearLink (slot : SlotId)
  /-- CLEAR_CELL (R18). -/
  | clearCell (slot : SlotId)
  /-- ZERO (R52, R53). -/
  | zero (slot : SlotId)
  /-- ARM_CLASS (R83). -/
  | armClass (slot : SlotId)
  /-- LOAD_CLASSES (R82). -/
  | loadClasses (slot : SlotId)
  /-- SET_SIGNALS (R91). -/
  | setSignals (slot : SlotId)
  /-- SET_SITE (R114). -/
  | setSite (slot : SlotId)
  /-- READ_SITE (R115). -/
  | readSite (slot : SlotId)
  /-- SET_CLOCK (R117). -/
  | setClock (slot : SlotId)
  /-- FIRST_WEIGH (R121). -/
  | firstWeigh (slot : SlotId)
  /-- SECOND_WEIGH (R122). -/
  | secondWeigh (slot : SlotId)
  /-- CAPTURE_DEADLINE (R124). -/
  | captureDeadline
  /-- VOID_VISIT (R133). -/
  | voidVisit (slot : SlotId)
  /-- FIND_VISIT (R134). -/
  | findVisit (slot : SlotId)
  /-- RECALL_TICKET (R146). -/
  | recallTicket (slot : SlotId)
  /-- PUBLISH_NOW (R153). -/
  | publishNow (slot : SlotId)
  /-- OPEN_SESSION (R164). -/
  | openSession (slot : SlotId)
  /-- STAGE_PARAMS (R167). -/
  | stageParams (slot : SlotId)
  /-- ZERO_CAL (R169). -/
  | zeroCal (slot : SlotId)
  /-- SPAN_CAL (R170). -/
  | spanCal (slot : SlotId)
  /-- CORNER_READ (R171). -/
  | cornerRead (slot : SlotId)
  /-- TEST_LOAD (R172). -/
  | testLoad (slot : SlotId)
  /-- COMMIT_SESSION (R173). -/
  | commitSession (slot : SlotId)
  /-- ABORT_SESSION (R176). -/
  | abortSession (slot : SlotId)
  /-- READ_METROLOGY (R182). -/
  | readMetrology (slot : SlotId)
  /-- READ_AUDIT (R185). -/
  | readAudit (slot : SlotId)
  /-- SESSION_INSTALL (R175). -/
  | sessionInstall
  /-- SESSION_EXPIRED (R177). -/
  | sessionExpired
  /-- SEAL_CHANGE (R162): four consecutive samples of CAL_SEAL read `level`. -/
  | sealChange (level : SealLevel)
  /-- SEAL_INITIAL (R162): the first four samples after a reset give `level`. -/
  | sealInitial (level : SealLevel)
  /-- STORE_JOB_ENTER (R179). -/
  | storeJobEnter
  /-- STORE_ROW_WRITTEN (R179): the row being written is read back and compared; `left` is what it holds if its job fails there. -/
  | storeRowWritten (matched : Bool) (left : Residue)
  /-- PUBLISH_DELAY (R153). -/
  | publishDelay
  /-- BACK_CHANNEL_SEND_END (R15). -/
  | backChannelSendEnd
  /-- POWER_LOSS (R179): `left` is what the row being written then holds. -/
  | powerLoss (left : Residue)
  deriving DecidableEq, Repr

end Sys2Proof
end

