-- ==== Sys2Proof/WellFormed.lean ====
section
/-! DEFINITION. What a command must satisfy to be one the part can meet. Slots, pages, cells, decks, lines and
word addresses carry their range in their type; what is left is the shape of a frame and of a plan. -/

namespace Sys2Proof

/-- The length of a frame in bytes (R1). -/
def frameLength : Nat := 101

/-- The bytes are a complete frame: 101 of them, opened by the sync mark 0xA5, 0x5A (R1, R187). Its CRC is not
looked at here: a frame whose CRC fails is a frame, which R2 discards. -/
def isFrame (bytes : List Byte) : Bool :=
  bytes.length == frameLength && bytes.take 2 == [0xA5, 0x5A]

/-- A plan names no work twice. -/
def Plan.wellFormed (p : Plan) : Bool :=
  decide p.order.Nodup

/-- The length of a row of the retained store in bytes (R178). -/
def rowLength : Nat := 64

/-- What is left in a row is a row. -/
def Residue.wellFormed : Residue → Bool
  | .other row => row.length == rowLength
  | _ => true

/-- The commands the part can meet: a received frame is complete, an abandoned one is not, a plan names each work
once, and what is left in a row has a row's length. -/
def Instr.wellFormed : Instr → Bool
  | .powerOn _ left => left.wellFormed
  | .pinReset _ left => left.wellFormed
  | .powerLoss left => left.wellFormed
  | .storeRowWritten _ left => left.wellFormed
  | .restart finish => finish.left.wellFormed
  | .frameReceived _ bytes plan => isFrame bytes && plan.wellFormed
  | .frameAbandoned _ bytes => decide (bytes.length < frameLength)
  | .tickTimerEvent _ plan => plan.wellFormed
  | .frameTimerExpiry _ plan => plan.wellFormed
  | .warmUpComplete plan => plan.wellFormed
  | .linkResumed plan => plan.wellFormed
  | _ => true

end Sys2Proof
end

