-- ==== Sys2Proof/Config.lean ====
section
/-! DEFINITION. The free values: what the manual leaves open and the part nevertheless shows.
None has a body, so no proof can rest on a value of one. -/

namespace Sys2Proof

/-- What a 16-bit field shows for a number that does not fit it (a speed above 65,535 mm/s, for example).
Chapter 12 gives the width and no value for it (assumption 12). -/
opaque Config.wide16 : Int → W16

/-- What a 32-bit field shows for a number that does not fit it (a group load above the 32-bit range).
Chapter 12 gives the width and no value for it (assumption 12). -/
opaque Config.wide32 : Int → W32

/-- The code of a verification test's result in the TEST_LOAD answer: section 12.6 names the field and
gives no code for pass and fail (assumption 13). The argument is whether the test passed. -/
opaque Config.testResultCode : Bool → W16

/-- The CRC-32 that a restored COMMIT entry shows for an image place whose image does not check: R184 names the
CRC-32s of both places and gives none for such a place (assumption 42). The argument is the place. -/
opaque Config.unreadableCrc : Nat → W32

/-- The changed-parameter count of a restored COMMIT entry whose list is marked absent: R184 has the count come from
the comparison that cannot be made (assumption 42). -/
opaque Config.unknownCount : W16

/-- The number by which a STRIP_STUCK notice names a strip line: section 12.7 gives the byte and no numbers for the
four lines (assumption 41). The argument counts A_OUT, A_IN, B_OUT, B_IN from 0. -/
opaque Config.lineNumber : Fin 4 → Byte

end Sys2Proof
end

