-- ==== Sys2Proof/Machine/Memory.lean ====
section
/-! DEFINITION. The exchange memory (chapter 6): 32 KiB held as a list of (byte offset, byte) in one canonical
form. An unlisted byte reads 0, since R118 sets the memory to 0 before anything is written. -/

namespace Sys2Proof.Machine

/-- A memory: its bytes other than 0, by rising offset. -/
abbrev Memory := List Host.Cell

namespace Memory

/-- The size of the exchange memory in bytes (section 6.1). -/
def size : Nat := 0x8000

/-- The offsets rise from `lo`, lie in the memory, and no listed byte is 0. -/
def wfFrom : Nat → Memory → Bool
  | _, [] => true
  | lo, (a, b) :: m => decide (lo ≤ a) && decide (a < size) && b != 0 && wfFrom (a + 1) m

/-- The canonical form: two memories that read alike are equal lists. -/
def wf (m : Memory) : Bool :=
  wfFrom 0 m

/-- The byte at offset `x`. -/
def readByte : Memory → Nat → Byte
  | [], _ => 0
  | (a, b) :: m, x => if x = a then b else readByte m x

/-- The list with the byte at `x` made `v`, kept in canonical form. -/
def insertByte : Memory → Nat → Byte → Memory
  | [], x, v => if v = 0 then [] else [(x, v)]
  | (a, b) :: m, x, v =>
    if x < a then (if v = 0 then (a, b) :: m else (x, v) :: (a, b) :: m)
    else if x = a then (if v = 0 then m else (x, v) :: m)
    else (a, b) :: insertByte m x v

/-- A write of one byte. An offset outside the memory does not exist, and nothing is written there. -/
def writeByte (m : Memory) (x : Nat) (v : Byte) : Memory :=
  if x < size then insertByte m x v else m

/-- The word at byte offset `x`: the byte at the even offset is the low one (R186). -/
def read16 (m : Memory) (x : Nat) : W16 :=
  readByte m (x + 1) ++ readByte m x

/-- A write of one word (R99). -/
def write16 (m : Memory) (x : Nat) (v : W16) : Memory :=
  writeByte (writeByte m x (v.extractLsb' 0 8)) (x + 1) (v.extractLsb' 8 8)

/-- The 32-bit value at byte offset `x`: the low word at the lower offset (R186). -/
def read32 (m : Memory) (x : Nat) : W32 :=
  read16 m (x + 2) ++ read16 m x

/-- A write of a 32-bit value: the low word first and the high word after it (R99). -/
def write32 (m : Memory) (x : Nat) (v : W32) : Memory :=
  write16 (write16 m x (v.extractLsb' 0 16)) (x + 2) (v.extractLsb' 16 16)

/-- `n` bytes from offset `x` on. -/
def readBytes (m : Memory) (x : Nat) : Nat → List Byte
  | 0 => []
  | n + 1 => readByte m x :: readBytes m (x + 1) n

/-- The bytes written from offset `x` on. -/
def writeBytes (m : Memory) (x : Nat) : List Byte → Memory
  | [] => m
  | b :: bs => writeBytes (writeByte m x b) (x + 1) bs

/-- `n` bytes from offset `x` on are set to 0. -/
def clearBytes (m : Memory) (x n : Nat) : Memory :=
  m.filter fun c => decide (c.1 < x) || decide (x + n ≤ c.1)

end Memory

end Sys2Proof.Machine
end

