-- ==== Sys2Proof/Machine/Types.lean ====
section
/-! DEFINITION. The pieces of the part's state, block by block, as the chapters name them. Masses and counts are
exact integers; a value the host sees as a word gets its width where it is written (Operands.lean). 32-bit counts
that wrap and serials are words. -/

namespace Sys2Proof.Machine

/-- Four like things, one for each deck D0 to D3. -/
structure Four (α : Type) where
  d0 : α
  d1 : α
  d2 : α
  d3 : α
  deriving DecidableEq, Repr

/-- The thing of one deck. -/
def Four.get {α : Type} (f : Four α) (d : DeckId) : α :=
  match d with
  | 0 => f.d0
  | 1 => f.d1
  | 2 => f.d2
  | 3 => f.d3

/-- The thing of one deck replaced. -/
def Four.set {α : Type} (f : Four α) (d : DeckId) (x : α) : Four α :=
  match d with
  | 0 => { f with d0 := x }
  | 1 => { f with d1 := x }
  | 2 => { f with d2 := x }
  | 3 => { f with d3 := x }

/-- The same thing for every deck. -/
def Four.all {α : Type} (x : α) : Four α := ⟨x, x, x, x⟩

/-- Each deck's thing computed from its number and what it was. -/
def Four.map {α β : Type} (f : Four α) (g : DeckId → α → β) : Four β :=
  ⟨g 0 f.d0, g 1 f.d1, g 2 f.d2, g 3 f.d3⟩

/-- The four decks in ascending order. -/
def allDecks : List DeckId := [0, 1, 2, 3]

/-- The 24 cells in ascending order. -/
def allCells : List CellId :=
  [0, 1, 2, 3, 4, 5, 6, 7, 8, 9, 10, 11, 12, 13, 14, 15, 16, 17, 18, 19, 20, 21, 22, 23]

/-- Four like things, one for each strip line. -/
structure PerLine (α : Type) where
  aOut : α
  aIn : α
  bOut : α
  bIn : α
  deriving DecidableEq, Repr

/-- The thing of one line. -/
def PerLine.get {α : Type} (f : PerLine α) : Line → α
  | .aOut => f.aOut
  | .aIn => f.aIn
  | .bOut => f.bOut
  | .bIn => f.bIn

/-- The thing of one line replaced. -/
def PerLine.set {α : Type} (f : PerLine α) (l : Line) (x : α) : PerLine α :=
  match l with
  | .aOut => { f with aOut := x }
  | .aIn => { f with aIn := x }
  | .bOut => { f with bOut := x }
  | .bIn => { f with bIn := x }

/-- The four lines. -/
def allLines : List Line := [.aOut, .aIn, .bOut, .bIn]

/-- The start causes (R118, R119). -/
inductive StartCause where
  | powerOn | pin | engineRestart
  deriving DecidableEq, Repr

/-- Whether the part is without power, held in a power-on or pin reset, or running (R89, R99, R118). A hold keeps
the cause of the start that follows it. -/
inductive Power where
  | off
  | held (cause : StartCause)
  | on
  deriving DecidableEq, Repr

/-- The levels on the input pins (R21): a strip line reads pressed when its loop flows. -/
structure Pins where
  strips : PerLine Bool
  sealInput : SealLevel
  deriving DecidableEq, Repr

/-! Chapter 1: the cell link and the cell supervisor. -/

/-- A status byte's meaning (R1, 12.2). -/
inductive CellStatus where
  | good | openCircuit | overRange | notFitted
  deriving DecidableEq, Repr

/-- A frame as its bytes give it: its number and, for C0 to C23, the count and the status (section 1.1). -/
structure Frame where
  number : Byte
  cells : List (Int × CellStatus)
  deriving DecidableEq, Repr

/-- The link states (section 1.2). -/
inductive LinkState where
  | waiting | live | lost | resumed
  deriving DecidableEq, Repr

/-- The state of the cell link (R2 to R5). -/
structure Link where
  state : LinkState
  runCount : Nat
  /-- Whether the frame timer runs (R4); it runs from `lastArrival`. -/
  timer : Bool
  lastArrival : Option W32
  /-- The last accepted frame, with the last frame number (R2). -/
  lastFrame : Option Frame
  /-- The cadence count (R3). -/
  cadence : W32
  /-- The traverse clock at the tick timer's last event, or at its start (R3). -/
  tickBase : W32
  deriving DecidableEq, Repr

/-- The back-channel (R15): its queue, and the bytes on the line while a command is being sent. -/
structure BackChannel where
  queue : List CellId
  sending : List Byte
  deriving DecidableEq, Repr

/-- The cell states (section 1.3). -/
inductive CellState where
  | unfitted | active | faulted | recovered
  deriving DecidableEq, Repr

/-- What the supervisor keeps for one cell (section 1.3). -/
structure Cell where
  state : CellState
  faultRun : Nat
  recovery : Nat
  restarts : Nat
  lastGood : Option Int
  lastRestart : Option W32
  /-- The held count (R14). -/
  held : Int
  /-- Whether the held count has a prior value (R14). -/
  prior : Bool
  /-- The cadence event that stands has released the hold by CLEAR_CELL: a computation at it is still handed the held
  count (R18, R33). The next cadence event clears it. The model's own field (assumption 37). -/
  released : Bool
  deriving DecidableEq, Repr

/-! Chapters 2 and 10: the metrology set. -/

/-- A metrology set: the fields of R166's table, each as the list of its parameter values by index. -/
structure MetroSet where
  /-- Id 1: 0 to 3 for D0 to D3, 4 for unused, for each cell. -/
  cellMap : List Int
  /-- Id 2: z_i. -/
  z : List Int
  /-- Id 3: k_i. -/
  k : List Int
  /-- Id 4: deck enabled, 0 or 1. -/
  enabled : List Int
  /-- Id 5: G_d. -/
  gain : List Int
  /-- Id 6: Max_d. -/
  capacity : List Int
  /-- Id 7: the number of linearity points. -/
  points : List Int
  /-- Id 8: x_j at index deck × 4 + j. -/
  x : List Int
  /-- Id 9: y_j at index deck × 4 + j. -/
  y : List Int
  /-- Id 10: L_d. -/
  filter : List Int
  /-- Id 11: N_s,d. -/
  window : List Int
  /-- Id 12: tracking enabled, 0 or 1. -/
  tracking : List Int
  /-- Id 13: Z_cal_d. -/
  zcal : List Int
  /-- Id 14: e. -/
  e : Int
  deriving DecidableEq, Repr

/-- The metrology set in use, its epoch, and whether it stands in for an invalid image (R22, R23, R181). -/
structure Metrology where
  active : MetroSet
  epoch : W32
  standIn : Bool
  deriving DecidableEq, Repr

/-- The chain's values of one cell (R27 to R29). -/
structure CellChain where
  a : Int
  saturated : Bool
  /-- The raw-mean history, oldest first, and its exact sum. -/
  history : List Int
  sum : Int
  deriving DecidableEq, Repr

/-- The chain's values of one deck (R30 to R37). -/
structure DeckChain where
  deckSum : Int
  filtered : Int
  mass : Int
  corrected : Int
  gross : Int
  legal : Int
  fine : Int
  /-- The filter's history, oldest first, with its fill count and running sum (R31). -/
  history : List Int
  fill : Nat
  running : Int
  deriving DecidableEq, Repr

/-- The state of the weighing chain (R24 to R40). -/
structure Chain where
  cells : List CellChain
  decks : Four DeckChain
  gross : Int
  legal : Int
  fine : Int
  /-- The platform's own OVER test (R40). -/
  overload : Bool
  deriving DecidableEq, Repr

/-! Chapter 3: the deck monitor. -/

/-- The nine condition flags of a deck (section 3.1). -/
structure DeckFlags where
  filling : Bool
  degraded : Bool
  linkFault : Bool
  inTest : Bool
  uncalibrated : Bool
  zeroUnset : Bool
  overload : Bool
  under : Bool
  motion : Bool
  deriving DecidableEq, Repr

/-- No flag. -/
def DeckFlags.none : DeckFlags :=
  ⟨false, false, false, false, false, false, false, false, false⟩

/-- A start-up zero watch (R50). `filledAt` is the cadence count at which the deck first left FILLING. -/
inductive ZeroWatch where
  | notStarted (filledAt : Option W32)
  | watching (remaining : Nat)
  | ended
  deriving DecidableEq, Repr

/-- What the deck monitor keeps for one deck (R44 to R56). -/
structure DeckMonitor where
  flags : DeckFlags
  /-- The stability window, oldest first, and its fill count (R47). -/
  window : List Int
  fill : Nat
  /-- Z_d and Z_ref_d (R49). -/
  zero : Int
  zeroRef : Int
  watch : ZeroWatch
  limitMark : Bool
  /-- A ZERO order has changed Z_d since the chain's latest computation (R55, condition 6). -/
  zeroed : Bool
  deriving DecidableEq, Repr

/-- What a snapshot holds of one deck (R44). -/
structure DeckSnapshot where
  legal : Int
  fine : Int
  gross : Int
  corrected : Int
  flags : DeckFlags
  deriving DecidableEq, Repr

/-- The snapshot the deck monitor publishes (R44). -/
structure Snapshot where
  decks : Four DeckSnapshot
  legal : Int
  fine : Int
  gross : Int
  flags : DeckFlags
  deriving DecidableEq, Repr

/-- The state of the deck monitor. -/
structure Monitor where
  decks : Four DeckMonitor
  tracking : Nat
  snapshot : Snapshot
  deriving DecidableEq, Repr

/-! Chapter 4: the traverse tracker. -/

/-- A class of the class table (R81). -/
structure ClassEntry where
  name : List Byte
  steer : Nat
  single : Nat
  tandem : Nat
  tri : Nat
  quad : Nat
  gross : Nat
  tolerance : Nat
  deriving DecidableEq, Repr

/-- A strip line as the tracker keeps it (R61, R64). -/
structure StripLine where
  /-- The accepted level is PRESSED. -/
  pressed : Bool
  /-- The clock stamp at which the running hold ends, if a hold runs. -/
  hold : Option W32
  pressedAt : W32
  stuck : Bool
  deriving DecidableEq, Repr

/-- An entry of the edge queue (R62): a wheel-on entry holds a latch. -/
structure Edge where
  line : Line
  on : Bool
  stamp : W32
  latch : Option Int
  deriving DecidableEq, Repr

/-- An open crossing (R65): whether OUTER opened it, and that wheel-on's stamp and latch. -/
structure Crossing where
  outer : Bool
  stamp : W32
  latch : Int
  deriving DecidableEq, Repr

/-- The spacing of an axle to the one before it (R68). -/
inductive Spacing where
  | first
  | unknown
  | mm (n : Nat)
  deriving DecidableEq, Repr

/-- An axle record (section 4.3). `window` is the remaining count of an open settle window. -/
structure Axle where
  stamp : W32
  speed : Nat
  overspeed : Bool
  slow : Bool
  spacing : Spacing
  pre : Int
  post : Option Int
  estimate : Int
  short : Bool
  window : Option Nat
  deriving DecidableEq, Repr

/-- The eleven reasons (section 4.6). -/
structure Reasons where
  edgeOverrun : Bool
  reversed : Bool
  secondVehicle : Bool
  crossingLost : Bool
  overlong : Bool
  linkFault : Bool
  degraded : Bool
  short : Bool
  overspeed : Bool
  slow : Bool
  disagree : Bool
  deriving DecidableEq, Repr

/-- No reason. -/
def Reasons.none : Reasons :=
  ⟨false, false, false, false, false, false, false, false, false, false, false⟩

/-- The traverse record (section 4.3). `closing` is the closing count once every axle is off. -/
structure Traverse where
  number : W32
  entryEnd : BridgeEnd
  classNumber : Nat
  classEntry : ClassEntry
  /-- DEGRADED_POLICY at opening was LENIENT (R20). -/
  lenient : Bool
  entries : Nat
  exits : Nat
  axlesOn : Nat
  axles : List Axle
  reasons : Reasons
  static : Option Int
  binding : Option W32
  closing : Option Nat
  deriving DecidableEq, Repr

/-- The states of the tracker (R69). -/
inductive TrackState where
  | empty | active | closing
  deriving DecidableEq, Repr

/-- What the tracker publishes at each cadence event (R63, step 7). -/
structure TrackReport where
  state : TrackState
  number : W32
  axlesOn : Nat
  contained : Bool
  deriving DecidableEq, Repr

/-- The state of the traverse tracker. -/
structure Tracker where
  lines : PerLine StripLine
  queue : List Edge
  /-- The pending overrun mark (R62). -/
  overrun : Bool
  crossA : Option Crossing
  crossB : Option Crossing
  /-- The open traverse; none is EMPTY (R69). -/
  traverse : Option Traverse
  /-- The number of the current or last traverse (R69, R70). -/
  number : W32
  armed : Option Nat
  classes : List ClassEntry
  contained : Bool
  report : TrackReport
  deriving DecidableEq, Repr

/-! Chapter 5: the lane signals. -/

/-- A head's aspect (section 5.1). -/
inductive Aspect where
  | red | green | dark
  deriving DecidableEq, Repr

/-- A horn pattern (section 5.1). -/
inductive HornPattern where
  | off | steady | pulse
  deriving DecidableEq, Repr

/-- A pattern with its period in milliseconds, 0 for OFF and STEADY (R91). -/
structure Horn where
  pattern : HornPattern
  period : Nat
  deriving DecidableEq, Repr

/-- The three override causes (section 5.4). -/
structure Causes where
  capture : Bool
  secondVehicle : Bool
  session : Bool
  deriving DecidableEq, Repr

/-- An override cause by name. -/
inductive Cause where
  | capture | secondVehicle | session
  deriving DecidableEq, Repr

/-- What the lane signals hand the live board (R98). -/
structure LaneReport where
  aspectA : Aspect
  aspectB : Aspect
  overriding : Bool
  causes : Causes
  aspectPending : Bool
  horn : Horn
  sounding : Bool
  burst : Option Nat
  deriving DecidableEq, Repr

/-- The state of the lane signals (section 5.2). -/
structure Lane where
  stagedA : Aspect
  stagedB : Aspect
  stagedHorn : Horn
  aspectPending : Bool
  hornPending : Bool
  appliedA : Aspect
  appliedB : Aspect
  /-- The source is OVERRIDE. -/
  overriding : Bool
  causes : Causes
  horn : Horn
  sounding : Bool
  half : Nat
  toggle : Nat
  /-- The remaining count of a running burst. -/
  burst : Option Nat
  /-- The cadence counts at which the pattern started, and the burst was started, and was started or renewed, until
  the counting of a later event clears them (R95, R96). The model's own fields. -/
  patternAt : Option W32
  burstStart : Option W32
  burstAt : Option W32
  report : LaneReport
  deriving DecidableEq, Repr

/-! Chapter 6: registers, orders, site settings and the engine clock. -/

/-- The registers that can change (section 6.5); IDENT is fixed. -/
structure Registers where
  cause : W16
  enable : W16
  run : Bool
  restart : Bool
  /-- The refused-address latch (R105). -/
  refused : Option WordAddr
  deriving DecidableEq, Repr

/-- The order kinds (12.5). -/
inductive OrderKind where
  | clearLink | clearCell | zero | armClass | loadClasses | setSignals | setSite | readSite | setClock
  | firstWeigh | secondWeigh | voidVisit | findVisit | recallTicket | publishNow | openSession | stageParams
  | zeroCal | spanCal | cornerRead | testLoad | commitSession | abortSession | readMetrology | readAudit
  deriving DecidableEq, Repr

/-- The owners of orders (section 6.4). -/
inductive Owner where
  | cellLink | cellSupervisor | deckMonitor | tracker | laneSignals | intake | engineClock | captureUnit
  | visitTable | ticketIssuer | journal | session | auditLog
  deriving DecidableEq, Repr

/-- The answer codes (12.5). -/
inductive AnswerCode where
  | done | badOrder | badParam | stagingBusy | withdrawn | storeFault | platformBusy | sessionOpen
  | platformOccupied | notReady | notStill | stillLost | stillFaulted | outOfRange | clockUnset | visitExists
  | visitTableFull | noVisit | notContained | belowMin | journalFull | visitInUse | ticketRange | notFound
  | recallBusy | sealClosed | sessionClosed | unverified | listFull | cellSaturated
  deriving DecidableEq, Repr

/-- An order in flight (section 6.4). -/
structure Flight where
  slot : SlotId
  kind : OrderKind
  owner : Owner
  withdrawn : Bool
  deriving DecidableEq, Repr

/-- The state of the order intake (section 6.4, R108). -/
structure Intake where
  position : SlotId
  flight : List Flight
  claim : Option SlotId
  deriving DecidableEq, Repr

/-- The eleven site settings, in field-number order (section 6.6). -/
structure Site where
  debounce : Nat
  spacing : Nat
  settle : Nat
  maxSpeed : Nat
  groupGap : Nat
  vehicleGap : Nat
  /-- DEGRADED_POLICY: 0 STRICT, 1 LENIENT (12.8). -/
  policy : Nat
  captureTimeout : Nat
  publishDelay : Nat
  attentionPages : Nat
  visitAge : Nat
  deriving DecidableEq, Repr

/-- The engine clock (R117). -/
structure EngineClock where
  time : W32
  isSet : Bool
  second : Nat
  deriving DecidableEq, Repr

/-! The cadence event (R3). -/

/-- The events that come about at a cadence event and have rows of their own (assumption 4). -/
inductive Own where
  /-- LINK_NO_START (R5). -/
  | noStart
  /-- WARM_UP_COMPLETE (R5). -/
  | warmUp
  /-- LINK_RESUMED (R8). -/
  | resumed
  /-- CELL_FAULT (R14). -/
  | cellFault (c : CellId)
  /-- CELL_RECOVERED (R16). -/
  | cellRecovered (c : CellId)
  /-- RESTART_DUE (R15). -/
  | restartDue (c : CellId)
  /-- FILTER_FILLED (R31). -/
  | filterFilled (d : DeckId)
  /-- ZERO_WATCH_EXPIRED (R50). -/
  | watchExpired (d : DeckId)
  /-- TRACKING_EXAMINATION (R55). -/
  | tracking
  /-- SETTLE_WINDOW_END (R72). -/
  | windowEnd
  /-- CROSSING_ABANDONED (R66). -/
  | crossing (side : BridgeEnd)
  /-- STRIP_STUCK (R64). -/
  | stuck (l : Line)
  /-- CLOSING_TIMEOUT (R76). -/
  | closing
  /-- SESSION_INSTALL (R175). -/
  | install
  /-- SESSION_EXPIRED (R177). -/
  | expire
  /-- ENGINE_TIME_ADVANCE (R117). -/
  | time
  /-- CAPTURE_DEADLINE (R124). -/
  | deadline
  /-- BURST_END (R96). -/
  | burstEnd
  /-- HORN_TOGGLE (R95). -/
  | toggle
  /-- PUBLISH_DELAY (R153). -/
  | publishDelay
  deriving DecidableEq, Repr

/-- The pieces of the work at a cadence event, each taken whole. -/
inductive Piece where
  /-- An event with a row of its own, where it is due. -/
  | own (e : Own)
  /-- The link's change of state (R5, R7, R8). -/
  | enter (st : LinkState)
  /-- The examination of a cell's status in the last frame (R13, R16, R17). -/
  | examineCell (c : CellId)
  /-- One computation of the chain, with the stability windows (R24, R47). -/
  | computeChain
  /-- The session's provisional means take the frame's counts (R166). -/
  | provisional
  /-- The deck monitor's snapshot (R44). -/
  | publishSnapshot
  /-- The examination of a start-up zero watch (R50). -/
  | examineWatch (d : DeckId)
  /-- The tracking count (R55). -/
  | countTracking
  /-- The closing count (R76) and step 1 of R63. -/
  | consumeEdges
  /-- Step 2 of R63: the counts of the settle windows (R72). -/
  | countWindows
  /-- Step 5 of R63: containment, the static value and the LINK_FAULT reason. -/
  | judgeBridge
  /-- Step 6 of R63: an empty, still bridge ends closing (R76). -/
  | judgeClosing
  /-- Step 7 of R63. -/
  | publishTrack
  /-- The idle count (R177). -/
  | session
  /-- The engine clock's second count (R117). -/
  | countSecond
  /-- The sweep (R106). -/
  | sweep
  /-- The examination of a waiting capture (R123). -/
  | examineCapture
  /-- The lane signals' own work (R92). -/
  | laneWork
  /-- The lane signals' report (R98). -/
  | laneReport
  /-- The publish delay count (R153). -/
  | countDelay
  /-- The refresh of the live board (R101). -/
  | board
  deriving DecidableEq, Repr

/-! Chapters 7 and 8: captures, visits and tickets. -/

/-- The three conditions of an examination, in the order they are judged (R123). -/
inductive Unmet where
  | tradeReady | contained | still
  deriving DecidableEq, Repr

/-- The capture in flight (section 7.1); no capture is IDLE. -/
structure Capture where
  /-- The store phase; otherwise the wait phase. -/
  storing : Bool
  /-- FIRST_WEIGH; otherwise SECOND_WEIGH. -/
  first : Bool
  slot : SlotId
  vehicle : List Byte
  lot : W32
  bind : Bool
  remaining : Nat
  value : Option Int
  time : Option W32
  epoch : Option W32
  e : Option Int
  visit : Option W32
  bound : Option W32
  reserved : Bool
  /-- The cadence count of the take, whose examination is made at the take (R123). The model's own field. -/
  takenAt : W32
  /-- The first unmet condition of the examination that has just found the remaining count at 0: CAPTURE_DEADLINE
  follows it (R124). The model's own field. -/
  missed : Option Unmet
  deriving DecidableEq, Repr

/-- The verdicts (R86). -/
inductive Verdict where
  | compliant | nonCompliant | indeterminate
  deriving DecidableEq, Repr

/-- The qualities (R86). -/
inductive Quality where
  | confirmed | rollingOnly | indicative
  deriving DecidableEq, Repr

/-- The group types (R80). -/
inductive GroupType where
  | single | tandem | tri | quad | overlong
  deriving DecidableEq, Repr

/-- A judged group as an axle summary carries it (R88): what a ticket gives of it (12.7), the load rounded to e. -/
structure SummaryGroup where
  kind : GroupType
  axles : Nat
  load : Int
  limit : Int
  overload : Bool
  deriving DecidableEq, Repr

/-- A judged group as the report gives it (R84, R87): with its threshold. -/
structure Group extends SummaryGroup where
  threshold : Int
  deriving DecidableEq, Repr

/-- An axle summary (R88). -/
structure Summary where
  verdict : Verdict
  quality : Quality
  groups : List SummaryGroup
  deriving DecidableEq, Repr

/-- An entry of the visit table (section 7.5). -/
structure VisitEntry where
  number : W32
  vehicle : List Byte
  lot : W32
  weight : Int
  time : W32
  epoch : W32
  bound : Option W32
  summary : Option Summary
  deriving DecidableEq, Repr

/-- The status of an occupied place (section 7.5). -/
inductive VisitStatus where
  | adding | held | closing | removing
  deriving DecidableEq, Repr

/-- An occupied place of the visit table; `kept` is a summary that came while the entry was ADDING (R132). -/
structure Visit where
  entry : VisitEntry
  status : VisitStatus
  kept : Option Summary
  deriving DecidableEq, Repr

/-- A running expiry pass (R135): the maximum age read at its start, the visits expired then that are still to be
judged, oldest first, and the visit whose removal it waits for. -/
structure ExpiryPass where
  maxAge : Nat
  todo : List W32
  removing : Option W32
  deriving DecidableEq, Repr

/-- The state of the visit table. -/
structure Visits where
  places : List (Option Visit)
  /-- The visit named by the capture in flight (R130). -/
  mark : Option W32
  pass : Option ExpiryPass
  deriving DecidableEq, Repr

/-- A ticket's content (R144). -/
structure Ticket where
  number : W32
  visit : VisitEntry
  weight2 : Int
  time2 : W32
  epoch2 : W32
  gross : Int
  tare : Int
  net : Int
  /-- The gross weighing is the second one (R138). -/
  grossSecond : Bool
  e : Int
  crossEpoch : Bool
  axleIndicative : Bool
  deriving DecidableEq, Repr

/-- A recent-ticket copy with its recall count (section 8.1). -/
structure TicketCopy where
  ticket : Ticket
  recalls : Nat
  deriving DecidableEq, Repr

/-- A recent-ticket place (section 8.1). -/
inductive TicketPlace where
  | empty
  | held (copy : TicketCopy)
  | replacing
  deriving DecidableEq, Repr

/-- The state of the ticket issuer. -/
structure Tickets where
  places : List TicketPlace
  /-- The ticket job in flight: the ticket being formed and its place. -/
  job : Option (Ticket × Nat)
  /-- The numbers of the tickets whose recall is in flight (R146, step 3). -/
  recalls : List W32
  deriving DecidableEq, Repr

/-! Chapter 9: the journal. -/

/-- The record kinds (12.7). -/
inductive RecordKind where
  | startup | weighRecord | ticket | duplicate | axleReport | audit | condition | visitVoided | visitExpired
  | clockSet | summary
  deriving DecidableEq, Repr

/-- A record on its way to a page: its kind, the number the owed-summary notes would keep of it (the traverse
number of an AXLE_REPORT, the audit serial of an AUDIT, else 0), and its content after the record serial. -/
structure Record where
  kind : RecordKind
  key : W32
  content : List Byte
  deriving DecidableEq, Repr

/-- The owed-summary notes (R156, R157). -/
structure Notes where
  firstTraverse : Option W32
  lastTraverse : Option W32
  reports : Nat
  firstAudit : Option W32
  lastAudit : Option W32
  audits : Nat
  notices : Nat
  visits : Nat
  clocks : Nat
  deriving DecidableEq, Repr

/-- A reservation on the current page (R158). -/
structure Reservation where
  kind : RecordKind
  length : Nat
  deriving DecidableEq, Repr

/-- The journal's own state (section 9.2); its pages are in the exchange memory. -/
structure Journal where
  current : Option PageId
  nextFill : PageId
  delay : Nat
  /-- The cadence count at which the current page's first record was placed, until the counting of a later event
  clears it (R153). The model's own field. -/
  firstAt : Option W32
  /-- The current page holds a prompt record (R154, R155). -/
  prompt : Bool
  due : Bool
  blocked : Bool
  outbox : List Record
  owed : Bool
  owedRestart : Bool
  notes : Notes
  reservation : Option Reservation
  attention : Nat
  nextSequence : W32
  nextSerial : W32
  /-- A start-up runs: records are held (R160). -/
  holding : Bool
  held : List Record
  deriving DecidableEq, Repr

/-! Chapter 10: the calibration session and the seal line. -/

/-- The session states (section 10.2). -/
inductive SessionState where
  | closed | opened | committing
  deriving DecidableEq, Repr

/-- The kinds of a verification test (R172). -/
inductive TestKind where
  | increasing | decreasing | eccentric
  deriving DecidableEq, Repr

/-- An entry of the test list (R172). -/
structure TestEntry where
  revision : Nat
  mask : Nat
  kind : TestKind
  reference : Int
  indication : Int
  error : Int
  mpe : Int
  passed : Bool
  deriving DecidableEq, Repr

/-- The history of a provisional mean (R166). -/
structure Provisional where
  cell : CellId
  history : List Int
  sum : Int
  deriving DecidableEq, Repr

/-- The commit record (section 10.2). -/
structure CommitRecord where
  slot : SlotId
  changedDecks : List DeckId
  changedCount : Nat
  listed : List Nat
  oldCrc : W32
  newCrc : W32
  epoch : W32
  deriving DecidableEq, Repr

/-- The state of the calibration session. -/
structure Session where
  state : SessionState
  staged : Option MetroSet
  revision : Nat
  tests : List TestEntry
  provisional : List Provisional
  idle : Nat
  commit : Option CommitRecord
  /-- How many sessions have opened since the reset: it tells a session from a later one (R165). -/
  opens : Nat
  /-- The commit job has completed, and the next cadence event installs the set (R175). -/
  stored : Bool
  deriving DecidableEq, Repr

/-- The seal line (R162). -/
structure Seal where
  state : SealLevel
  /-- The first four samples after the reset have been taken. -/
  settled : Bool
  deriving DecidableEq, Repr

/-! Chapter 11: the audit log and the retained store. -/

/-- The audit kinds (12.7). -/
inductive AuditKind where
  | linkLost | linkRestored | cellFault | cellRestored | zeroLimit | sealOpened | sealClosed | sessionOpened
  | sessionClosed | sessionAborted | sessionBroken | sessionExpired | commit | sessionLost | setInvalid
  | countersLost | storeFault
  deriving DecidableEq, Repr

/-- An audit entry (R184). -/
structure AuditEntry where
  serial : W32
  epoch : W32
  time : W32
  clockSet : Bool
  kind : AuditKind
  detail : List Byte
  deriving DecidableEq, Repr

/-- The audit log (R184). -/
structure Audit where
  entries : List AuditEntry
  /-- The last audit serial given. -/
  last : W32
  /-- The write mark. -/
  mark : W32
  /-- The log has a job of its own in the store. -/
  busy : Bool
  deriving DecidableEq, Repr

/-- What the counters row reads as (R178), but for its generation. -/
structure Counters where
  epoch : W32
  lastTicket : W32
  closedVisit : W32
  visitCounter : W32
  auditSerial : W32
  bootCount : W32
  sessionOpen : Bool
  deriving DecidableEq, Repr

/-- The counters row as one of its two places gives it. -/
structure CountersRow where
  counters : Counters
  generation : W32
  deriving DecidableEq, Repr

/-- A metrology image: a set and the epoch it was committed under (R178). -/
structure MetroImage where
  set : MetroSet
  epoch : W32
  deriving DecidableEq, Repr

/-- A row of the retained store (R178): its 64 bytes, or contents that do not check with anything beside them, as in a
row that has never been written or has been freed (assumption 9). -/
abbrev Row := Option (List Byte)

/-- The retained rows (R178): the first nine rows of each image place, the two places of the counters row, the three
rows of each visit, the four of each recent ticket, and one for each audit entry, each class and the site settings.
The rows that nothing writes or reads are left out. -/
structure Rows where
  image0 : List Row
  image1 : List Row
  counters0 : Row
  counters1 : Row
  visits : List (List Row)
  tickets : List (List Row)
  audit : List Row
  classes : List Row
  site : Row
  deriving DecidableEq, Repr

/-- What a counters write changes in the row (R178): every other counter goes as it stands (assumption 11). -/
inductive CountersChange where
  /-- The raised visit counter (R127). -/
  | visit (n : W32)
  /-- The ticket number and the visit it closes (R140). -/
  | ticket (n closed : W32)
  /-- The session-open flag (R164, R176). -/
  | session (flag : Bool)
  /-- The new epoch, with the session-open flag clear (R174). -/
  | commit (epoch : W32)
  /-- The counters as the start-up has left them (R183, step 7). -/
  | asTheyStand
  deriving DecidableEq, Repr

/-- One row write (R179). -/
inductive RowWrite where
  | image (place : Nat) (row : Nat) (img : MetroImage)
  | counters (change : CountersChange)
  | visit (place : Nat) (row : Nat) (entry : VisitEntry)
  | freeVisit (place : Nat)
  | ticket (place : Nat) (row : Nat) (copy : TicketCopy)
  | freeTicket (place : Nat)
  | audit (entry : AuditEntry)
  | classRow (n : Nat) (entry : ClassEntry)
  | site (settings : Site)
  deriving DecidableEq, Repr

/-- The kinds of store job, each with what its requester needs to know at its end. -/
inductive JobKind where
  | firstWeigh
  | ticket
  | summary (visit : W32)
  | voidVisit (slot : SlotId) (visit : W32)
  | expiry (visit : W32)
  | recall (slot : SlotId) (place : Nat) (copy : TicketCopy)
  | openSession (slot : SlotId) (session : Nat)
  | commit (slot : SlotId) (session : Nat)
  | closeSession
  | classes (slot : SlotId) (table : List ClassEntry)
  | site (slot : SlotId) (settings : Site)
  | auditRow (serial : W32)
  | startUp
  deriving DecidableEq, Repr

/-- A store job: what it is and the rows it still has to write (R179). -/
structure Job where
  kind : JobKind
  rows : List RowWrite
  deriving DecidableEq, Repr

/-- The state of the retained store (R178 to R180). -/
structure Store where
  rows : Rows
  counters : Counters
  queue : List Job
  waiting : List Job
  /-- The row being written has mismatched once. -/
  retry : Bool
  latch : Bool
  deriving DecidableEq, Repr

end Sys2Proof.Machine
end

