-- ==== Sys2Proof/Machine/Codes.lean ====
section
/-! DEFINITION. The codes of named values (chapter 12). -/

namespace Sys2Proof.Machine

/-- The parts of the memory map (section 6.1). -/
def slotBase (s : SlotId) : Nat := 0x400 + 128 * s.val

/-- Where the staging area begins. -/
def stagingBase : Nat := 0xC00

/-- Where a page begins (section 6.1). -/
def pageBase (p : PageId) : Nat := 0x1C00 + 256 * p.val

/-- Where the body of a page begins (12.5). -/
def pageBody (p : PageId) : Nat := pageBase p + 16

/-- A page's FREE state (12.5). -/
def pageFree : W16 := 0
/-- A page's FILLING state. -/
def pageFilling : W16 := 1
/-- A page's PUBLISHED state. -/
def pagePublished : W16 := 2
/-- A page's RETURNED state. -/
def pageReturned : W16 := 3

/-- A slot's EMPTY state (12.5). -/
def slotEmpty : W16 := 0
/-- A slot's POSTED state. -/
def slotPosted : W16 := 1
/-- A slot's TAKEN state. -/
def slotTaken : W16 := 2
/-- A slot's WITHDRAW state. -/
def slotWithdraw : W16 := 3
/-- A slot's ANSWERED state. -/
def slotAnswered : W16 := 4

/-- The IDENT register (12.3): vendor code 0x53, revision 1, part number 4200. -/
def ident : W32 := 0x53011068

/-- The order kind of a code; every other value is unknown (12.5). -/
def OrderKind.ofCode (n : Nat) : Option OrderKind :=
  match n with
  | 1 => some .clearLink
  | 2 => some .clearCell
  | 3 => some .zero
  | 4 => some .armClass
  | 5 => some .loadClasses
  | 6 => some .setSignals
  | 7 => some .setSite
  | 8 => some .readSite
  | 9 => some .setClock
  | 10 => some .firstWeigh
  | 11 => some .secondWeigh
  | 12 => some .voidVisit
  | 13 => some .findVisit
  | 14 => some .recallTicket
  | 15 => some .publishNow
  | 16 => some .openSession
  | 17 => some .stageParams
  | 18 => some .zeroCal
  | 19 => some .spanCal
  | 20 => some .cornerRead
  | 21 => some .testLoad
  | 22 => some .commitSession
  | 23 => some .abortSession
  | 24 => some .readMetrology
  | 25 => some .readAudit
  | _ => none

/-- The owner of an order kind (section 6.4). -/
def OrderKind.owner : OrderKind → Owner
  | .clearLink => .cellLink
  | .clearCell => .cellSupervisor
  | .zero => .deckMonitor
  | .armClass => .tracker
  | .loadClasses => .tracker
  | .setSignals => .laneSignals
  | .setSite => .intake
  | .readSite => .intake
  | .setClock => .engineClock
  | .firstWeigh => .captureUnit
  | .secondWeigh => .captureUnit
  | .voidVisit => .visitTable
  | .findVisit => .visitTable
  | .recallTicket => .ticketIssuer
  | .publishNow => .journal
  | .openSession => .session
  | .stageParams => .session
  | .zeroCal => .session
  | .spanCal => .session
  | .cornerRead => .session
  | .testLoad => .session
  | .commitSession => .session
  | .abortSession => .session
  | .readMetrology => .session
  | .readAudit => .auditLog

/-- Whether a kind claims the staging area at take (section 6.4). -/
def OrderKind.claimsStaging : OrderKind → Bool
  | .loadClasses | .setSite | .readSite | .stageParams | .readMetrology => true
  | _ => false

/-- Answer codes (12.5). -/
def AnswerCode.code : AnswerCode → W16
  | .done => 0
  | .badOrder => 1
  | .badParam => 2
  | .stagingBusy => 3
  | .withdrawn => 4
  | .storeFault => 5
  | .platformBusy => 6
  | .sessionOpen => 7
  | .platformOccupied => 8
  | .notReady => 9
  | .notStill => 10
  | .stillLost => 11
  | .stillFaulted => 12
  | .outOfRange => 13
  | .clockUnset => 14
  | .visitExists => 15
  | .visitTableFull => 16
  | .noVisit => 17
  | .notContained => 18
  | .belowMin => 19
  | .journalFull => 20
  | .visitInUse => 21
  | .ticketRange => 22
  | .notFound => 23
  | .recallBusy => 24
  | .sealClosed => 25
  | .sessionClosed => 26
  | .unverified => 27
  | .listFull => 28
  | .cellSaturated => 29

/-- Record kinds (12.7). -/
def RecordKind.code : RecordKind → Nat
  | .startup => 1
  | .weighRecord => 2
  | .ticket => 3
  | .duplicate => 4
  | .axleReport => 5
  | .audit => 6
  | .condition => 7
  | .visitVoided => 8
  | .visitExpired => 9
  | .clockSet => 10
  | .summary => 11

/-- Prompt records (R150). -/
def RecordKind.prompt : RecordKind → Bool
  | .weighRecord | .ticket | .duplicate | .audit | .axleReport => true
  | _ => false

/-- Audit kinds (12.7). -/
def AuditKind.code : AuditKind → Nat
  | .linkLost => 1
  | .linkRestored => 2
  | .cellFault => 3
  | .cellRestored => 4
  | .zeroLimit => 5
  | .sealOpened => 6
  | .sealClosed => 7
  | .sessionOpened => 8
  | .sessionClosed => 9
  | .sessionAborted => 10
  | .sessionBroken => 11
  | .sessionExpired => 12
  | .commit => 13
  | .sessionLost => 14
  | .setInvalid => 15
  | .countersLost => 16
  | .storeFault => 17

/-- The audit kind of a code. -/
def AuditKind.ofCode (n : Nat) : Option AuditKind :=
  match n with
  | 1 => some .linkLost
  | 2 => some .linkRestored
  | 3 => some .cellFault
  | 4 => some .cellRestored
  | 5 => some .zeroLimit
  | 6 => some .sealOpened
  | 7 => some .sealClosed
  | 8 => some .sessionOpened
  | 9 => some .sessionClosed
  | 10 => some .sessionAborted
  | 11 => some .sessionBroken
  | 12 => some .sessionExpired
  | 13 => some .commit
  | 14 => some .sessionLost
  | 15 => some .setInvalid
  | 16 => some .countersLost
  | 17 => some .storeFault
  | _ => none

/-- Start causes (12.4). -/
def StartCause.code : StartCause → Nat
  | .powerOn => 1
  | .pin => 2
  | .engineRestart => 3

/-- Link states (12.4). -/
def LinkState.code : LinkState → Nat
  | .waiting => 0
  | .live => 1
  | .lost => 2
  | .resumed => 3

/-- Session states (12.4). -/
def SessionState.code : SessionState → Nat
  | .closed => 0
  | .opened => 1
  | .committing => 2

/-- Cell states (12.4). -/
def CellState.code : CellState → Nat
  | .unfitted => 0
  | .active => 1
  | .faulted => 2
  | .recovered => 3

/-- Frame statuses (12.2). -/
def CellStatus.code : CellStatus → Nat
  | .good => 0
  | .openCircuit => 1
  | .overRange => 2
  | .notFitted => 3

/-- The status of a code: a byte with none of the four codes is read as OPEN (R1). -/
def CellStatus.ofCode (n : Nat) : CellStatus :=
  match n with
  | 0 => .good
  | 1 => .openCircuit
  | 2 => .overRange
  | 3 => .notFitted
  | _ => .openCircuit

/-- Tracker states (12.4). -/
def TrackState.code : TrackState → Nat
  | .empty => 0
  | .active => 1
  | .closing => 2

/-- Aspects (12.4). -/
def Aspect.code : Aspect → Nat
  | .red => 0
  | .green => 1
  | .dark => 2

/-- The aspect of a code. -/
def Aspect.ofCode (n : Nat) : Aspect :=
  match n with
  | 0 => .red
  | 1 => .green
  | _ => .dark

/-- Horn patterns (12.4). -/
def HornPattern.code : HornPattern → Nat
  | .off => 0
  | .steady => 1
  | .pulse => 2

/-- The pattern of a code. -/
def HornPattern.ofCode (n : Nat) : HornPattern :=
  match n with
  | 0 => .off
  | 1 => .steady
  | _ => .pulse

/-- Seal states in a condition notice (12.7). -/
def sealCode : SealLevel → Nat
  | .opened => 0
  | .sealed => 1

/-- Verdicts (12.7). -/
def Verdict.code : Verdict → Nat
  | .compliant => 0
  | .nonCompliant => 1
  | .indeterminate => 2

/-- The verdict of a code. -/
def Verdict.ofCode (n : Nat) : Verdict :=
  match n with
  | 0 => .compliant
  | 1 => .nonCompliant
  | _ => .indeterminate

/-- Qualities (12.7). -/
def Quality.code : Quality → Nat
  | .confirmed => 0
  | .rollingOnly => 1
  | .indicative => 2

/-- The quality of a code. -/
def Quality.ofCode (n : Nat) : Quality :=
  match n with
  | 0 => .confirmed
  | 1 => .rollingOnly
  | _ => .indicative

/-- Group types (12.7). -/
def GroupType.code : GroupType → Nat
  | .single => 0
  | .tandem => 1
  | .tri => 2
  | .quad => 3
  | .overlong => 4

/-- The group type of a code. -/
def GroupType.ofCode (n : Nat) : GroupType :=
  match n with
  | 0 => .single
  | 1 => .tandem
  | 2 => .tri
  | 3 => .quad
  | _ => .overlong

/-- Test kinds (12.6). -/
def TestKind.code : TestKind → Nat
  | .increasing => 0
  | .decreasing => 1
  | .eccentric => 2

/-- The test kind of a code. -/
def TestKind.ofCode (n : Nat) : TestKind :=
  match n with
  | 0 => .increasing
  | 1 => .decreasing
  | _ => .eccentric

/-- Directions (12.7): from the end a traverse entered. -/
def endCode : BridgeEnd → Nat
  | .a => 0
  | .b => 1

/-- The line number in a STRIP_STUCK notice, a free value: 12.7 gives no code for the four lines (assumption 41). -/
def lineCode : Line → Nat
  | .aOut => (Config.lineNumber 0).toNat
  | .aIn => (Config.lineNumber 1).toNat
  | .bOut => (Config.lineNumber 2).toNat
  | .bIn => (Config.lineNumber 3).toNat

end Sys2Proof.Machine
end

