-- ==== Sys2Proof/Machine/Arith.lean ====
section
/-! DEFINITION. Rounding, clamping, serial counts, byte layouts and the two CRCs: the arithmetic that the rules
use by name. -/

namespace Sys2Proof.Machine

/-- The quotient rounded half away from zero (conventions, "Rounding"). The divisor is positive wherever a rule
divides. -/
def roundDiv (a b : Int) : Int :=
  if 0 ≤ a then (2 * a + b) / (2 * b) else -((2 * (-a) + b) / (2 * b))

/-- Rounded to a step: the quotient is rounded and multiplied back (conventions, "Rounding"). -/
def roundTo (a step : Int) : Int :=
  roundDiv a step * step

/-- The nearest value within `lo` to `hi`. -/
def clamp (lo hi a : Int) : Int :=
  if a < lo then lo else if hi < a then hi else a

/-- The next value of a 32-bit serial, which wraps from 4,294,967,295 to 1 (R70, R131, R150, R152, R184). -/
def nextSerial (n : W32) : W32 :=
  if n = BitVec.allOnes 32 then 1 else n + 1

/-- A count raised by one that stops at 65,535 (R154, R156). -/
def raiseTo65535 (n : Nat) : Nat :=
  if n < 65535 then n + 1 else 65535

/-- The ticks from stamp `a` to stamp `b`, modulo 2^32 (conventions, "Traverse clock"). -/
def ticksFrom (a b : W32) : Nat :=
  (b - a).toNat

/-! Fields of chapter 12: little-endian within the exchange memory, so that a 32-bit field has its low word
first (R186). -/

/-- The two bytes of a word, the low one first. -/
def bytes16 (w : W16) : List Byte :=
  [w.extractLsb' 0 8, w.extractLsb' 8 8]

/-- The four bytes of a 32-bit field, the low word first. -/
def bytes32 (w : W32) : List Byte :=
  [w.extractLsb' 0 8, w.extractLsb' 8 8, w.extractLsb' 16 8, w.extractLsb' 24 8]

/-- A number in a 16-bit field; a number that does not fit shows a free value (assumption 12). -/
def field16 (n : Int) : W16 :=
  if 0 ≤ n ∧ n < 65536 then BitVec.ofInt 16 n else Config.wide16 n

/-- A signed number in a 32-bit field; a number that does not fit shows a free value (assumption 12). -/
def fieldS32 (n : Int) : W32 :=
  if -2147483648 ≤ n ∧ n < 2147483648 then BitVec.ofInt 32 n else Config.wide32 n

/-- An unsigned number in a 32-bit field; a number that does not fit shows a free value (assumption 12). -/
def fieldU32 (n : Int) : W32 :=
  if 0 ≤ n ∧ n < 4294967296 then BitVec.ofInt 32 n else Config.wide32 n

/-- The bytes of a number in a u16 field. -/
def u16 (n : Int) : List Byte := bytes16 (field16 n)

/-- The bytes of a number in an s32 field. -/
def s32 (n : Int) : List Byte := bytes32 (fieldS32 n)

/-- The bytes of a number in an unsigned 32-bit field. -/
def u32 (n : Int) : List Byte := bytes32 (fieldU32 n)

/-- The byte of a number in a u8 field; every u8 field of chapter 12 holds numbers below 256. -/
def u8 (n : Nat) : List Byte := [BitVec.ofNat 8 n]

/-- A flag as the number 0 or 1. -/
def bit (b : Bool) : Nat := if b then 1 else 0

/-- A serial or number that may be absent is written as 0 then (R186). -/
def orZero (n : Option W32) : W32 :=
  n.getD 0

/-- Bytes filled up with 0 to `n` of them (R186: 0 in every byte no field occupies). -/
def padTo (n : Nat) (bs : List Byte) : List Byte :=
  bs ++ List.replicate (n - bs.length) 0

/-- A word from its two bytes, the low one first. -/
def word16 (lo hi : Byte) : W16 := hi ++ lo

/-- The little-endian number that bytes spell. -/
def natOfBytes : List Byte → Nat
  | [] => 0
  | b :: bs => b.toNat + 256 * natOfBytes bs

/-- The big-endian number that bytes spell: multi-byte fields on the link go high byte first (R187). -/
def natOfBytesBig (bs : List Byte) : Nat :=
  natOfBytes bs.reverse

/-- A number of `bits` bits read as signed two's complement (R187). -/
def signedOf (bits n : Nat) : Int :=
  if n < 2 ^ (bits - 1) then (n : Int) else (n : Int) - (2 ^ bits : Nat)

/-! The CRC-16 of R2 and the CRC-32 of R178. -/

/-- `f n`, with `n` brought to a numeral first: a chain of thousands of unevaluated steps is too deep for Lean's
kernel. -/
def evaluated {α : Type} (n : Nat) (f : Nat → α) : α :=
  match n with
  | 0 => f 0
  | k + 1 => f (k + 1)

/-- One bit of the CRC-16: x^16 + x^12 + x^5 + 1, most significant bit first (R2). -/
def crc16Bit (c : Nat) : Nat :=
  if c.testBit 15 then ((c <<< 1) % 65536) ^^^ 0x1021 else (c <<< 1) % 65536

/-- `n` bits of the CRC-16. -/
def crc16Bits : Nat → Nat → Nat
  | 0, c => c
  | n + 1, c => crc16Bits n (crc16Bit c)

/-- The CRC-16 carried over the bytes from the register value `c`. -/
def crc16From (c : Nat) : List Byte → Nat
  | [] => c
  | b :: bs => evaluated (crc16Bits 8 (c ^^^ (b.toNat <<< 8))) fun d => crc16From d bs

/-- The CRC-16 of R2: it starts from all ones and has no final inversion. -/
def crc16 (bs : List Byte) : W16 :=
  BitVec.ofNat 16 (crc16From 0xFFFF bs)

/-- One bit of the CRC-32 of R178, least significant bit first: 0xEDB88320 is its polynomial in that order. -/
def crc32Bit (c : Nat) : Nat :=
  if c.testBit 0 then (c >>> 1) ^^^ 0xEDB88320 else c >>> 1

/-- `n` bits of the CRC-32. -/
def crc32Bits : Nat → Nat → Nat
  | 0, c => c
  | n + 1, c => crc32Bits n (crc32Bit c)

/-- The CRC-32 carried over the bytes from the register value `c`. -/
def crc32From (c : Nat) : List Byte → Nat
  | [] => c
  | b :: bs => evaluated (crc32Bits 8 (c ^^^ b.toNat)) fun d => crc32From d bs

/-- The CRC-32 of R178: it starts from all ones and is inverted at the end. -/
def crc32 (bs : List Byte) : W32 :=
  BitVec.ofNat 32 (crc32From 0xFFFFFFFF bs ^^^ 0xFFFFFFFF)

end Sys2Proof.Machine
end

