-- ==== Sys2Proof/Machine/Flags.lean ====
section
/-! DEFINITION. The condition flags of a deck and of the platform (chapter 3), and the words that flag sets are
written as (chapter 12). -/

namespace Sys2Proof.Machine

/-- The number of a flag set with bit `i` for the `i`-th flag of the list (R186). -/
def bitsNat : List Bool → Nat
  | [] => 0
  | b :: bs => bit b + 2 * bitsNat bs

/-- The word of a flag set, bit 0 first (R186). -/
def flagWord (bs : List Bool) : W16 :=
  BitVec.ofNat 16 (bitsNat bs)

/-- The nine flags in the order of the deck flag word (12.4). -/
def DeckFlags.list (f : DeckFlags) : List Bool :=
  [f.filling, f.degraded, f.linkFault, f.inTest, f.uncalibrated, f.zeroUnset, f.overload, f.under, f.motion]

/-- The deck flag word (12.4). -/
def DeckFlags.word (f : DeckFlags) : W16 :=
  flagWord f.list

/-- The flags that either set carries. -/
def DeckFlags.union (f g : DeckFlags) : DeckFlags :=
  { filling := f.filling || g.filling
    degraded := f.degraded || g.degraded
    linkFault := f.linkFault || g.linkFault
    inTest := f.inTest || g.inTest
    uncalibrated := f.uncalibrated || g.uncalibrated
    zeroUnset := f.zeroUnset || g.zeroUnset
    overload := f.overload || g.overload
    under := f.under || g.under
    motion := f.motion || g.motion }

/-- Trade-ready: no flag but MOTION (R45). -/
def DeckFlags.tradeReady (f : DeckFlags) : Bool :=
  !(f.filling || f.degraded || f.linkFault || f.inTest || f.uncalibrated || f.zeroUnset || f.overload || f.under)

/-- Still: no MOTION (R45). -/
def DeckFlags.still (f : DeckFlags) : Bool :=
  !f.motion

/-- No flag at all, MOTION included (R55, condition 2). -/
def DeckFlags.clean (f : DeckFlags) : Bool :=
  f.tradeReady && f.still

/-- The eleven reasons in the order of the reason set's word (12.7). -/
def Reasons.list (r : Reasons) : List Bool :=
  [r.edgeOverrun, r.reversed, r.secondVehicle, r.crossingLost, r.overlong, r.linkFault, r.degraded, r.short,
   r.overspeed, r.slow, r.disagree]

/-- The three override causes as bits 0 to 2 (12.4, 12.6). -/
def Causes.list (c : Causes) : List Bool :=
  [c.capture, c.secondVehicle, c.session]

/-- At least one override cause is marked (R92, R93). -/
def Causes.any (c : Causes) : Bool :=
  c.capture || c.secondVehicle || c.session

/-- One cause set or cleared. -/
def Causes.put (c : Causes) (k : Cause) (b : Bool) : Causes :=
  match k with
  | .capture => { c with capture := b }
  | .secondVehicle => { c with secondVehicle := b }
  | .session => { c with session := b }

end Sys2Proof.Machine
end

