-- ==== Sys2Proof/Machine/Metro.lean ====
section
/-! DEFINITION. The metrology set: its fields by parameter id and index, their ranges and constraints (R166), its
image (12.8) and the manufacture set (R23). -/

namespace Sys2Proof.Machine

/-- The field of a parameter id, as the list of its values by index (R166). -/
def MetroSet.field (m : MetroSet) (id : Nat) : List Int :=
  match id with
  | 1 => m.cellMap
  | 2 => m.z
  | 3 => m.k
  | 4 => m.enabled
  | 5 => m.gain
  | 6 => m.capacity
  | 7 => m.points
  | 8 => m.x
  | 9 => m.y
  | 10 => m.filter
  | 11 => m.window
  | 12 => m.tracking
  | 13 => m.zcal
  | 14 => [m.e]
  | _ => []

/-- A field replaced. -/
def MetroSet.setField (m : MetroSet) (id : Nat) (vs : List Int) : MetroSet :=
  match id with
  | 1 => { m with cellMap := vs }
  | 2 => { m with z := vs }
  | 3 => { m with k := vs }
  | 4 => { m with enabled := vs }
  | 5 => { m with gain := vs }
  | 6 => { m with capacity := vs }
  | 7 => { m with points := vs }
  | 8 => { m with x := vs }
  | 9 => { m with y := vs }
  | 10 => { m with filter := vs }
  | 11 => { m with window := vs }
  | 12 => { m with tracking := vs }
  | 13 => { m with zcal := vs }
  | 14 => { m with e := vs.headD m.e }
  | _ => m

/-- The value of a parameter identity. -/
def MetroSet.get (m : MetroSet) (id index : Nat) : Int :=
  (m.field id).getD index 0

/-- The value of a parameter identity replaced. -/
def MetroSet.put (m : MetroSet) (id index : Nat) (v : Int) : MetroSet :=
  m.setField id ((m.field id).set index v)

/-- How many indices a parameter id has; an unknown id has none (R166). -/
def paramCount (id : Nat) : Nat :=
  match id with
  | 1 | 2 | 3 => 24
  | 8 | 9 => 16
  | 4 | 5 | 6 | 7 | 10 | 11 | 12 | 13 => 4
  | 14 => 1
  | _ => 0

/-- The ids whose values are read as signed (12.8). -/
def paramSigned (id : Nat) : Bool :=
  id == 2 || id == 9 || id == 13

/-- The value ranges of R166's table. -/
def paramInRange (id : Nat) (v : Int) : Bool :=
  match id with
  | 1 => decide (0 ≤ v ∧ v ≤ 4)
  | 2 => decide (-8388608 ≤ v ∧ v ≤ 8388607)
  | 3 => decide (32768 ≤ v ∧ v ≤ 98304)
  | 4 => decide (0 ≤ v ∧ v ≤ 1)
  | 5 => decide (1 ≤ v ∧ v ≤ 4294967295)
  | 6 => decide (1000000 ≤ v ∧ v ≤ 200000000)
  | 7 => decide (0 ≤ v ∧ v ≤ 4)
  | 8 => decide (1 ≤ v ∧ v ≤ 200000000)
  | 9 => decide (-2000000 ≤ v ∧ v ≤ 2000000)
  | 10 => decide (v ∈ [(1 : Int), 2, 4, 8, 16, 32, 64, 128])
  | 11 => decide (20 ≤ v ∧ v ≤ 400)
  | 12 => decide (0 ≤ v ∧ v ≤ 1)
  | 13 => decide (-20000000 ≤ v ∧ v ≤ 20000000)
  | 14 => decide (v ∈ [(5000 : Int), 10000, 20000, 50000, 100000])
  | _ => false

/-- The parameter ids. -/
def paramIds : List Nat := [1, 2, 3, 4, 5, 6, 7, 8, 9, 10, 11, 12, 13, 14]

/-- A set of no values, to which an image's fields are added. -/
def MetroSet.blank : MetroSet :=
  { cellMap := []
    z := []
    k := []
    enabled := []
    gain := []
    capacity := []
    points := []
    x := []
    y := []
    filter := []
    window := []
    tracking := []
    zcal := []
    e := 0 }

/-- The values of parameter numbers 0 to 136, in order (R166, 12.8). -/
def MetroSet.values (m : MetroSet) : List Int :=
  paramIds.flatMap fun id => (List.range (paramCount id)).map (m.get id)

/-- The deck a cell is mapped to (R22). -/
def MetroSet.deckOf (m : MetroSet) (c : CellId) : Option DeckId :=
  match m.get 1 c.val with
  | 0 => some 0
  | 1 => some 1
  | 2 => some 2
  | 3 => some 3
  | _ => none

/-- A deck is enabled in the set. -/
def MetroSet.isEnabled (m : MetroSet) (d : DeckId) : Bool :=
  m.get 4 d.val == 1

/-- The enabled deck a cell is mapped to, if any (R12, R22). -/
def MetroSet.fittedTo (m : MetroSet) (c : CellId) : Option DeckId :=
  match m.deckOf c with
  | some d => if m.isEnabled d then some d else none
  | none => none

/-- The cells mapped to a deck, in ascending order. -/
def MetroSet.cellsOf (m : MetroSet) (d : DeckId) : List CellId :=
  allCells.filter fun c => m.deckOf c == some d

/-- The enabled decks, in ascending order. -/
def MetroSet.decks (m : MetroSet) : List DeckId :=
  allDecks.filter m.isEnabled

/-- Max_d. -/
def MetroSet.maxOf (m : MetroSet) (d : DeckId) : Int := m.get 6 d.val

/-- L_d. -/
def MetroSet.lengthOf (m : MetroSet) (d : DeckId) : Nat := (m.get 10 d.val).toNat

/-- N_s,d. -/
def MetroSet.windowOf (m : MetroSet) (d : DeckId) : Nat := (m.get 11 d.val).toNat

/-- Z_cal_d. -/
def MetroSet.zcalOf (m : MetroSet) (d : DeckId) : Int := m.get 13 d.val

/-- The points that count for a deck: (x_j, y_j) for j below the point count (R22, R166). -/
def MetroSet.pointsOf (m : MetroSet) (d : DeckId) : List (Int × Int) :=
  (List.range (m.get 7 d.val).toNat).map fun j => (m.get 8 (d.val * 4 + j), m.get 9 (d.val * 4 + j))

/-- x strictly ascending from `lo` on. -/
def ascendingFrom : Int → List Int → Bool
  | _, [] => true
  | lo, x :: xs => decide (lo < x) && ascendingFrom x xs

/-- The constraints of R166: the number of each, and whether it holds for a deck. The first one concerns no deck. -/
def MetroSet.constraint (m : MetroSet) (n : Nat) (d : DeckId) : Bool :=
  let xs := (m.pointsOf d).map Prod.fst
  match n with
  | 1 => !m.decks.isEmpty
  | 2 => ascendingFrom 0 xs && decide (xs.getLastD 0 ≤ m.maxOf d)
  | 3 => (m.pointsOf d).all fun p => decide ((p.2.natAbs : Int) * 100 ≤ m.maxOf d)
  | _ => decide (((m.zcalOf d).natAbs : Int) * 10 ≤ m.maxOf d)

/-- Constraints and decks in the order they are judged (R166, R167). -/
def constraintOrder : List (Nat × DeckId) :=
  [(1, 0)] ++ [2, 3, 4].flatMap fun n => allDecks.map fun d => (n, d)

/-- The first constraint that fails, with its deck. -/
def MetroSet.firstFailure (m : MetroSet) : Option (Nat × DeckId) :=
  constraintOrder.find? fun p => !m.constraint p.1 p.2

/-- Every field has its number of values, and each lies in its range (R166). -/
def MetroSet.inRange (m : MetroSet) : Bool :=
  paramIds.all fun id => (m.field id).length == paramCount id && (m.field id).all (paramInRange id)

/-- The fields satisfy R166. -/
def MetroSet.valid (m : MetroSet) : Bool :=
  m.inRange && m.firstFailure.isNone

/-- Whether a field with this id and index takes part in a constraint for a deck (R167, step 3). A deck's points
take part while j is below the point count. -/
def takesPart (m : MetroSet) (id index : Nat) (n : Nat) (d : DeckId) : Bool :=
  let onDeck := index == d.val
  let counted := index / 4 == d.val && decide (index % 4 < (m.get 7 d.val).toNat)
  match n with
  | 1 => id == 4
  | 2 => (id == 7 && onDeck) || (id == 8 && counted) || (id == 6 && onDeck)
  | 3 => (id == 7 && onDeck) || (id == 9 && counted) || (id == 6 && onDeck)
  | _ => (id == 13 && onDeck) || (id == 6 && onDeck)

/-- One value of an image: signed for ids 2, 9 and 13 and unsigned for the others. Both lie in 32 bits for every
value in its range (12.8). -/
def imageValue (v : Int) : List Byte :=
  bytes32 (BitVec.ofInt 32 v)

/-- Bytes 0 to 551 of a metrology image (12.8). -/
def MetroImage.bytes (i : MetroImage) : List Byte :=
  i.set.values.flatMap imageValue ++ bytes32 i.epoch

/-- The CRC-32 of an image (R178). -/
def MetroImage.crc (i : MetroImage) : W32 :=
  crc32 i.bytes

/-- An image place as it is stored: bytes 0 to 551, the CRC-32 at 552, and the rest of the ninth row 0, which is
outside the CRC-32 and is not read (12.8, assumption 9). -/
def MetroImage.stored (i : MetroImage) : List Byte :=
  padTo 576 (i.bytes ++ bytes32 i.crc)

/-- Row `r` of what is stored over several rows: 64 bytes of it (R178). -/
def rowOf (bytes : List Byte) (r : Nat) : List Byte :=
  (bytes.drop (64 * r)).take 64

/-- Row `r` of a stored image (R178). -/
def MetroImage.row (i : MetroImage) (r : Nat) : List Byte :=
  rowOf i.stored r

/-- The nine rows of a stored image (R178). -/
def MetroImage.rows (i : MetroImage) : List Row :=
  (List.range 9).map fun r => some (i.row r)

/-- The 32-bit value at an offset of an image, the low byte first (R186). -/
def imageLong (bytes : List Byte) (x : Nat) : W32 :=
  BitVec.ofNat 32 (natOfBytes ((bytes.drop x).take 4))

/-- The number of the first parameter of an id (R166, 12.8). -/
def paramBase (id : Nat) : Nat :=
  ((paramIds.takeWhile fun p => p != id).map paramCount).sum

/-- The values of one parameter id in an image: signed for ids 2, 9 and 13 (12.8). -/
def imageField (bytes : List Byte) (id : Nat) : List Int :=
  (List.range (paramCount id)).map fun i =>
    let raw := imageLong bytes (4 * (paramBase id + i))
    if paramSigned id then raw.toInt else (raw.toNat : Int)

/-- The image that bytes 0 to 551 hold (12.8). -/
def parseImage (bytes : List Byte) : MetroImage :=
  { set := paramIds.foldl (fun m id => m.setField id (imageField bytes id)) MetroSet.blank
    epoch := imageLong bytes 548 }

/-- The numbers of the parameters in which two sets differ, in ascending order. -/
def changedParams (a b : MetroSet) : List Nat :=
  ((a.values.zip b.values).zip (List.range 137)).filterMap fun p => if p.1.1 = p.1.2 then none else some p.2

/-- The manufacture set (R23). The values of points that do not count are not given there: a value in range
(assumption 39). -/
def manufactureSet : MetroSet :=
  { cellMap := List.replicate 24 4
    z := List.replicate 24 0
    k := List.replicate 24 65536
    enabled := [1, 0, 0, 0]
    gain := List.replicate 4 65536
    capacity := List.replicate 4 60000000
    points := List.replicate 4 0
    x := List.replicate 16 1
    y := List.replicate 16 0
    filter := List.replicate 4 16
    window := List.replicate 4 100
    tracking := List.replicate 4 1
    zcal := List.replicate 4 0
    e := 20000 }

/-- The manufacture class (R81): a name of eight spaces, every limit 0 and tolerance 0. -/
def manufactureClass : ClassEntry :=
  { name := List.replicate 8 0x20
    steer := 0
    single := 0
    tandem := 0
    tri := 0
    quad := 0
    gross := 0
    tolerance := 0 }

/-- The site defaults (section 6.6). -/
def defaultSite : Site :=
  { debounce := 10
    spacing := 500
    settle := 600
    maxSpeed := 5
    groupGap := 2000
    vehicleGap := 12000
    policy := 0
    captureTimeout := 20
    publishDelay := 20
    attentionPages := 4
    visitAge := 0 }

/-- The counters as at manufacture (R178). -/
def manufactureCounters : Counters :=
  { epoch := 0
    lastTicket := 0
    closedVisit := 0
    visitCounter := 0
    auditSerial := 0
    bootCount := 0
    sessionOpen := false }

end Sys2Proof.Machine
end

