-- ==== Sys2Proof/Machine/Rows.lean ====
section
/-! DEFINITION. The rows of the retained store as their 64 bytes (R178): what protects them, the layout of what they
hold (12.8; where chapter 12 gives none, assumption 9), and how it is read back. -/

namespace Sys2Proof.Machine

/-! Protection (R178). -/

/-- What `n` rows hold: a content filled up with 0, and in the last two bytes of the last row the CRC-16 of all the
bytes before it, the low byte first (R178, assumption 9). -/
def withCrc (n : Nat) (content : List Byte) : List Byte :=
  let body := padTo (64 * n - 2) (content.take (64 * n - 2))
  body ++ bytes16 (crc16 body)

/-- The bytes that rows hold before their CRC-16, if it checks (R178). -/
def checkedBytes (rows : List Row) : Option (List Byte) :=
  if rows.all Option.isSome then
    let bytes := rows.flatMap fun r => r.getD []
    let n := 64 * rows.length - 2
    if bytes.drop n = bytes16 (crc16 (bytes.take n)) then some (bytes.take n) else none
  else none

/-! Fields. -/

/-- The u8 field at an offset. -/
def fieldByte (bytes : List Byte) (x : Nat) : Nat :=
  (bytes.getD x 0).toNat

/-- The u16 field at an offset, the low byte first. -/
def fieldWord (bytes : List Byte) (x : Nat) : Nat :=
  natOfBytes ((bytes.drop x).take 2)

/-- The s32 field at an offset. -/
def fieldSigned (bytes : List Byte) (x : Nat) : Int :=
  (imageLong bytes x).toInt

/-- A number that may be absent, written as 0 then (R186). -/
def fieldOrNone (bytes : List Byte) (x : Nat) : Option W32 :=
  if imageLong bytes x = 0 then none else some (imageLong bytes x)

/-! The counters row (R178). -/

/-- The counters row in 64 bytes (assumption 9). -/
def CountersRow.stored (x : CountersRow) : List Byte :=
  let c := x.counters
  withCrc 1
    (bytes32 c.epoch ++ bytes32 c.lastTicket ++ bytes32 c.closedVisit ++ bytes32 c.visitCounter
      ++ bytes32 c.auditSerial ++ bytes32 c.bootCount ++ bytes32 x.generation ++ u8 (bit c.sessionOpen))

/-- The counters row that a place holds, if its CRC-16 checks (R178). -/
def countersOf (r : Row) : Option CountersRow :=
  (checkedBytes [r]).map fun b =>
    { counters :=
        { epoch := imageLong b 0
          lastTicket := imageLong b 4
          closedVisit := imageLong b 8
          visitCounter := imageLong b 12
          auditSerial := imageLong b 16
          bootCount := imageLong b 20
          sessionOpen := fieldByte b 28 == 1 }
      generation := imageLong b 24 }

/-! Visit entries and tickets (R127, R140, 12.7). -/

/-- The fields that WEIGH_RECORD, VISIT_VOIDED and VISIT_EXPIRED share, from offset 8 to 40 (12.7). -/
def VisitEntry.fields (e : VisitEntry) : List Byte :=
  bytes32 e.number ++ e.vehicle ++ bytes32 e.lot ++ s32 e.weight ++ bytes32 e.time ++ bytes32 e.epoch

/-- A group of a ticket's summary (12.7). -/
def ticketGroup (g : SummaryGroup) : List Byte :=
  u8 g.kind.code ++ u8 g.axles ++ u8 (bit g.overload) ++ u8 0 ++ s32 g.load ++ s32 g.limit

/-- A summary as a ticket carries it: 0 in every byte where there is none (12.7, R186). -/
def summaryBytes : Option Summary → List Byte
  | some m => u8 m.verdict.code ++ u8 m.quality.code ++ u8 m.groups.length ++ u8 0 ++ m.groups.flatMap ticketGroup
  | none => [0, 0, 0, 0]

/-- The group at an offset. -/
def groupOf (b : List Byte) (x : Nat) : SummaryGroup :=
  { kind := GroupType.ofCode (fieldByte b x)
    axles := fieldByte b (x + 1)
    load := fieldSigned b (x + 4)
    limit := fieldSigned b (x + 8)
    overload := fieldByte b (x + 2) == 1 }

/-- The summary at an offset. -/
def summaryOf (b : List Byte) (x : Nat) : Summary :=
  { verdict := Verdict.ofCode (fieldByte b x)
    quality := Quality.ofCode (fieldByte b (x + 1))
    groups := (List.range (fieldByte b (x + 2))).map fun j => groupOf b (x + 4 + 12 * j) }

/-- A visit entry in the 192 bytes of its three rows (assumption 9). -/
def VisitEntry.stored (e : VisitEntry) : List Byte :=
  withCrc 3
    (e.fields ++ bytes32 (orZero e.bound) ++ u8 (bit e.summary.isSome) ++ [0, 0, 0] ++ summaryBytes e.summary)

/-- The visit entry that three rows hold, if their CRC-16 checks (R131). -/
def visitOf (rows : List Row) : Option VisitEntry :=
  (checkedBytes rows).map fun b =>
    { number := imageLong b 0
      vehicle := (b.drop 4).take 12
      lot := imageLong b 16
      weight := fieldSigned b 20
      time := imageLong b 24
      epoch := imageLong b 28
      bound := fieldOrNone b 32
      summary := if fieldByte b 36 = 1 then some (summaryOf b 40) else none }

/-- The ticket flags (12.7). -/
def Ticket.flags (t : Ticket) : W16 :=
  flagWord [t.crossEpoch, t.axleIndicative, t.visit.summary.isSome]

/-- The content of a TICKET record from offset 8 on (12.7, R144). -/
def Ticket.content (t : Ticket) : List Byte :=
  bytes32 t.number ++ bytes32 t.visit.number ++ t.visit.vehicle ++ bytes32 t.visit.lot
    ++ s32 t.visit.weight ++ bytes32 t.visit.time ++ bytes32 t.visit.epoch
    ++ s32 t.weight2 ++ bytes32 t.time2 ++ bytes32 t.epoch2
    ++ s32 t.gross ++ s32 t.tare ++ s32 t.net
    ++ u16 (bit t.grossSecond) ++ bytes16 t.flags ++ u32 t.e ++ bytes32 (orZero t.visit.bound)
    ++ summaryBytes t.visit.summary

/-- The ticket that the content of a TICKET record gives. -/
def ticketOf (b : List Byte) : Ticket :=
  let flags := fieldWord b 62
  { number := imageLong b 0
    visit :=
      { number := imageLong b 4
        vehicle := (b.drop 8).take 12
        lot := imageLong b 20
        weight := fieldSigned b 24
        time := imageLong b 28
        epoch := imageLong b 32
        bound := fieldOrNone b 68
        summary := if flags.testBit 2 then some (summaryOf b 72) else none }
    weight2 := fieldSigned b 36
    time2 := imageLong b 40
    epoch2 := imageLong b 44
    gross := fieldSigned b 48
    tare := fieldSigned b 52
    net := fieldSigned b 56
    grossSecond := fieldWord b 60 == 1
    e := (imageLong b 64).toNat
    crossEpoch := flags.testBit 0
    axleIndicative := flags.testBit 1 }

/-- A recent-ticket copy in the 256 bytes of its four rows: the full record content, and in the fourth row the recall
count before the CRC-16 (R140, R146, assumption 9). -/
def TicketCopy.stored (c : TicketCopy) : List Byte :=
  withCrc 4 (padTo 252 (c.ticket.content.take 252) ++ u16 c.recalls)

/-- The recent-ticket copy that four rows hold, if their CRC-16 checks (R137). -/
def copyOf (rows : List Row) : Option TicketCopy :=
  (checkedBytes rows).map fun b => { ticket := ticketOf b, recalls := fieldWord b 252 }

/-! Audit entries (R184). -/

/-- Byte `i` of the 137 bits that say which parameters a COMMIT entry lists. -/
def listedByte (ns : List Nat) (i : Nat) : Byte :=
  BitVec.ofNat 8 (bitsNat ((List.range 8).map fun j => ns.contains (8 * i + j)))

/-- The numbers of the bits that are set. -/
def listedNumbers (bytes : List Byte) : List Nat :=
  (List.range 137).filter fun n => (bytes.getD (n / 8) 0).getLsbD (n % 8)

/-- The detail of an entry in its row: as it stands, but the up to 40 parameter numbers of a COMMIT entry, which stand
in ascending order and for which the row has no room, as 137 bits (assumption 9). -/
def AuditEntry.packed (e : AuditEntry) : List Byte :=
  if e.kind = .commit then
    let listed := if fieldByte e.detail 10 = 255 then [] else (e.detail.drop 12).take (fieldByte e.detail 10)
    e.detail.take 12 ++ (List.range 18).map (listedByte (listed.map BitVec.toNat))
  else e.detail

/-- The detail of an entry of a kind and a length from its row. -/
def unpackedDetail (kind : AuditKind) (n : Nat) (b : List Byte) : List Byte :=
  if kind = .commit then padTo n (b.take 12 ++ (listedNumbers (b.drop 12)).map (BitVec.ofNat 8)) else b.take n

/-- An audit entry in the 64 bytes of its row (assumption 9). -/
def AuditEntry.stored (e : AuditEntry) : List Byte :=
  withCrc 1
    (bytes32 e.serial ++ bytes32 e.epoch ++ bytes32 e.time ++ u8 e.kind.code ++ u8 (bit e.clockSet)
      ++ u16 e.detail.length ++ e.packed)

/-- The audit entry that a row holds, if its CRC-16 checks (R184). A row that checks under a kind code that is none of
12.7, which no write of the part makes, holds no entry (assumption 62). -/
def auditOf (r : Row) : Option AuditEntry :=
  match checkedBytes [r] with
  | some b =>
    (AuditKind.ofCode (fieldByte b 12)).map fun kind =>
      { serial := imageLong b 0
        epoch := imageLong b 4
        time := imageLong b 8
        clockSet := fieldByte b 13 == 1
        kind := kind
        detail := unpackedDetail kind (fieldWord b 14) (b.drop 16) }
  | none => none

/-! The class table and the site settings (12.8). -/

/-- A class in the 64 bytes of its row: the 34 bytes of the class table image (12.8). -/
def ClassEntry.stored (c : ClassEntry) : List Byte :=
  withCrc 1
    (c.name ++ u32 c.steer ++ u32 c.single ++ u32 c.tandem ++ u32 c.tri ++ u32 c.quad ++ u32 c.gross ++ u16 c.tolerance)

/-- The class that a row holds, if its CRC-16 checks (R81). -/
def classOf (r : Row) : Option ClassEntry :=
  (checkedBytes [r]).map fun b =>
    { name := b.take 8
      steer := (imageLong b 8).toNat
      single := (imageLong b 12).toNat
      tandem := (imageLong b 16).toNat
      tri := (imageLong b 20).toNat
      quad := (imageLong b 24).toNat
      gross := (imageLong b 28).toNat
      tolerance := fieldWord b 32 }

/-- The eleven fields of a site image, in field-number order (12.8). -/
def Site.fields (x : Site) : List Nat :=
  [x.debounce, x.spacing, x.settle, x.maxSpeed, x.groupGap, x.vehicleGap, x.policy, x.captureTimeout,
    x.publishDelay, x.attentionPages, x.visitAge]

/-- The settings of eleven fields. -/
def siteOf (f : Nat → Nat) : Site :=
  { debounce := f 0
    spacing := f 1
    settle := f 2
    maxSpeed := f 3
    groupGap := f 4
    vehicleGap := f 5
    policy := f 6
    captureTimeout := f 7
    publishDelay := f 8
    attentionPages := f 9
    visitAge := f 10 }

/-- The settings in the 64 bytes of the site row: the 22 bytes of the site image (12.8). -/
def Site.stored (x : Site) : List Byte :=
  withCrc 1 (x.fields.flatMap fun (n : Nat) => u16 n)

/-- The settings that the site row holds, if its CRC-16 checks (R116). -/
def settingsOf (r : Row) : Option Site :=
  (checkedBytes [r]).map fun b => siteOf fun n => fieldWord b (2 * n)

/-! What the rows hold, and the rows at manufacture (R178, R81, R116). -/

/-- The first place of the counters row, or the second (R178). -/
def Rows.countersAt (r : Rows) (second : Bool) : Option CountersRow :=
  countersOf (if second then r.counters1 else r.counters0)

/-- The entry of a visit place, if its three rows check (R131). -/
def Rows.visitAt (r : Rows) (i : Nat) : Option VisitEntry :=
  visitOf (r.visits.getD i [])

/-- The copy of a recent-ticket place, if its four rows check (R137). -/
def Rows.ticketAt (r : Rows) (i : Nat) : Option TicketCopy :=
  copyOf (r.tickets.getD i [])

/-- The rows of a part new from manufacture. -/
def manufactureRows : Rows :=
  { image0 := MetroImage.rows ⟨manufactureSet, 0⟩
    image1 := List.replicate 9 none
    counters0 := some (CountersRow.stored ⟨manufactureCounters, 1⟩)
    counters1 := none
    visits := List.replicate 64 (List.replicate 3 none)
    tickets := List.replicate 16 (List.replicate 4 none)
    audit := List.replicate 128 none
    classes := List.replicate 16 (some manufactureClass.stored)
    site := some defaultSite.stored }

end Sys2Proof.Machine
end

