-- ==== Sys2Proof/Machine/State.lean ====
section
/-! DEFINITION. The state of the part, the reasons a step can stop, and the state after reset. -/

namespace Sys2Proof.Machine

/-- The state: every register, queue, count, mode and pin of the sixteen blocks, and the commands that wait. -/
structure State where
  /-- The commands that wait, first in, first out (assumption 1). -/
  pending : List Instr
  power : Power
  pins : Pins
  /-- The traverse clock, in ticks of 100 µs (conventions). -/
  clock : W32
  link : Link
  back : BackChannel
  /-- The 24 cells of the supervisor. -/
  cells : List Cell
  metro : Metrology
  chain : Chain
  monitor : Monitor
  tracker : Tracker
  lane : Lane
  /-- The exchange memory: header, live board, slots, staging area and journal pages. -/
  mem : Memory
  regs : Registers
  intake : Intake
  /-- The working copy of the site settings. -/
  site : Site
  time : EngineClock
  /-- The capture in flight; none is IDLE. -/
  capture : Option Capture
  visits : Visits
  tickets : Tickets
  journal : Journal
  session : Session
  sealLine : Seal
  store : Store
  audit : Audit
  /-- What is left of a cadence event that has stopped at an event with a row of its own, which stands first in it;
  empty between cadence events (assumption 4). The model's own field. -/
  unfinished : List Piece
  deriving DecidableEq, Repr

/-- The reasons a step can stop with a fault. There is none: every error of the manual is an answer, a cause, a
flag, a latch or a record, after which the part goes on. -/
inductive Fault where
  deriving DecidableEq, Repr

/-- The reasons a command can be refused. -/
inductive Refusal where
  /-- A command whose meaning is not written yet, by its mnemonic; raised by the arms of `exec` alone. Safe: the
  model says nothing about such a command. No arm raises it now. -/
  | notModelled (mnemonic : String)
  deriving DecidableEq, Repr

/-- What a step answers. -/
abbrev Result := Host.Outcome State Fault Refusal

/-- A cell as every reset leaves it in a part that has it unfitted (R12). -/
def Cell.start : Cell :=
  { state := .unfitted
    faultRun := 0
    recovery := 0
    restarts := 0
    lastGood := none
    lastRestart := none
    held := 0
    prior := false
    released := false }

/-- A cell's chain values at every reset (R25). -/
def CellChain.start : CellChain :=
  { a := 0
    saturated := false
    history := []
    sum := 0 }

/-- A deck's chain values at every reset (R25). -/
def DeckChain.start : DeckChain :=
  { deckSum := 0
    filtered := 0
    mass := 0
    corrected := 0
    gross := 0
    legal := 0
    fine := 0
    history := []
    fill := 0
    running := 0 }

/-- The chain at every reset (R25). -/
def Chain.start : Chain :=
  { cells := List.replicate 24 CellChain.start
    decks := Four.all DeckChain.start
    gross := 0
    legal := 0
    fine := 0
    overload := false }

/-- The flags of an enabled deck at every reset (R44). -/
def DeckFlags.start (uncalibrated : Bool) : DeckFlags :=
  { DeckFlags.none with
    filling := true
    linkFault := true
    motion := true
    zeroUnset := true
    uncalibrated := uncalibrated }

/-- What the monitor keeps for a deck at every reset (R44, R48, R49, R50, R56). -/
def DeckMonitor.start (enabled uncalibrated : Bool) (zcal : Int) : DeckMonitor :=
  { flags := if enabled then DeckFlags.start uncalibrated else DeckFlags.none
    window := []
    fill := 0
    zero := zcal
    zeroRef := zcal
    watch := .notStarted none
    limitMark := false
    zeroed := false }

/-- What a snapshot holds of a deck at every reset. -/
def DeckSnapshot.start (flags : DeckFlags) : DeckSnapshot :=
  { legal := 0
    fine := 0
    gross := 0
    corrected := 0
    flags := flags }

/-- The deck monitor at every reset, for a set and its stand-in mark (R44, R49). -/
def Monitor.start (m : MetroSet) (standIn : Bool) : Monitor :=
  let deck := fun d => DeckMonitor.start (m.isEnabled d) standIn (m.zcalOf d)
  { decks := ⟨deck 0, deck 1, deck 2, deck 3⟩
    tracking := 0
    snapshot :=
      { decks := ⟨DeckSnapshot.start (deck 0).flags, DeckSnapshot.start (deck 1).flags,
          DeckSnapshot.start (deck 2).flags, DeckSnapshot.start (deck 3).flags⟩
        legal := 0
        fine := 0
        gross := 0
        flags := (((deck 0).flags.union (deck 1).flags).union (deck 2).flags).union (deck 3).flags } }

/-- A strip line at a reset: its accepted level is the input level, and no hold runs (R61, R64). -/
def StripLine.start (pressed : Bool) (now : W32) : StripLine :=
  { pressed := pressed
    hold := none
    pressedAt := now
    stuck := false }

/-- The tracker at every reset (R61 to R65, R69), with the class table read from the store. -/
def Tracker.start (inputs : PerLine Bool) (now : W32) (classes : List ClassEntry) : Tracker :=
  { lines := ⟨StripLine.start inputs.aOut now, StripLine.start inputs.aIn now, StripLine.start inputs.bOut now,
      StripLine.start inputs.bIn now⟩
    queue := []
    overrun := false
    crossA := none
    crossB := none
    traverse := none
    number := 0
    armed := none
    classes := classes
    contained := false
    report := ⟨.empty, 0, 0, false⟩ }

/-- No pattern. -/
def Horn.none : Horn := ⟨.off, 0⟩

/-- The lane signals at every reset (R90, R95, R96, R98). -/
def Lane.start : Lane :=
  { stagedA := .red
    stagedB := .red
    stagedHorn := Horn.none
    aspectPending := false
    hornPending := false
    appliedA := .red
    appliedB := .red
    overriding := false
    causes := ⟨false, false, false⟩
    horn := Horn.none
    sounding := false
    half := 0
    toggle := 0
    burst := none
    patternAt := none
    burstStart := none
    burstAt := none
    report :=
      { aspectA := .red
        aspectB := .red
        overriding := false
        causes := ⟨false, false, false⟩
        aspectPending := false
        horn := Horn.none
        sounding := false
        burst := none } }

/-- The link at every reset (R2 to R5): the tick timer starts at the reset. -/
def Link.start (now : W32) : Link :=
  { state := .waiting
    runCount := 0
    timer := false
    lastArrival := none
    lastFrame := none
    cadence := 0
    tickBase := now }

/-- The registers at power-on and pin reset, once the STARTUP record is placed (R112, R113, R105). -/
def Registers.start : Registers :=
  { cause := 0
    enable := 0
    run := false
    restart := false
    refused := none }

/-- The intake at every reset (section 6.4, R108). -/
def Intake.start : Intake :=
  { position := 15
    flight := []
    claim := none }

/-- The engine clock at power-on and pin reset (R117). -/
def EngineClock.start : EngineClock :=
  { time := 0
    isSet := false
    second := 0 }

/-- The visit table with nothing in it (R130, R131, R135). -/
def Visits.start : Visits :=
  { places := List.replicate 64 none
    mark := none
    pass := none }

/-- The ticket issuer with no copy (R137). -/
def Tickets.start : Tickets :=
  { places := List.replicate 16 .empty
    job := none
    recalls := [] }

/-- No notes (R157). -/
def Notes.start : Notes :=
  { firstTraverse := none
    lastTraverse := none
    reports := 0
    firstAudit := none
    lastAudit := none
    audits := 0
    notices := 0
    visits := 0
    clocks := 0 }

/-- The journal at power-on and pin reset, before any record is offered (R160). -/
def Journal.start : Journal :=
  { current := none
    nextFill := 0
    delay := 0
    firstAt := none
    prompt := false
    due := false
    blocked := false
    outbox := []
    owed := false
    owedRestart := false
    notes := Notes.start
    reservation := none
    attention := 0
    nextSequence := 1
    nextSerial := 1
    holding := false
    held := [] }

/-- The session at every reset (R163). -/
def Session.start : Session :=
  { state := .closed
    staged := none
    revision := 0
    tests := []
    provisional := []
    idle := 0
    commit := none
    opens := 0
    stored := false }

/-- The seal line at every reset (R162): SEALED until the fourth sample. -/
def Seal.start : Seal :=
  { state := .sealed
    settled := false }

/-- The audit log with nothing in it (R184). -/
def Audit.start : Audit :=
  { entries := []
    last := 0
    mark := 1
    busy := false }

/-- The pins as the model's reset has them (assumption 8): no strip pressed and the seal loop broken. -/
def Pins.start : Pins :=
  { strips := ⟨false, false, false, false⟩
    sealInput := .sealed }

/-- Words written into a memory, each at its byte offset. -/
def writeWords (m : Memory) : List (Nat × W16) → Memory
  | [] => m
  | (x, w) :: ws => writeWords (Memory.write16 m x w) ws

/-- The exchange memory of a new part after its first power-on: the header and the board of R118, page 0 FILLING,
and on it the STARTUP record (R160, 12.4, 12.5, 12.7). -/
def resetMemory : Memory :=
  writeWords []
    [ (0x00, 0x1068), (0x02, 0x5301), (0x04, 1), (0x08, 1), (0x22, 15), (0x32, 0xFFFF),
      (0x10C, 0x125), (0x14C, 0x125),
      (0x1C00, 1), (0x1C02, 1), (0x1C08, 36),
      (0x1C10, 1), (0x1C12, 9), (0x1C14, 1), (0x1C18, 1), (0x1C1C, 1), (0x1C20, 0x1068), (0x1C22, 0x5301) ]

/-- The part after reset: new from manufacture, its first power-on completed, nothing else done yet
(R118, R183; assumption 8). -/
def State.reset : State :=
  { pending := []
    power := .on
    pins := Pins.start
    clock := 0
    link := Link.start 0
    back := ⟨[], []⟩
    cells := List.replicate 24 Cell.start
    metro := ⟨manufactureSet, 0, false⟩
    chain := Chain.start
    monitor := Monitor.start manufactureSet false
    tracker := Tracker.start Pins.start.strips 0 (List.replicate 16 manufactureClass)
    lane := Lane.start
    mem := resetMemory
    regs := Registers.start
    intake := Intake.start
    site := defaultSite
    time := EngineClock.start
    capture := none
    visits := Visits.start
    tickets := Tickets.start
    journal :=
      { Journal.start with
        current := some 0
        firstAt := some 0
        nextSerial := 2 }
    session := Session.start
    sealLine := Seal.start
    store :=
      { rows := manufactureRows
        counters := { manufactureCounters with bootCount := 1 }
        queue := []
        waiting := [⟨.startUp, [.counters .asTheyStand]⟩]
        retry := false
        latch := false }
    audit := Audit.start
    unfinished := [] }

end Sys2Proof.Machine
end

