-- ==== Sys2Proof/Machine/Ops.lean ====
section
/-! DEFINITION. The named operations over the exchange memory, the registers and the slots that every block shares:
header fields, attention, ownership of words, answers. -/

namespace Sys2Proof.Machine

/-- A word of the exchange memory written by the engine, whose writes are never refused (R99). -/
def State.writeWord (s : State) (x : Nat) (v : W16) : State :=
  { s with mem := s.mem.write16 x v }

/-- A 32-bit field written by the engine: the low word first (R99). -/
def State.writeLong (s : State) (x : Nat) (v : W32) : State :=
  { s with mem := s.mem.write32 x v }

/-- Bytes written by the engine from offset `x` on. -/
def State.writeRun (s : State) (x : Nat) (bs : List Byte) : State :=
  { s with mem := s.mem.writeBytes x bs }

/-- Bytes set to 0 by the engine from offset `x` on. -/
def State.clearRun (s : State) (x n : Nat) : State :=
  { s with mem := s.mem.clearBytes x n }

/-! Header fields (R100, 12.4). -/

/-- Offsets of the header fields (12.4). -/
def hdrIdent : Nat := 0x00
/-- Boot count. -/
def hdrBoot : Nat := 0x04
/-- Start cause. -/
def hdrCause : Nat := 0x08
/-- Clock-set flag. -/
def hdrClockSet : Nat := 0x0A
/-- Engine time. -/
def hdrTime : Nat := 0x0C
/-- Cadence count. -/
def hdrCadence : Nat := 0x10
/-- Link state. -/
def hdrLink : Nat := 0x14
/-- Session state. -/
def hdrSession : Nat := 0x16
/-- Metrology epoch. -/
def hdrEpoch : Nat := 0x18
/-- Last ticket number. -/
def hdrTicket : Nat := 0x1C
/-- Visit count. -/
def hdrVisits : Nat := 0x20
/-- Sweep position. -/
def hdrSweep : Nat := 0x22
/-- Last published page index. -/
def hdrLastPage : Nat := 0x24
/-- Next fill index. -/
def hdrNextFill : Nat := 0x26
/-- Last published page sequence. -/
def hdrLastSequence : Nat := 0x28
/-- Outbox count. -/
def hdrOutbox : Nat := 0x2C
/-- Journal-blocked flag. -/
def hdrBlocked : Nat := 0x2E
/-- Store-fault flag. -/
def hdrStoreFault : Nat := 0x30
/-- Last refused write address. -/
def hdrRefused : Nat := 0x32

/-! Attention (R112). -/

/-- Bit 0, ANSWER. -/
def causeAnswer : W16 := 1
/-- Bit 1, JOURNAL. -/
def causeJournal : W16 := 2
/-- Bit 2, CONDITION. -/
def causeCondition : W16 := 4
/-- Bit 3, PROTOCOL. -/
def causeProtocol : W16 := 8
/-- Bit 4, STORE. -/
def causeStore : W16 := 16

/-- A cause is set in ATTN_CAUSE (R112). -/
def State.setCause (s : State) (c : W16) : State :=
  { s with regs := { s.regs with cause := s.regs.cause ||| c } }

/-- A cause is cleared by the host (R112). -/
def State.clearCause (s : State) (c : W16) : State :=
  { s with regs := { s.regs with cause := s.regs.cause &&& ~~~c } }

/-- ATTN_N is asserted while a set cause is enabled (R112). -/
def State.attention (s : State) : Bool :=
  (s.regs.cause &&& s.regs.enable) != 0

/-- ENGINE_CTRL as the host reads it (12.3). -/
def State.engineCtrl (s : State) : W16 :=
  flagWord [s.regs.run, s.regs.restart]

/-! Host reads (R99, R113): they change nothing and have no command (assumption 29). -/

/-- What a host read of a word of the exchange memory returns: 0 while a power-on or pin reset is held (R99). -/
def State.hostRead (s : State) (a : WordAddr) : W16 :=
  if s.power = .on then s.mem.read16 (2 * a.toNat) else 0

/-- What a host read of a register returns, by the two lowest address lines and the third (12.3). -/
def State.hostReadRegister (s : State) (register : BitVec 2) (third : Bool) : W16 :=
  if s.power = .on then
    match register.toNat with
    | 0 => s.regs.cause
    | 1 => s.regs.enable
    | 2 => s.engineCtrl
    | _ => if third then ident.extractLsb' 16 16 else ident.extractLsb' 0 16
  else 0

/-! Slots (12.5). -/

/-- A slot's state word. -/
def State.slotState (s : State) (k : SlotId) : W16 :=
  s.mem.read16 (slotBase k)

/-- The state word of a page. -/
def State.pageState (s : State) (p : PageId) : W16 :=
  s.mem.read16 (pageBase p)

/-- The word at an offset of a slot's order body. -/
def State.order16 (s : State) (k : SlotId) (x : Nat) : W16 :=
  s.mem.read16 (slotBase k + 16 + x)

/-- The 32-bit field at an offset of a slot's order body. -/
def State.order32 (s : State) (k : SlotId) (x : Nat) : W32 :=
  s.mem.read32 (slotBase k + 16 + x)

/-- Bytes at an offset of a slot's order body. -/
def State.orderBytes (s : State) (k : SlotId) (x n : Nat) : List Byte :=
  s.mem.readBytes (slotBase k + 16 + x) n

/-- A word of the staging area. -/
def State.staging16 (s : State) (x : Nat) : W16 :=
  s.mem.read16 (stagingBase + x)

/-- A 32-bit value of the staging area. -/
def State.staging32 (s : State) (x : Nat) : W32 :=
  s.mem.read32 (stagingBase + x)

/-- The order in flight of a slot. -/
def State.flightOf (s : State) (k : SlotId) : Option Flight :=
  s.intake.flight.find? fun f => f.slot == k

/-- The answer written into the slot (R110): body, length, code and state word, in that order. The order leaves
the orders in flight, the claim it holds on the staging area is released in the same step (R108), and ANSWER is
set. The rest of the answer body is 0 (assumption 15). -/
def State.answer (s : State) (k : SlotId) (code : AnswerCode) (body : List Byte) : State :=
  let written :=
    (((s.writeRun (slotBase k + 0x40) (padTo 64 body)).writeWord (slotBase k + 8) (BitVec.ofNat 16 body.length)).writeWord
      (slotBase k + 6) code.code).writeWord (slotBase k) slotAnswered
  let freed : State :=
    { written with
      intake :=
        { written.intake with
          flight := written.intake.flight.filter fun f => f.slot != k
          claim := if written.intake.claim == some k then none else written.intake.claim } }
  freed.setCause causeAnswer

/-- BAD_PARAM with a parameter, field or entry number (12.6). -/
def State.badParam (s : State) (k : SlotId) (n : Nat) : State :=
  s.answer k .badParam (u16 n)

/-! The refused-address latch and the ownership check (R99, R102 to R105). -/

/-- A refused write: PROTOCOL, and the latch takes the word address if it holds nothing (R105). -/
def State.refuseWrite (s : State) (a : WordAddr) : State :=
  let marked := s.setCause causeProtocol
  match marked.regs.refused with
  | some _ => marked
  | none =>
    ({ marked with regs := { marked.regs with refused := some a } } : State).writeWord hdrRefused (a.setWidth 16)

/-- The region of the memory map in which a byte offset falls (section 6.1), with the structure and the offset
in it. -/
inductive Region where
  | header
  | board
  | slot (k : SlotId) (offset : Nat)
  | staging
  | page (p : PageId) (offset : Nat)
  deriving DecidableEq, Repr

/-- The region of a byte offset (section 6.1). -/
def regionOf (x : Nat) : Region :=
  if x < 0x100 then .header
  else if x < 0x400 then .board
  else if x < 0xC00 then .slot (Fin.ofNat 16 ((x - 0x400) / 128)) ((x - 0x400) % 128)
  else if x < 0x1C00 then .staging
  else .page (Fin.ofNat 100 ((x - 0x1C00) / 256)) ((x - 0x1C00) % 256)

/-- What the ownership check makes of a host write. -/
inductive Judgement where
  | stored
  | discarded
  | refused
  deriving DecidableEq, Repr

/-- The state-word transitions of a slot (R102). -/
def judgeSlotState (state value : W16) : Judgement :=
  if state = slotEmpty ∧ value = slotPosted then .stored
  else if state = slotEmpty ∧ value = slotEmpty then .stored
  else if state = slotAnswered ∧ value = slotEmpty then .stored
  else if state = slotTaken ∧ value = slotWithdraw then .stored
  else if state = slotWithdraw ∧ value = slotWithdraw then .discarded
  else if state = slotAnswered ∧ value = slotWithdraw then .discarded
  else .refused

/-- The ownership check of a host write (R102, R103, R104). -/
def State.judgeWrite (s : State) (x : Nat) (v : W16) : Judgement :=
  match regionOf x with
  | .header => .refused
  | .board => .refused
  | .slot k o =>
    if o = 0 then judgeSlotState (s.slotState k) v
    else if o < 64 then (if s.slotState k = slotEmpty then .stored else .refused)
    else .refused
  | .staging => if s.intake.claim.isNone then .stored else .refused
  | .page p o =>
    if o = 0 ∧ s.pageState p = pagePublished ∧ v = pageReturned then .stored else .refused

end Sys2Proof.Machine
end

