-- ==== Sys2Proof/Machine/Journal.lean ====
section
/-! DEFINITION. The journal (chapter 9): placing, opening, publishing, the outbox, drains, reservations and the
publish delay. The pages stand in the exchange memory. -/

namespace Sys2Proof.Machine

/-- The body of a page (R149). -/
def pageRoom : Nat := 240

/-- A record's length in bytes: the head and the serial, then the content (R150). -/
def Record.length (r : Record) : Nat :=
  8 + r.content.length

/-- A record as it stands on a page, with its serial (R150, 12.7). -/
def Record.bytes (r : Record) (serial : W32) : List Byte :=
  u16 r.kind.code ++ u16 (r.length / 4) ++ bytes32 serial ++ r.content

/-- Bytes used on a page (12.5). -/
def State.pageUsed (s : State) (p : PageId) : Nat :=
  (s.mem.read16 (pageBase p + 8)).toNat

/-- The record count of a page (12.5). -/
def State.pageCount (s : State) (p : PageId) : Nat :=
  (s.mem.read16 (pageBase p + 2)).toNat

/-- The room a page has left (R151). -/
def State.pageLeft (s : State) (p : PageId) : Nat :=
  pageRoom - s.pageUsed p

/-- The page that follows in index order (R151). -/
def nextPage (p : PageId) : PageId :=
  if p.val = 99 then 0 else Fin.ofNat 100 (p.val + 1)

/-- The outbox replaced, with the header's count (R100). -/
def State.setOutbox (s : State) (rs : List Record) : State :=
  ({ s with journal := { s.journal with outbox := rs } } : State).writeWord hdrOutbox (BitVec.ofNat 16 rs.length)

/-- Opening the page at the next fill index (R151), or blocking on it. -/
def State.openPage (s : State) : State :=
  let p := s.journal.nextFill
  if s.pageState p = pagePublished then
    ({ s with journal := { s.journal with current := none, blocked := true } } : State).writeWord hdrBlocked 1
  else
    let cleared := (s.clearRun (pageBase p) 256).writeWord (pageBase p) pageFilling
    ({ cleared with
        journal := { cleared.journal with current := some p, delay := 0, prompt := false, blocked := false } } :
      State).writeWord hdrBlocked 0

/-- JOURNAL attention is judged at a publication (R154): the count is raised, and the cause set for a page that
holds a prompt record or once the count reaches the attention page count. -/
def State.judgeAttention (s : State) : State :=
  let n := raiseTo65535 s.journal.attention
  let counted : State := { s with journal := { s.journal with attention := n } }
  if s.journal.prompt || decide (s.site.attentionPages ≤ n) then counted.setCause causeJournal else counted

/-- Publication of the current page (R152): its sequence, its state word last, the header, attention, and filling
moves on. -/
def State.publish (s : State) : State :=
  match s.journal.current with
  | none => s
  | some p =>
    let q := s.journal.nextSequence
    let numbered : State :=
      { s.writeLong (pageBase p + 4) q with journal := { s.journal with nextSequence := nextSerial q } }
    let offered := numbered.writeWord (pageBase p) pagePublished
    let shown := (offered.writeWord hdrLastPage (BitVec.ofNat 16 p.val)).writeLong hdrLastSequence q
    let judged := shown.judgeAttention
    let moved : State := { judged with journal := { judged.journal with nextFill := nextPage judged.journal.nextFill } }
    (moved.writeWord hdrNextFill (BitVec.ofNat 16 (nextPage s.journal.nextFill).val)).openPage

/-- Placing a record on the current page (R150): the body, the serial, then bytes used and the record count. -/
def State.placeOn (s : State) (p : PageId) (r : Record) : State :=
  let used := s.pageUsed p
  let count := s.pageCount p
  let written := s.writeRun (pageBody p + used) (r.bytes s.journal.nextSerial)
  let counted :=
    (written.writeWord (pageBase p + 8) (BitVec.ofNat 16 (used + r.length))).writeWord (pageBase p + 2)
      (BitVec.ofNat 16 (count + 1))
  { counted with
    journal :=
      { counted.journal with
        nextSerial := nextSerial counted.journal.nextSerial
        prompt := counted.journal.prompt || r.kind.prompt
        firstAt := if count = 0 then some counted.link.cadence else counted.journal.firstAt } }

/-- A record noted as lost, and a summary owed (R156). -/
def Notes.drop (n : Notes) (r : Record) : Notes :=
  match r.kind with
  | .axleReport =>
    { n with
      firstTraverse := some (n.firstTraverse.getD r.key)
      lastTraverse := some r.key
      reports := raiseTo65535 n.reports }
  | .audit =>
    { n with
      firstAudit := some (n.firstAudit.getD r.key)
      lastAudit := some r.key
      audits := raiseTo65535 n.audits }
  | .visitVoided | .visitExpired => { n with visits := raiseTo65535 n.visits }
  | .clockSet => { n with clocks := raiseTo65535 n.clocks }
  | .condition | .startup => { n with notices := raiseTo65535 n.notices }
  | .weighRecord | .ticket | .duplicate | .summary => n

/-- A record is dropped (R156). -/
def State.dropRecord (s : State) (r : Record) : State :=
  { s with journal := { s.journal with owed := true, notes := s.journal.notes.drop r } }

/-- A record that must be queued joins the outbox or is dropped (R156). -/
def State.queueRecord (s : State) (r : Record) : State :=
  let n := s.journal.outbox.length
  if n < 16 ∨ (n < 24 ∧ r.kind = .audit) then s.setOutbox (s.journal.outbox ++ [r]) else s.dropRecord r

/-- A record fits the current page, leaving `kept` bytes. -/
def State.fits (s : State) (p : PageId) (r : Record) (kept : Nat) : Bool :=
  decide (r.length + kept ≤ s.pageLeft p)

/-- A record offered to the journal (R151, R152, R156, R159), no start-up holding it back. -/
def State.offer (s : State) (r : Record) : State :=
  match s.journal.reservation with
  | some res =>
    match s.journal.current with
    | some p =>
      if s.fits p r res.length && s.journal.outbox.isEmpty then
        let placed := s.placeOn p r
        if r.kind.prompt then { placed with journal := { placed.journal with due := true } } else placed
      else s.queueRecord r
    | none => s.queueRecord r
  | none =>
    if s.journal.blocked || !s.journal.outbox.isEmpty then s.queueRecord r
    else
      let ready := if s.journal.current.isNone then s.openPage else s
      match ready.journal.current with
      | none => ready.queueRecord r
      | some p =>
        if ready.fits p r 0 then
          let placed := ready.placeOn p r
          if r.kind.prompt then placed.publish else placed
        else
          let moved := ready.publish
          match moved.journal.current with
          | none => moved.queueRecord r
          | some q =>
            let placed := moved.placeOn q r
            if r.kind.prompt then placed.publish else placed

/-- A record reaches the journal; one that arises during a start-up is held until after the STARTUP record
(R160). -/
def State.record (s : State) (r : Record) : State :=
  if s.journal.holding then { s with journal := { s.journal with held := s.journal.held ++ [r] } } else s.offer r

/-- The flag set of the platform as it stands (R45). -/
def State.platformFlags (s : State) : DeckFlags :=
  let d := s.monitor.decks
  let u := ((d.d0.flags.union d.d1.flags).union d.d2.flags).union d.d3.flags
  { u with overload := u.overload || s.chain.overload }

/-- The SUMMARY record, with the snapshot of the moment of placing (R157, 12.7). -/
def State.summaryRecord (s : State) : Record :=
  let n := s.journal.notes
  let d := s.monitor.decks
  { kind := .summary
    key := 0
    content :=
      bytes32 (orZero n.firstTraverse) ++ bytes32 (orZero n.lastTraverse) ++ u16 n.reports
        ++ bytes32 (orZero n.firstAudit) ++ bytes32 (orZero n.lastAudit) ++ u16 n.audits
        ++ u16 n.notices ++ u16 n.visits ++ u16 n.clocks ++ u16 (bit s.journal.owedRestart)
        ++ u16 s.link.state.code ++ u16 s.session.state.code
        ++ s.cells.map (fun c => BitVec.ofNat 8 c.state.code)
        ++ bytes16 d.d0.flags.word ++ bytes16 d.d1.flags.word ++ bytes16 d.d2.flags.word ++ bytes16 d.d3.flags.word
        ++ bytes16 s.platformFlags.word ++ u16 0
        ++ s.mem.readBytes hdrTime 4 ++ s.mem.readBytes hdrCadence 4 ++ s.mem.readBytes hdrBoot 4
        ++ s.mem.readBytes hdrTicket 4 ++ s.mem.readBytes hdrEpoch 4 }

/-- The owed SUMMARY is placed if room allows, moving off a page it does not fit (R155, step 1; R157). -/
def State.placeSummary (s : State) : State :=
  match s.journal.current with
  | none => s
  | some p =>
    let ready := if s.fits p s.summaryRecord 0 then s else s.publish
    match ready.journal.current with
    | none => ready
    | some q =>
      let placed := ready.placeOn q ready.summaryRecord
      { placed with
        journal := { placed.journal with notes := Notes.start, owed := false, owedRestart := false } }

/-- The outbox's records offered one at a time, oldest first, until the journal blocks (R155, step 2). -/
def State.drainOutbox (s : State) : List Record → State
  | [] => s
  | r :: rest =>
    match s.journal.current with
    | none => s
    | some p =>
      let ready := if s.fits p r 0 then s else s.publish
      match ready.journal.current with
      | none => ready
      | some q => ((ready.placeOn q r).setOutbox rest).drainOutbox rest

/-- The prompt and delay conditions, judged when a drain stops (R155). -/
def State.judgePage (s : State) : State :=
  match s.journal.current with
  | none => s
  | some p =>
    if s.journal.prompt || (decide (s.pageCount p ≠ 0) && decide (s.site.publishDelay ≤ s.journal.delay)) then
      s.publish
    else s

/-- A drain (R155). -/
def State.drain (s : State) : State :=
  if s.journal.blocked || s.journal.reservation.isSome then s
  else if s.journal.owed || !s.journal.outbox.isEmpty then
    let first := if s.journal.owed then s.placeSummary else s
    let rest := if first.journal.blocked then first else first.drainOutbox first.journal.outbox
    rest.judgePage
  else s

/-! Reservations (R158, R159). -/

/-- The greatest length of a record of a reserved kind (R158). -/
def reservedLength : RecordKind → Nat
  | .weighRecord => 48
  | .ticket => 228
  | .duplicate => 236
  | _ => 240

/-- A request for a reservation (R158): the state with it granted, or none where it is refused. -/
def State.reserve (s : State) (k : RecordKind) : Option State :=
  let n := reservedLength k
  let hold := fun (t : State) => ({ t with journal := { t.journal with reservation := some ⟨k, n⟩ } } : State)
  if s.journal.reservation.isSome || s.journal.blocked || !s.journal.outbox.isEmpty || s.journal.owed then none
  else
    match s.journal.current with
    | none => none
    | some p =>
      if n ≤ s.pageLeft p then some (hold s)
      else if s.pageState (nextPage p) = pageFree ∨ s.pageState (nextPage p) = pageReturned then
        some (hold s.publish)
      else none

/-- The reservation is absent and nothing is due. -/
def State.endReservation (s : State) : State :=
  { s with journal := { s.journal with reservation := none, due := false } }

/-- A reserved record is placed (R159): the page is published in the same step, and the journal drains. It is placed
at its event also where an engine restart finishes its job (R141, R179); only records without a reservation are held
for the STARTUP record then (R160, assumption 36). -/
def State.placeReserved (s : State) (r : Record) : State :=
  match s.journal.current with
  | none => s.endReservation.drain
  | some p => (s.endReservation.placeOn p r).publish.drain

/-- A reservation is released (R159): a page that is due and holds a record is published, and the journal
drains. -/
def State.releaseReservation (s : State) : State :=
  let ended := s.endReservation
  match s.journal.reservation, s.journal.current with
  | some _, some p => (if s.journal.due && decide (s.pageCount p ≠ 0) then ended.publish else ended).drain
  | _, _ => s

/-! The publish delay (R153). -/

/-- PUBLISH_DELAY: the page is published, or marked due while a reservation is held (R153, R159). -/
def State.publishByDelay (s : State) : State :=
  if s.journal.reservation.isSome then { s with journal := { s.journal with due := true } } else s.publish

/-- The journal counts a cadence event, one more since the first record of the current page and beginning with the
event after it was placed (R153). PUBLISH_DELAY follows it. -/
def State.countDelay (s : State) : State :=
  match s.journal.current with
  | none => s
  | some p =>
    if s.pageCount p = 0 then s
    else
      let n := if s.journal.firstAt = some s.link.cadence then s.journal.delay else s.journal.delay + 1
      { s with journal := { s.journal with delay := n, firstAt := none } }

/-- PUBLISH_DELAY is due at a cadence event: the page holds a record and its count has reached the publish delay
(R153). -/
def State.delayReached (s : State) : Bool :=
  match s.journal.current with
  | none => false
  | some p => decide (s.pageCount p ≠ 0) && decide (s.site.publishDelay ≤ s.journal.delay)

/-- A page is returned (R104, R155): a blocked journal that waits for it opens it and drains. -/
def State.returnPage (s : State) (p : PageId) : State :=
  let returned := s.writeWord (pageBase p) pageReturned
  if returned.journal.blocked && returned.journal.nextFill == p then returned.openPage.drain else returned

/-! Records of more than one block. -/

/-- The subjects of condition notices (12.7). -/
inductive Subject where
  | link | cell | zeroLimit | stripStuck | sealLine | siteDefaulted
  deriving DecidableEq, Repr

/-- The codes of subjects (12.7). -/
def Subject.code : Subject → Nat
  | .link => 1
  | .cell => 2
  | .zeroLimit => 3
  | .stripStuck => 4
  | .sealLine => 5
  | .siteDefaulted => 6

/-- A condition notice: subject, item, new state and detail, and for ZERO_LIMIT two further values (12.7). -/
def conditionRecord (subject : Subject) (item newState : Nat) (detail : W32) (more : List Byte) : Record :=
  { kind := .condition
    key := 0
    content := u8 subject.code ++ u8 item ++ u16 newState ++ bytes32 detail ++ more }

/-- A condition notice is offered to the journal, and CONDITION is raised at that moment (R150, R112). -/
def State.notice (s : State) (subject : Subject) (item newState : Nat) (detail : W32) (more : List Byte) : State :=
  (s.setCause causeCondition).record (conditionRecord subject item newState detail more)

end Sys2Proof.Machine
end

