-- ==== Sys2Proof/Machine/Audit.lean ====
section
/-! DEFINITION. Store jobs as they are requested (R179) and the audit log (R184, R185). -/

namespace Sys2Proof.Machine

/-- A store job is requested: it waits until the queue has room for all of its rows (R179, assumption 31). -/
def State.requestJob (s : State) (kind : JobKind) (rows : List RowWrite) : State :=
  { s with store := { s.store with waiting := s.store.waiting ++ [⟨kind, rows⟩] } }

/-- The detail of an audit entry, the content of its AUDIT record and the COPY mark (12.7). -/
def AuditEntry.content (e : AuditEntry) (copy : Bool) : List Byte :=
  bytes32 e.serial ++ bytes32 e.epoch ++ bytes32 e.time ++ u8 e.kind.code
    ++ u8 (bitsNat [e.clockSet, copy]) ++ u16 e.detail.length ++ e.detail

/-- The AUDIT record of an entry, carried whole (R184); a copy is marked COPY (R185). -/
def auditRecord (e : AuditEntry) (copy : Bool) : Record :=
  { kind := .audit
    key := e.serial
    content := e.content copy }

/-- The log requests the job of the entry at the write mark whenever the latch is clear and it has no job (R184).
A mark whose entry has left the working copy stands on the oldest entry held (assumption 26). -/
def State.auditPump (s : State) : State :=
  if s.store.latch || s.audit.busy then s
  else
    let job := fun (e : AuditEntry) =>
      ({ s with audit := { s.audit with mark := e.serial, busy := true } } : State).requestJob (.auditRow e.serial)
        [.audit e]
    match s.audit.entries.find? fun e => e.serial == s.audit.mark with
    | some e => job e
    | none =>
      if s.audit.mark = nextSerial s.audit.last then s
      else
        match s.audit.entries.head? with
        | some e => job e
        | none => s

/-- An entry joins the working copy; when 128 are held, the one with the lowest serial leaves (R184). -/
def joinEntries (es : List AuditEntry) (e : AuditEntry) : List AuditEntry :=
  (if 128 ≤ es.length then es.drop 1 else es) ++ [e]

/-- A block writes an entry (R184): the serial, the working copy, then the AUDIT record. The epoch is the retained
one (assumption 34). -/
def State.writeAudit (s : State) (kind : AuditKind) (detail : List Byte) : State :=
  let e : AuditEntry :=
    { serial := nextSerial s.audit.last
      epoch := s.store.counters.epoch
      time := s.time.time
      clockSet := s.time.isSet
      kind := kind
      detail := detail }
  let joined : State := { s with audit := { s.audit with entries := joinEntries s.audit.entries e, last := e.serial } }
  (joined.record (auditRecord e false)).auditPump

/-- The copies that READ_AUDIT offers: entries from a serial onward, up to a count and up to the newest (R185). Where
the serials of the working copy have a gap, the count is one of entries held (assumption 60). -/
def auditCopies (es : List AuditEntry) (first : W32) (count : Nat) : List AuditEntry :=
  (es.dropWhile fun e => e.serial != first).take count

/-- READ_AUDIT, judged in the sweep that takes it (R185). -/
def State.readAudit (s : State) (k : SlotId) : State :=
  let first := s.order32 k 0
  let count := (s.order16 k 4).toNat
  if !(s.audit.entries.any fun e => e.serial == first) then s.answer k .notFound []
  else if s.journal.blocked || !s.journal.outbox.isEmpty || s.journal.reservation.isSome then
    s.answer k .journalFull []
  else
    let copies := auditCopies s.audit.entries first count
    let offered := copies.foldl (fun t e => t.record (auditRecord e true)) s
    offered.answer k .done (u16 copies.length ++ bytes32 ((copies.getLast?.map (·.serial)).getD first))

end Sys2Proof.Machine
end

