-- ==== Sys2Proof/Machine/Chain.lean ====
section
/-! DEFINITION. The weighing chain (chapter 2) and the stability window (R47, R48): one computation from the counts
the supervisor hands over, filter restarts, and the evaluation of a given set (R43). -/

namespace Sys2Proof.Machine

/-- A cell of the supervisor. -/
def State.cell (s : State) (c : CellId) : Cell :=
  s.cells.getD c.val Cell.start

/-- A cell replaced. -/
def State.setCell (s : State) (c : CellId) (x : Cell) : State :=
  { s with cells := s.cells.set c.val x }

/-- The flags of a deck replaced by a function of them; a deck that is not enabled carries no flag, whatever is
asked for it (R44). -/
def State.mapFlags (s : State) (d : DeckId) (f : DeckFlags → DeckFlags) : State :=
  if s.metro.active.isEnabled d then
    let m := s.monitor.decks.get d
    { s with monitor := { s.monitor with decks := s.monitor.decks.set d { m with flags := f m.flags } } }
  else s

/-- The flags of a deck. -/
def State.flagsOf (s : State) (d : DeckId) : DeckFlags :=
  (s.monitor.decks.get d).flags

/-- Every cell's thing computed from its number and what it was. -/
def mapCells {α : Type} (l : List α) (absent : α) (f : CellId → α → α) : List α :=
  allCells.map fun c => f c (l.getD c.val absent)

/-! Filter and window restarts. -/

/-- A filter restart of one deck (R32) with the window restart it brings (R48). -/
def State.restartFilter (s : State) (d : DeckId) : State :=
  let dc := s.chain.decks.get d
  let emptied := { dc with history := [], fill := 0, running := 0 }
  let cells := mapCells s.chain.cells CellChain.start fun c x =>
    if s.metro.active.deckOf c = some d then { x with history := [], sum := 0 } else x
  let m := s.monitor.decks.get d
  let restarted : State :=
    { s with
      chain := { s.chain with decks := s.chain.decks.set d emptied, cells := cells }
      monitor := { s.monitor with decks := s.monitor.decks.set d { m with window := [], fill := 0 } } }
  restarted.mapFlags d fun f => { f with filling := true, motion := true }

/-- The filter of every enabled deck restarts (R8, R42). -/
def State.restartFilters (s : State) : State :=
  s.metro.active.decks.foldl State.restartFilter s

/-! One computation (R24). -/

/-- The raw count the supervisor hands the chain for a cell, if any (R13, R14, R16, R17): the frame's count or the
last good count of an ACTIVE cell, 0 where there is none, and the held count of a FAULTED or RECOVERED one. A cell
released at this cadence event is still handed its held count (R18, R33). -/
def State.handed (s : State) (c : CellId) : Option Int :=
  let x := s.cell c
  match x.state with
  | .unfitted => none
  | .active => if x.released then some x.held else some (x.lastGood.getD 0)
  | .faulted => some x.held
  | .recovered => some x.held

/-- The corrected value before it saturates (R27). -/
def corrected (m : MetroSet) (c : CellId) (count : Int) : Int :=
  roundDiv ((count - m.get 2 c.val) * m.get 3 c.val) 65536

/-- The end of the range at which a corrected value saturates (R28). -/
def cellRange : Int := 8388607

/-- A corrected value that has saturated (R28). -/
def saturates (a : Int) : Bool :=
  decide (a < -cellRange) || decide (cellRange < a)

/-- A value enters a history that holds at most `n` (R29, R31, R47). -/
def enterHistory (n : Nat) (h : List Int) (v : Int) : List Int :=
  if n ≤ h.length then h.drop 1 ++ [v] else h ++ [v]

/-- The exact sum of a history after a value has entered it (R29, R31). -/
def enterSum (n : Nat) (h : List Int) (total v : Int) : Int :=
  if n ≤ h.length then total + v - h.headD 0 else total + v

/-- Stages 1 of the chain for one cell (R27, R28, R29). -/
def State.computeCell (s : State) (c : CellId) (x : CellChain) : CellChain :=
  let cleared := { x with saturated := false }
  match s.metro.active.fittedTo c, s.handed c with
  | some d, some count =>
    let a := corrected s.metro.active c count
    let n := s.metro.active.lengthOf d
    { a := clamp (-cellRange) cellRange a
      saturated := saturates a
      history := enterHistory n x.history count
      sum := enterSum n x.history x.sum count }
  | _, _ => cleared

/-- The linearity correction from the point (x0, y0) on (R35). -/
def linearFrom (x0 y0 m : Int) : List (Int × Int) → Int
  | [] => y0
  | (x1, y1) :: ps =>
    if m ≤ x1 then roundDiv (y0 * (x1 - x0) + (y1 - y0) * (m - x0)) (x1 - x0) else linearFrom x1 y1 m ps

/-- The linearity correction h(m) (R35). -/
def linearity (ps : List (Int × Int)) (m : Int) : Int :=
  if m ≤ 0 then 0 else linearFrom 0 0 m ps

/-- The end of the range of masses and platform gross values (R34, R39). -/
def massRange : Int := 2000000000

/-- Stage 4 (R34). -/
def massOf (m : MetroSet) (d : DeckId) (filtered : Int) : Int :=
  clamp (-massRange) massRange (roundDiv (filtered * m.get 5 d.val) 65536)

/-- Stage 5 (R35). -/
def correctedMass (m : MetroSet) (d : DeckId) (mass : Int) : Int :=
  mass + linearity (m.pointsOf d) mass

/-- The fine step e/10 (R37). -/
def fineStep (m : MetroSet) : Int := m.e / 10

/-- Stages 2 to 7 of the chain for one deck (R30 to R37), from the corrected values of its cells. -/
def computeDeck (m : MetroSet) (cells : List CellChain) (d : DeckId) (zero : Int) (x : DeckChain) : DeckChain :=
  let total := ((m.cellsOf d).map fun c => (cells.getD c.val CellChain.start).a).sum
  let n := m.lengthOf d
  let running := enterSum n x.history x.running total
  let fill := if x.fill < n then x.fill + 1 else x.fill
  let filtered := roundDiv running fill
  let mass := massOf m d filtered
  let net := correctedMass m d mass
  let gross := net - zero
  { deckSum := total
    filtered := filtered
    mass := mass
    corrected := net
    gross := gross
    legal := roundTo gross m.e
    fine := roundTo gross (fineStep m)
    history := enterHistory n x.history total
    fill := fill
    running := running }

/-- The OVER test of a deck (R28, R38). -/
def deckOver (m : MetroSet) (cells : List CellChain) (d : DeckId) (gross : Int) : Bool :=
  decide (m.maxOf d + 9 * m.e < gross) || (m.cellsOf d).any fun c => (cells.getD c.val CellChain.start).saturated

/-- The UNDER test of a deck (R38). -/
def deckUnder (m : MetroSet) (gross : Int) : Bool :=
  decide (gross < -20 * m.e)

/-- The platform capacity Max_p (R40). -/
def MetroSet.platformMax (m : MetroSet) : Int :=
  (m.decks.map m.maxOf).sum

/-- The largest value held minus the smallest (R47). -/
def spread (h : List Int) : Int :=
  h.foldl max (h.headD 0) - h.foldl min (h.headD 0)

/-- The stability window of a deck after a computation (R47): the fine value enters, and MOTION is judged. -/
def DeckMonitor.enterWindow (x : DeckMonitor) (m : MetroSet) (d : DeckId) (fine : Int) : DeckMonitor :=
  let n := m.windowOf d
  let window := enterHistory n x.window fine
  let fill := if x.fill < n then x.fill + 1 else x.fill
  { x with
    window := window
    fill := fill
    flags := { x.flags with motion := decide (fill < n) || decide (m.e < spread window) } }

/-- FILTER_FILLED is due: a deck whose filter holds L_d values carries FILLING (R31). -/
def State.filledDue (s : State) (d : DeckId) : Bool :=
  s.metro.active.isEnabled d && (s.flagsOf d).filling
    && decide ((s.chain.decks.get d).fill = s.metro.active.lengthOf d)

/-- FILTER_FILLED (R31): FILLING is cleared. The first time after a reset, the start-up zero watch takes note of
the computation (R50). R33 says of a restart and a computation at one cadence event that in either order the deck
then carries FILLING; with L_d = 1 and the restart first, R31's own clause for that length is followed and FILLING is
cleared (assumption 44). -/
def State.filterFilled (s : State) (d : DeckId) : State :=
  if s.filledDue d then
    let cleared := s.mapFlags d fun f => { f with filling := false }
    let m := cleared.monitor.decks.get d
    let watch :=
      match m.watch with
      | .notStarted none => .notStarted (some cleared.link.cadence)
      | w => w
    { cleared with monitor := { cleared.monitor with decks := cleared.monitor.decks.set d { m with watch := watch } } }
  else s

/-- One computation of the chain and the work of the stability windows that follows it (R24, R41, R47). -/
def State.computeChain (s : State) : State :=
  let m := s.metro.active
  let cells := mapCells s.chain.cells CellChain.start s.computeCell
  let deck := fun (d : DeckId) (x : DeckChain) =>
    if m.isEnabled d then computeDeck m cells d (s.monitor.decks.get d).zero x else x
  let decks := s.chain.decks.map deck
  let gross := clamp (-massRange) massRange ((m.decks.map fun d => (decks.get d).gross).sum)
  let watched := fun (d : DeckId) (x : DeckMonitor) =>
    if m.isEnabled d then
      let entered := x.enterWindow m d (decks.get d).fine
      { entered with
        zeroed := false
        flags :=
          { entered.flags with
            overload := deckOver m cells d (decks.get d).gross
            under := deckUnder m (decks.get d).gross } }
    else x
  { s with
    chain :=
      { cells := cells
        decks := decks
        gross := gross
        legal := roundTo gross m.e
        fine := roundTo gross (fineStep m)
        overload := decide (m.platformMax + 9 * m.e < gross) }
    monitor := { s.monitor with decks := s.monitor.decks.map watched } }

/-! The evaluation of a given set on the current raw means (R43). -/

/-- The raw mean of a cell, absent while its history is empty (R29). -/
def CellChain.mean (x : CellChain) : Option Int :=
  if x.history.isEmpty then none else some (roundDiv x.sum x.history.length)

/-- What an evaluation gives for one deck. -/
structure Evaluation where
  deckSum : Int
  gross : Int
  fine : Int
  deriving DecidableEq, Repr

/-- The evaluated deck sum, from the means of the deck's mapped cells (R43). -/
def evaluateSum (m : MetroSet) (means : CellId → Int) (d : DeckId) : Int :=
  ((m.cellsOf d).map fun c => clamp (-cellRange) cellRange (corrected m c (means c))).sum

/-- The evaluated deck (R43): the filter is skipped, and the zero is the evaluated set's Z_cal_d. -/
def evaluateDeck (m : MetroSet) (means : CellId → Int) (d : DeckId) : Evaluation :=
  let total := evaluateSum m means d
  let gross := correctedMass m d (massOf m d total) - m.zcalOf d
  { deckSum := total
    gross := gross
    fine := roundTo gross (fineStep m) }

/-- The lowest-numbered cell of the decks that saturates in an evaluation (R43, R168). -/
def evaluateSaturated (m : MetroSet) (means : CellId → Int) (ds : List DeckId) : Option CellId :=
  allCells.find? fun c =>
    match m.deckOf c with
    | some d => decide (d ∈ ds) && saturates (corrected m c (means c))
    | none => false

/-- The evaluated platform fine value over the decks requested (R43, R39). -/
def evaluatePlatform (m : MetroSet) (means : CellId → Int) (ds : List DeckId) : Int :=
  roundTo (clamp (-massRange) massRange ((ds.map fun d => (evaluateDeck m means d).gross).sum)) (fineStep m)

end Sys2Proof.Machine
end

