-- ==== Sys2Proof/Machine/Supervisor.lean ====
section
/-! DEFINITION. The cell supervisor (R12 to R20) and the back-channel (R15): the examination of statuses, faults,
recoveries, restart requests, CLEAR_CELL. -/

namespace Sys2Proof.Machine

/-- A deck number in a detail byte; a cell mapped to no deck shows 4, the cell map's code for unused. -/
def deckByte (d : Option DeckId) : Nat :=
  match d with
  | some d => d.val
  | none => 4

/-- A cell of the deck is FAULTED or RECOVERED (R19). -/
def State.deckDegraded (s : State) (d : DeckId) : Bool :=
  (s.metro.active.cellsOf d).any fun c => (s.cell c).state == .faulted || (s.cell c).state == .recovered

/-- DEGRADED is recalculated for a deck (R19). -/
def State.judgeDegraded (s : State) (d : DeckId) : State :=
  s.mapFlags d fun f => { f with degraded := s.deckDegraded d }

/-- A channel restart is requested (R15): a cell is never in the queue twice. -/
def State.requestRestart (s : State) (c : CellId) : State :=
  if s.back.queue.contains c then s else { s with back := { s.back with queue := s.back.queue ++ [c] } }

/-- A condition notice for a cell, giving its state (R12, R14, R16, R18). -/
def State.cellNotice (s : State) (c : CellId) : State :=
  s.notice .cell c.val (s.cell c).state.code 0 []

/-- CELL_FAULT is due: the fault run of an ACTIVE cell has reached 20, or a RECOVERED cell has reported a bad
status (R13, R14, R17). The fault run of a RECOVERED cell stands for that bad status, and CELL_FAULT follows at once. -/
def State.faultDue (s : State) (c : CellId) : Bool :=
  let x := s.cell c
  (x.state == .active && decide (20 ≤ x.faultRun)) || (x.state == .recovered && decide (1 ≤ x.faultRun))

/-- RESTART_DUE is due: 400 cadence events after the last restart of a FAULTED cell with a restart count below 3
(R15). -/
def State.restartDue (s : State) (c : CellId) : Bool :=
  let x := s.cell c
  match x.lastRestart with
  | some n =>
    x.state == .faulted && decide (x.restarts < 3) && s.link.cadence == n + 400 && !s.back.queue.contains c
  | none => false

/-- The status that the last frame gives a cell. -/
def State.frameStatus (s : State) (c : CellId) : CellStatus :=
  match s.link.lastFrame with
  | some f => (f.cells.getD c.val (0, .notFitted)).2
  | none => .notFitted

/-- The last frame number (R2). -/
def State.frameNumber (s : State) : Nat :=
  match s.link.lastFrame with
  | some f => f.number.toNat
  | none => 0xFFFF

/-- CELL_FAULT (R14): the held count, the counts, DEGRADED, the audit entry, the notice and the restart request.
The held count is the last good count before the run, also one that CLEAR_CELL has left (R18); R14 says both that and,
where no GOOD status has come since the cell became ACTIVE, 0 with no prior value (assumption 43). -/
def State.faultCell (s : State) (c : CellId) : State :=
  let x := s.cell c
  let fromActive := x.state == .active
  let faulted : Cell :=
    { x with
      state := .faulted
      faultRun := 0
      recovery := 0
      held := if fromActive then x.lastGood.getD 0 else x.held
      prior := if fromActive then x.lastGood.isSome else x.prior
      restarts := if fromActive then 0 else x.restarts }
  let fixed := s.setCell c faulted
  let deck := s.metro.active.fittedTo c
  let degraded :=
    match deck with
    | some d => fixed.mapFlags d fun f => { f with degraded := true }
    | none => fixed
  let written :=
    degraded.writeAudit .cellFault
      (u8 c.val ++ u8 (deckByte deck) ++ u8 (s.frameStatus c).code ++ u8 s.frameNumber ++ u8 x.state.code
        ++ u8 (bit faulted.prior) ++ u8 0 ++ u8 0)
  let noticed := written.cellNotice c
  if fromActive || decide (x.restarts < 3) then noticed.requestRestart c else noticed

/-- CELL_RECOVERED is due: the recovery count of a FAULTED cell has reached 400 (R16). -/
def State.recoveryDue (s : State) (c : CellId) : Bool :=
  let x := s.cell c
  x.state == .faulted && decide (400 ≤ x.recovery)

/-- CELL_RECOVERED (R16). -/
def State.recoverCell (s : State) (c : CellId) : State :=
  (s.setCell c { s.cell c with state := .recovered, recovery := 0 }).cellNotice c

/-- The examination of one status at a frame cadence event (R13, R16, R17); an UNFITTED cell is ignored (R12). -/
def examineStatus (x : Cell) (count : Int) (status : CellStatus) : Cell :=
  let good := status == .good
  match x.state with
  | .unfitted => x
  | .active => if good then { x with faultRun := 0, lastGood := some count } else { x with faultRun := x.faultRun + 1 }
  | .faulted =>
    if good then { x with recovery := x.recovery + 1, lastGood := some count } else { x with recovery := 0 }
  | .recovered => if good then { x with lastGood := some count } else { x with faultRun := 1 }

/-- The count that the last frame gives a cell. -/
def State.frameCount (s : State) (c : CellId) : Int :=
  match s.link.lastFrame with
  | some f => (f.cells.getD c.val (0, .notFitted)).1
  | none => 0

/-- The supervisor's examination of one cell at a frame cadence event (R13, R16, R17). -/
def State.examineCell (s : State) (c : CellId) : State :=
  s.setCell c (examineStatus (s.cell c) (s.frameCount c) (s.frameStatus c))

/-! The back-channel (R15, R187). -/

/-- The bytes of a CHANNEL_RESTART (12.2). -/
def restartBytes (c : CellId) : List Byte :=
  let body : List Byte := [0x01, BitVec.ofNat 8 c.val]
  let k := crc16 body
  [0xC3] ++ body ++ [k.extractLsb' 8 8, k.extractLsb' 0 8]

/-- CHANNEL_RESTART (R15): while it is not sending, the back-channel takes the head of the queue, and sends the
command if the cell is still FAULTED. -/
def State.sendRestart (s : State) : State :=
  if s.back.sending.isEmpty then
    match s.back.queue with
    | [] => s
    | c :: rest =>
      let x := s.cell c
      if x.state = .faulted then
        ({ s with back := { queue := rest, sending := restartBytes c } } : State).setCell c
          { x with restarts := x.restarts + 1, lastRestart := some s.link.cadence }
      else { s with back := { s.back with queue := rest } }
  else s

/-- BACK_CHANNEL_SEND_END: the pair returns to idle high (R15, R21). -/
def State.endSend (s : State) : State :=
  { s with back := { s.back with sending := [] } }

/-! CLEAR_CELL (R18). -/

/-- A RECOVERED cell becomes ACTIVE and its hold is released (R18). -/
def State.releaseCell (s : State) (c : CellId) : State :=
  let x := s.cell c
  let active : Cell :=
    { x with
      state := .active
      faultRun := 0
      recovery := 0
      restarts := 0
      released := true }
  let fixed := s.setCell c active
  let deck := s.metro.active.fittedTo c
  let judged :=
    match deck with
    | some d => (fixed.restartFilter d).judgeDegraded d
    | none => fixed
  (judged.writeAudit .cellRestored (u8 c.val ++ u8 (deckByte deck) ++ u8 0 ++ u8 0)).cellNotice c

/-- CLEAR_CELL, judged in the sweep that takes it (R18). -/
def State.clearCellOrder (s : State) (k : SlotId) : State :=
  let c := Fin.ofNat 24 (s.order16 k 0).toNat
  match (s.cell c).state with
  | .recovered =>
    (s.releaseCell c).answer k .done []
  | .faulted => s.answer k .stillFaulted []
  | .active => s.answer k .done []
  | .unfitted => s.answer k .done []

end Sys2Proof.Machine
end

