-- ==== Sys2Proof/Machine/Monitor.lean ====
section
/-! DEFINITION. The deck monitor (chapter 3): the snapshot, the start-up zero watch, the ZERO order and zero
tracking. -/

namespace Sys2Proof.Machine

/-- What the monitor keeps of a deck replaced. -/
def State.setMonitor (s : State) (d : DeckId) (x : DeckMonitor) : State :=
  { s with monitor := { s.monitor with decks := s.monitor.decks.set d x } }

/-- The snapshot of one deck as it stands. -/
def State.deckSnapshot (s : State) (d : DeckId) : DeckSnapshot :=
  let x := s.chain.decks.get d
  { legal := x.legal
    fine := x.fine
    gross := x.gross
    corrected := x.corrected
    flags := s.flagsOf d }

/-- The deck monitor publishes its snapshot (R44). -/
def State.publishSnapshot (s : State) : State :=
  { s with
    monitor :=
      { s.monitor with
        snapshot :=
          { decks := ⟨s.deckSnapshot 0, s.deckSnapshot 1, s.deckSnapshot 2, s.deckSnapshot 3⟩
            legal := s.chain.legal
            fine := s.chain.fine
            gross := s.chain.gross
            flags := s.platformFlags } } }

/-- The latest snapshot of a deck. -/
def State.snapOf (s : State) (d : DeckId) : DeckSnapshot :=
  s.monitor.snapshot.decks.get d

/-- A value lies within a fraction `n`/100 of a capacity (conventions, "Percentages"). -/
def withinPercent (n : Int) (value max : Int) : Bool :=
  decide ((value.natAbs : Int) * 100 ≤ n * max)

/-! The start-up zero watch (R50). -/

/-- A deck qualifies for its start-up zero on the snapshot of this event (R50). A link loss taken before the
examination keeps it from qualifying, also one that the snapshot does not show yet (R51, assumption 35). -/
def State.zeroQualifies (s : State) (d : DeckId) : Bool :=
  let x := s.snapOf d
  x.flags.still
    && !(x.flags.linkFault || (s.flagsOf d).linkFault || x.flags.degraded || x.flags.overload || x.flags.under)
    && withinPercent 10 (x.corrected - s.metro.active.zcalOf d) (s.metro.active.maxOf d)

/-- ZERO_WATCH_EXPIRED is due: the remaining count is 0. -/
def State.watchDue (s : State) (d : DeckId) : Bool :=
  (s.monitor.decks.get d).watch == .watching 0

/-- ZERO_WATCH_EXPIRED (R50): the watch ends and the deck keeps ZERO_UNSET. -/
def State.expireWatch (s : State) (d : DeckId) : State :=
  if s.watchDue d then s.setMonitor d { s.monitor.decks.get d with watch := .ended } else s

/-- The watch of one deck at a cadence event (R50): it starts at the first event after the filter first filled,
and is then examined (assumption 17). -/
def State.watchDeck (s : State) (d : DeckId) : State :=
  let x := s.monitor.decks.get d
  let examine := fun (remaining : Nat) =>
    if s.zeroQualifies d then
      let n := (s.snapOf d).corrected
      s.setMonitor d { x with zero := n, zeroRef := n, watch := .ended, flags := { x.flags with zeroUnset := false } }
    else s.setMonitor d { x with watch := .watching (remaining - 1) }
  if s.metro.active.isEnabled d then
    match x.watch with
    | .notStarted (some n) => if n = s.link.cadence then s else examine 2000
    | .notStarted none => s
    | .watching n => examine n
    | .ended => s
  else s

/-! The ZERO order (R52, R53). -/

/-- The decks a mask names (R52, R168). -/
def maskDecks (mask : W16) : List DeckId :=
  allDecks.filter fun d => mask.getLsbD d.val

/-- The mask names a deck, sets no bit above bit 3, and names only decks enabled in the set (R52). -/
def maskValid (m : MetroSet) (mask : W16) : Bool :=
  !(maskDecks mask).isEmpty && decide (mask.toNat < 16) && (maskDecks mask).all m.isEnabled

/-- The flags that fail step 4 of R52. -/
def zeroNotReady (f : DeckFlags) : Bool :=
  f.linkFault || f.degraded || f.filling || f.uncalibrated || f.overload || f.under

/-- A deck's corrected mass lies within the band of step 6 of R52. -/
def State.zeroInRange (s : State) (d : DeckId) : Bool :=
  let n := (s.snapOf d).corrected
  if (s.flagsOf d).zeroUnset then withinPercent 10 (n - s.metro.active.zcalOf d) (s.metro.active.maxOf d)
  else withinPercent 2 (n - (s.monitor.decks.get d).zeroRef) (s.metro.active.maxOf d)

/-- The flags of a deck that a ZERO order judges: those of the latest snapshot, with LINK_FAULT, DEGRADED, FILLING
and UNCALIBRATED also as they stand (assumption 35). -/
def State.zeroFlags (s : State) (d : DeckId) : DeckFlags :=
  let now := s.flagsOf d
  let seen := (s.snapOf d).flags
  { seen with
    linkFault := seen.linkFault || now.linkFault
    degraded := seen.degraded || now.degraded
    filling := seen.filling || now.filling
    uncalibrated := seen.uncalibrated || now.uncalibrated }

/-- One deck is zeroed (R53). -/
def State.zeroDeck (s : State) (d : DeckId) : State :=
  let n := (s.snapOf d).corrected
  let x := s.monitor.decks.get d
  if x.flags.zeroUnset then
    s.setMonitor d
      { x with zero := n, zeroRef := n, zeroed := true, watch := .ended, flags := { x.flags with zeroUnset := false } }
  else s.setMonitor d { x with zero := n, zeroed := true }

/-- ZERO, judged by the deck monitor in the sweep that takes it (R52, R53). -/
def State.zeroOrder (s : State) (k : SlotId) : State :=
  let ds := maskDecks (s.order16 k 0)
  let deckAnswer := fun (code : AnswerCode) (d : DeckId) => s.answer k code (u16 d.val)
  if s.capture.isSome || s.session.state == .committing then s.answer k .platformBusy []
  else if s.session.state == .opened then s.answer k .sessionOpen []
  else if s.tracker.report.state != .empty then s.answer k .platformOccupied []
  else
    match ds.find? fun d => zeroNotReady (s.zeroFlags d) with
    | some d => deckAnswer .notReady d
    | none =>
      match ds.find? fun d => (s.snapOf d).flags.motion with
      | some d => deckAnswer .notStill d
      | none =>
        match ds.find? fun d => !s.zeroInRange d with
        | some d => deckAnswer .outOfRange d
        | none => (ds.foldl State.zeroDeck s).answer k .done []

/-! Zero tracking (R55, R56). -/

/-- The flags with which a deck can step: the snapshot shows none, and none that changes between snapshots stands
now (assumption 35). -/
def State.trackingClean (s : State) (d : DeckId) : Bool :=
  let now := s.flagsOf d
  (s.snapOf d).flags.clean
    && !(now.filling || now.degraded || now.linkFault || now.inTest || now.uncalibrated || now.zeroUnset)

/-- A deck is eligible for a tracking step (R55). -/
def State.trackingEligible (s : State) (d : DeckId) : Bool :=
  let g := (s.snapOf d).gross
  s.metro.active.isEnabled d && s.metro.active.get 12 d.val == 1 && s.trackingClean d
    && s.tracker.report.state == .empty && s.capture.isNone
    && decide (2 * (g.natAbs : Int) ≤ s.metro.active.e) && !(s.monitor.decks.get d).zeroed

/-- 2% of Max_d in grams, as a detail shows it (assumption 40). -/
def bandOf (m : MetroSet) (d : DeckId) : Int :=
  roundDiv (m.maxOf d) 50

/-- The tracking step of a deck (R56): applied within the band, and otherwise refused and reported once. -/
def State.trackDeck (s : State) (d : DeckId) : State :=
  if s.trackingEligible d then
    let quarter := s.metro.active.e / 4
    let step := clamp (-quarter) quarter (s.snapOf d).gross
    let x := s.monitor.decks.get d
    if withinPercent 2 (x.zero + step - x.zeroRef) (s.metro.active.maxOf d) then
      s.setMonitor d { x with zero := x.zero + step, limitMark := false }
    else if x.limitMark then s
    else
      let band := bandOf s.metro.active d
      let more := s32 step ++ s32 band
      let written :=
        (s.setMonitor d { x with limitMark := true }).writeAudit .zeroLimit
          (u8 d.val ++ [0, 0, 0] ++ s32 (x.zero - x.zeroRef) ++ more)
      written.notice .zeroLimit d.val 0 (fieldS32 (x.zero - x.zeroRef)) more
  else s

/-- TRACKING_EXAMINATION is due: the tracking count has reached 200 (R55). -/
def State.trackingDue (s : State) : Bool :=
  decide (200 ≤ s.monitor.tracking)

/-- TRACKING_EXAMINATION (R55, R56). The decks are taken in the order D0 to D3, and so are the ZERO_LIMIT entries and
notices of one examination (assumption 55). -/
def State.trackZeros (s : State) : State :=
  if s.trackingDue then
    allDecks.foldl State.trackDeck ({ s with monitor := { s.monitor with tracking := 0 } } : State)
  else s

/-- The tracking count at a cadence event (R55). -/
def State.countTracking (s : State) : State :=
  { s with monitor := { s.monitor with tracking := s.monitor.tracking + 1 } }

end Sys2Proof.Machine
end

