-- ==== Sys2Proof/Machine/Lane.lean ====
section
/-! DEFINITION. The lane signals (chapter 5): the output lines, staging, the override, horn patterns and bursts. -/

namespace Sys2Proof.Machine

/-! The output lines (R89, R21): inactive without power and while a reset is held. -/

/-- The RED line of a head that shows an aspect. -/
def redLine (p : Power) (a : Aspect) : Bool :=
  p == .on && a == .red

/-- The GREEN line of a head that shows an aspect. -/
def greenLine (p : Power) (a : Aspect) : Bool :=
  p == .on && a == .green

/-- A_RED. -/
def State.lineARed (s : State) : Bool := redLine s.power s.lane.appliedA
/-- A_GREEN. -/
def State.lineAGreen (s : State) : Bool := greenLine s.power s.lane.appliedA
/-- B_RED. -/
def State.lineBRed (s : State) : Bool := redLine s.power s.lane.appliedB
/-- B_GREEN. -/
def State.lineBGreen (s : State) : Bool := greenLine s.power s.lane.appliedB
/-- HORN. -/
def State.lineHorn (s : State) : Bool := s.power == .on && s.lane.sounding

/-! The override (R93, R94). -/

/-- The aspects, the source and the causes are handed to the live board (R98). -/
def Lane.handHeads (l : Lane) : Lane :=
  { l with
    report :=
      { l.report with
        aspectA := l.appliedA
        aspectB := l.appliedB
        overriding := l.overriding
        causes := l.causes } }

/-- An owner marks a cause: the heads go RED at once with source OVERRIDE (R93), and the next refresh of the board
shows it (R98). -/
def Lane.mark (l : Lane) (k : Cause) : Lane :=
  let marked :=
    if l.causes.any then { l with causes := l.causes.put k true }
    else
      { l with
        causes := l.causes.put k true
        appliedA := .red
        appliedB := .red
        overriding := true }
  marked.handHeads

/-- An owner clears a cause: with the last one the aspect pending mark is set (R94). -/
def Lane.unmark (l : Lane) (k : Cause) : Lane :=
  let left := l.causes.put k false
  { l with
    causes := left
    aspectPending := l.aspectPending || (l.causes.any && !left.any) }

/-- A cause marked in the state. -/
def State.markCause (s : State) (k : Cause) : State :=
  { s with lane := s.lane.mark k }

/-- A cause cleared in the state. -/
def State.unmarkCause (s : State) (k : Cause) : State :=
  { s with lane := s.lane.unmark k }

/-! Horn patterns and bursts (R95, R96). -/

/-- The half period of a pattern in cadence events (R95). -/
def halfPeriod (period : Nat) : Nat :=
  (roundDiv period 10).toNat

/-- The applied pattern starts (R95). -/
def Lane.startPattern (l : Lane) (now : W32) : Lane :=
  match l.horn.pattern with
  | .off => { l with sounding := false, half := 0, toggle := 0, patternAt := some now }
  | .steady => { l with sounding := true, half := 0, toggle := 0, patternAt := some now }
  | .pulse =>
    let h := halfPeriod l.horn.period
    { l with sounding := true, half := h, toggle := h, patternAt := some now }

/-- The tracker calls a burst (R96): one starts, or the one that runs is renewed in phase. -/
def Lane.burstCall (l : Lane) (now : W32) : Lane :=
  match l.burst with
  | none =>
    { l with
      sounding := true
      half := 50
      toggle := 50
      burst := some 600
      burstStart := some now
      burstAt := some now }
  | some _ => { l with burst := some 600, burstAt := some now }

/-- A burst called in the state. -/
def State.burstCall (s : State) : State :=
  { s with lane := s.lane.burstCall s.link.cadence }

/-- BURST_END is due: the remaining count is 0 (R96). -/
def Lane.burstEndDue (l : Lane) : Bool :=
  l.burst == some 0

/-- HORN_TOGGLE is due: the toggle count of a running pulse or burst is 0, and no burst ends (R95, R96). -/
def Lane.toggleDue (l : Lane) : Bool :=
  decide (l.toggle = 0) && decide (l.half ≠ 0) && !l.burstEndDue

/-- HORN_TOGGLE (R95): the line changes level and the count is set again. -/
def Lane.hornToggle (l : Lane) : Lane :=
  if l.toggleDue then { l with sounding := !l.sounding, toggle := l.half } else l

/-- BURST_END (R96): the line follows the applied pattern, which starts afresh. -/
def Lane.burstEnd (l : Lane) (now : W32) : Lane :=
  if l.burstEndDue then ({ l with burst := none } : Lane).startPattern now else l

/-- The counts of a cadence event (R95, R96): none advances at the event that started it; a renewal leaves the
remaining count of a burst alone and the toggle count in phase (assumption 20). -/
def Lane.count (l : Lane) (now : W32) : Lane :=
  let later := { l with patternAt := none, burstStart := none, burstAt := none }
  match l.burst with
  | some n =>
    { later with
      burst := some (if l.burstAt = some now then n else n - 1)
      toggle := if l.burstStart = some now then l.toggle else l.toggle - 1 }
  | none => if l.half = 0 ∨ l.patternAt = some now then later else { later with toggle := l.toggle - 1 }

/-- The pending horn pattern is applied (R92, step 1). -/
def Lane.applyHorn (l : Lane) (now : W32) : Lane :=
  if l.hornPending then
    let taken := { l with hornPending := false, horn := l.stagedHorn }
    if l.stagedHorn = l.horn then taken
    else if l.burst.isSome then taken
    else taken.startPattern now
  else l

/-- The pending aspects are applied unless a cause is marked (R92, step 2). -/
def Lane.applyAspects (l : Lane) : Lane :=
  if l.aspectPending && !l.causes.any then
    { l with appliedA := l.stagedA, appliedB := l.stagedB, overriding := false, aspectPending := false }
  else l

/-- The report handed to the live board (R98). -/
def Lane.handReport (l : Lane) : Lane :=
  { l with
    report :=
      { aspectA := l.appliedA
        aspectB := l.appliedB
        overriding := l.overriding
        causes := l.causes
        aspectPending := l.aspectPending
        horn := l.horn
        sounding := l.sounding
        burst := l.burst } }

/-- The lane signals' own work at a cadence event (R92). BURST_END, HORN_TOGGLE and the report follow it (R95, R96,
R98). -/
def Lane.work (l : Lane) (now : W32) : Lane :=
  ((l.applyHorn now).applyAspects).count now

/-- The lane signals' work in the state. -/
def State.workLane (s : State) : State :=
  { s with lane := s.lane.work s.link.cadence }

/-- BURST_END in the state (R96). -/
def State.endBurst (s : State) : State :=
  { s with lane := s.lane.burstEnd s.link.cadence }

/-- HORN_TOGGLE in the state (R95). -/
def State.toggleHorn (s : State) : State :=
  { s with lane := s.lane.hornToggle }

/-- The report in the state (R98). -/
def State.handLane (s : State) : State :=
  { s with lane := s.lane.handReport }

/-! SET_SIGNALS (R91). -/

/-- The lane word (12.4). -/
def laneWord (r : LaneReport) : W16 :=
  flagWord ([r.overriding] ++ r.causes.list ++ [r.aspectPending, r.sounding, r.burst.isSome])

/-- The causes as bits 1 to 3 of a word, as in the lane word (12.6). -/
def causeBits (c : Causes) : W16 :=
  flagWord (false :: c.list)

/-- The first parameter of a SET_SIGNALS that is out of range (R91). -/
def signalsBadParam (a b pattern period : Nat) : Option Nat :=
  if 2 < a then some 0
  else if 2 < b then some 1
  else if 2 < pattern then some 2
  else if pattern = 2 ∧ (period < 100 ∨ 2000 < period) then some 3
  else none

/-- The horn an order stages: the period of OFF and STEADY is staged as 0 (R91). -/
def stagedHornOf (pattern period : Nat) : Horn :=
  { pattern := HornPattern.ofCode pattern
    period := if pattern = 2 then period else 0 }

/-- SET_SIGNALS, in the sweep that takes it (R91). -/
def State.setSignalsOrder (s : State) (k : SlotId) : State :=
  let staged : State :=
    { s with
      lane :=
        { s.lane with
          stagedA := Aspect.ofCode (s.order16 k 0).toNat
          stagedB := Aspect.ofCode (s.order16 k 2).toNat
          stagedHorn := stagedHornOf (s.order16 k 4).toNat (s.order16 k 6).toNat
          aspectPending := true
          hornPending := true } }
  staged.answer k .done (bytes16 (causeBits s.lane.causes))

end Sys2Proof.Machine
end

