-- ==== Sys2Proof/Machine/VisitTable.lean ====
section
/-! DEFINITION. The visit table (sections 7.5 to 7.7): finding entries, summaries, VOID_VISIT, FIND_VISIT and
expiry. -/

namespace Sys2Proof.Machine

/-- What occupies a place of the table. -/
def State.place (s : State) (i : Nat) : Option Visit :=
  s.visits.places.getD i none

/-- A place replaced. -/
def State.setPlace (s : State) (i : Nat) (v : Option Visit) : State :=
  { s with visits := { s.visits with places := s.visits.places.set i v } }

/-- The lowest-numbered place whose entry satisfies a test. -/
def State.findPlace (s : State) (p : Visit → Bool) : Option Nat :=
  (List.range 64).find? fun i =>
    match s.place i with
    | some v => p v
    | none => false

/-- The place of an entry by visit number. -/
def State.placeOf (s : State) (n : W32) : Option Nat :=
  s.findPlace fun v => v.entry.number == n

/-- The place of a vehicle's entry, in any status. -/
def State.placeOfVehicle (s : State) (vehicle : List Byte) : Option Nat :=
  s.findPlace fun v => v.entry.vehicle == vehicle

/-- The place of a vehicle's HELD entry. -/
def State.heldPlace (s : State) (vehicle : List Byte) : Option Nat :=
  s.findPlace fun v => v.entry.vehicle == vehicle && v.status == .held

/-- The lowest-numbered free place (R127). -/
def State.freePlace (s : State) : Option Nat :=
  (List.range 64).find? fun i => (s.place i).isNone

/-- The header's visit count: HELD, CLOSING and REMOVING entries (R130). -/
def State.visitCount (s : State) : Nat :=
  (s.visits.places.filter fun p =>
    match p with
    | some v => v.status != .adding
    | none => false).length

/-- The header's visit count written (R130). -/
def State.showVisitCount (s : State) : State :=
  s.writeWord hdrVisits (BitVec.ofNat 16 s.visitCount)

/-- An entry's status changed. -/
def State.setStatus (s : State) (n : W32) (st : VisitStatus) : State :=
  match s.placeOf n with
  | some i =>
    match s.place i with
    | some v => s.setPlace i (some { v with status := st })
    | none => s
  | none => s

/-- An entry removed from the table, with the header's count. -/
def State.removeVisit (s : State) (n : W32) : State :=
  match s.placeOf n with
  | some i => (s.setPlace i none).showVisitCount
  | none => s

/-- The mark of the capture in flight cleared (R130). -/
def State.clearMark (s : State) : State :=
  { s with visits := { s.visits with mark := none } }

/-- The three rows of an entry (R127, R132). -/
def visitRows (i : Nat) (e : VisitEntry) : List RowWrite :=
  [.visit i 0 e, .visit i 1 e, .visit i 2 e]

/-- A summary is written into a HELD entry, and its rows are queued unless the latch is set (R132). -/
def State.writeSummary (s : State) (i : Nat) (v : Visit) (summary : Summary) : State :=
  let e := { v.entry with summary := some summary }
  let written := s.setPlace i (some { v with entry := e, kept := none })
  if s.store.latch then written else written.requestJob (.summary e.number) (visitRows i e)

/-- The tracker hands the table a summary for a visit number (R132). -/
def State.handSummary (s : State) (n : W32) (summary : Summary) : State :=
  match s.placeOf n with
  | some i =>
    match s.place i with
    | some v =>
      match v.status with
      | .held => s.writeSummary i v summary
      | .adding => s.setPlace i (some { v with kept := some summary })
      | .closing => s
      | .removing => s
    | none => s
  | none => s

/-- The VISIT_VOIDED record (12.7). -/
def State.voidedRecord (s : State) (e : VisitEntry) : Record :=
  { kind := .visitVoided
    key := 0
    content := e.fields ++ bytes32 s.time.time ++ u16 (bit s.time.isSet) ++ u16 0 }

/-- The VISIT_EXPIRED record, with the maximum age in hours (12.7). -/
def State.expiredRecord (s : State) (e : VisitEntry) (maxAge : Nat) : Record :=
  { kind := .visitExpired
    key := 0
    content := e.fields ++ bytes32 s.time.time ++ u16 (bit s.time.isSet) ++ u16 maxAge }

/-- The vehicle reference of an order body that begins with it (12.6). -/
def State.orderVehicle (s : State) (k : SlotId) : List Byte :=
  s.orderBytes k 0 12

/-- A vehicle reference is in range: 12 characters from 0x20 to 0x7E, the first not a space (R121). -/
def vehicleValid (v : List Byte) : Bool :=
  v.length == 12 && v.all (fun b => decide (0x20 ≤ b.toNat ∧ b.toNat ≤ 0x7E)) && v.headD 0x20 != 0x20

/-- VOID_VISIT, judged in the sweep that takes it (R133). -/
def State.voidOrder (s : State) (k : SlotId) : State :=
  if s.store.latch then s.answer k .storeFault []
  else
    match s.heldPlace (s.orderVehicle k) with
    | none => s.answer k .noVisit []
    | some i =>
      match s.place i with
      | none => s.answer k .noVisit []
      | some v =>
        if s.visits.mark = some v.entry.number then s.answer k .visitInUse []
        else
          (s.setPlace i (some { v with status := .removing })).requestJob (.voidVisit k v.entry.number) [.freeVisit i]

/-- The removal job of a VOID_VISIT has completed (R133). -/
def State.voidCompleted (s : State) (k : SlotId) (n : W32) : State :=
  match (s.placeOf n).bind s.place with
  | some v =>
    let removed := s.removeVisit n
    (removed.record (removed.voidedRecord v.entry)).answer k .done (bytes32 n)
  | none => s.answer k .done (bytes32 n)

/-- The removal job of a VOID_VISIT has failed (R133). -/
def State.voidFailed (s : State) (k : SlotId) (n : W32) : State :=
  (s.setStatus n .held).answer k .storeFault []

/-- FIND_VISIT, answered in the sweep that takes it (R134). An entry without a summary shows 0 as verdict, quality and
group count, and its answer has the length of one with a summary (assumption 57). -/
def State.findOrder (s : State) (k : SlotId) : State :=
  match (s.heldPlace (s.orderVehicle k)).bind s.place with
  | none => s.answer k .noVisit []
  | some v =>
    let e := v.entry
    let tail :=
      match e.summary with
      | some m => u16 1 ++ u8 m.verdict.code ++ u8 m.quality.code ++ u16 m.groups.length
      | none => u16 0 ++ u8 0 ++ u8 0 ++ u16 0
    s.answer k .done
      (bytes32 e.number ++ bytes32 e.lot ++ s32 e.weight ++ bytes32 e.time ++ bytes32 e.epoch
        ++ bytes32 (orZero e.bound) ++ tail)

/-! Expiry (R135). -/

/-- An entry has expired at an engine time under a maximum age in hours (R135). -/
def expired (now : W32) (maxAge : Nat) (e : VisitEntry) : Bool :=
  decide (e.time.toNat + maxAge * 3600 < now.toNat)

/-- One entry before another in a pass: by first time, then by visit number (R135). -/
def expiryBefore (a b : VisitEntry) : Bool :=
  decide (a.time < b.time) || (a.time == b.time && decide (a.number ≤ b.number))

/-- An entry put in its place in a list in the order of a pass. -/
def insertExpiry (e : VisitEntry) : List VisitEntry → List VisitEntry
  | [] => [e]
  | x :: xs => if expiryBefore e x then e :: x :: xs else x :: insertExpiry e xs

/-- The HELD entries that have expired, in the order of a pass (R135). -/
def State.expiredEntries (s : State) (maxAge : Nat) : List VisitEntry :=
  (s.visits.places.filterMap fun p =>
    match p with
    | some v => if v.status == .held && expired s.time.time maxAge v.entry then some v.entry else none
    | none => none).foldr insertExpiry []

/-- The pass ends. -/
def State.endPass (s : State) : State :=
  { s with visits := { s.visits with pass := none } }

/-- The pass takes the next entry that is still HELD, unmarked and expired, or ends (R135). -/
def State.expiryStep (s : State) (maxAge : Nat) : List W32 → State
  | [] => s.endPass
  | n :: rest =>
    match s.placeOf n with
    | none => s.expiryStep maxAge rest
    | some i =>
      match s.place i with
      | none => s.expiryStep maxAge rest
      | some v =>
        if v.status = .held ∧ s.visits.mark ≠ some n ∧ expired s.time.time maxAge v.entry = true then
          if s.store.latch || s.journal.blocked then s.endPass
          else
            let removing := s.setPlace i (some { v with status := .removing })
            let noted : State :=
              { removing with visits := { removing.visits with pass := some ⟨maxAge, rest, some n⟩ } }
            noted.requestJob (.expiry n) [.freeVisit i]
        else s.expiryStep maxAge rest

/-- An expiry pass begins at an advance of engine time to a whole hour (R135). -/
def State.beginExpiry (s : State) : State :=
  if s.time.time.toNat % 3600 = 0 ∧ s.time.isSet = true ∧ s.site.visitAge ≠ 0 ∧ s.visits.pass = none then
    let age := s.site.visitAge
    s.expiryStep age ((s.expiredEntries age).map (·.number))
  else s

/-- The removal job of a pass has completed: the entry goes, its record is placed, and the pass goes on (R135). -/
def State.expiryCompleted (s : State) (n : W32) : State :=
  match s.visits.pass, (s.placeOf n).bind s.place with
  | some p, some v =>
    let removed := s.removeVisit n
    (removed.record (removed.expiredRecord v.entry p.maxAge)).expiryStep p.maxAge p.todo
  | _, _ => s

/-- The removal job of a pass has failed: the entry returns to HELD and the pass ends (R135). -/
def State.expiryFailed (s : State) (n : W32) : State :=
  (s.setStatus n .held).endPass

end Sys2Proof.Machine
end

