-- ==== Sys2Proof/Machine/TicketIssuer.lean ====
section
/-! DEFINITION. The ticket issuer (chapter 8): forming a ticket, its place and its store job, the TICKET and
DUPLICATE records, recalls. -/

namespace Sys2Proof.Machine

/-- A recent-ticket place. -/
def State.ticketPlace (s : State) (i : Nat) : TicketPlace :=
  s.tickets.places.getD i .empty

/-- A recent-ticket place replaced. -/
def State.setTicketPlace (s : State) (i : Nat) (p : TicketPlace) : State :=
  { s with tickets := { s.tickets with places := s.tickets.places.set i p } }

/-- The ticket of a closing visit and a second weighing (R138, R144). -/
def formTicket (number : W32) (e : VisitEntry) (weight2 : Int) (time2 epoch2 : W32) (interval : Int) : Ticket :=
  let second := decide (e.weight ≤ weight2)
  let gross := if second then weight2 else e.weight
  let tare := if second then e.weight else weight2
  { number := number
    visit := e
    weight2 := weight2
    time2 := time2
    epoch2 := epoch2
    gross := gross
    tare := tare
    net := gross - tare
    grossSecond := second
    e := interval
    crossEpoch := e.epoch != epoch2
    axleIndicative :=
      match e.summary with
      | some m => m.quality != .confirmed
      | none => false }

/-- The TICKET record (R144). -/
def Ticket.record (t : Ticket) : Record :=
  { kind := .ticket
    key := 0
    content := t.content }

/-- The DUPLICATE record of a copy (R147). -/
def State.duplicateRecord (s : State) (c : TicketCopy) : Record :=
  { kind := .duplicate
    key := 0
    content := c.ticket.content ++ u16 c.recalls ++ u16 (bit s.time.isSet) ++ bytes32 s.time.time }

/-- The ticket number held in a place, if it is HELD. -/
def TicketPlace.number : TicketPlace → Option W32
  | .held c => some c.ticket.number
  | .empty => none
  | .replacing => none

/-- The HELD place with the lowest ticket number (R140). -/
def oldestPlace (ps : List TicketPlace) : Option Nat :=
  (List.range 16).find? fun i =>
    match (ps.getD i .empty).number with
    | some n =>
      ps.all fun p =>
        match p.number with
        | some m => decide (n ≤ m)
        | none => true
    | none => false

/-- The place that a new copy will occupy: the lowest-numbered EMPTY one, or else the one that holds the oldest
copy (R140). -/
def choosePlace (ps : List TicketPlace) : Nat :=
  match (List.range 16).find? fun i => ps.getD i .empty == .empty with
  | some i => i
  | none => (oldestPlace ps).getD 0

/-- The rows of a ticket job (R140): the copy, the freed place of the visit, and the counters row. -/
def ticketRows (i : Nat) (c : TicketCopy) (visitPlace : Nat) : List RowWrite :=
  [.ticket i 0 c, .ticket i 1 c, .ticket i 2 c, .ticket i 3 c, .freeVisit visitPlace,
    .counters (.ticket c.ticket.number c.ticket.visit.number)]

/-- The ticket store job is queued (R140). -/
def State.queueTicket (s : State) (t : Ticket) (visitPlace : Nat) : State :=
  let i := choosePlace s.tickets.places
  let chosen := s.setTicketPlace i .replacing
  let noted : State := { chosen with tickets := { chosen.tickets with job := some (t, i) } }
  noted.requestJob .ticket (ticketRows i ⟨t, 0⟩ visitPlace)

/-- The ticket job has failed: its place is EMPTY and no number is consumed (R142). -/
def State.dropTicket (s : State) : State :=
  match s.tickets.job with
  | some (_, i) =>
    let emptied := s.setTicketPlace i .empty
    { emptied with tickets := { emptied.tickets with job := none } }
  | none => s

/-- The commit of a ticket: the header's last ticket number, and the place HELD with the new copy (R141, steps 1
and 2). The counters row, just verified, holds the number itself. -/
def State.commitTicket (s : State) : State :=
  match s.tickets.job with
  | some (t, i) =>
    let shown := s.writeLong hdrTicket t.number
    let held := shown.setTicketPlace i (.held ⟨t, 0⟩)
    { held with tickets := { held.tickets with job := none } }
  | none => s

/-! Recalls (R146, R147). -/

/-- The place that holds a copy of a number. -/
def State.copyPlace (s : State) (n : W32) : Option Nat :=
  (List.range 16).find? fun i => (s.ticketPlace i).number == some n

/-- RECALL_TICKET, judged in the sweep that takes it (R146). -/
def State.recallOrder (s : State) (k : SlotId) : State :=
  let n := s.order32 k 0
  if s.store.latch then s.answer k .storeFault []
  else
    match s.copyPlace n with
    | none => s.answer k .notFound []
    | some i =>
      match s.ticketPlace i with
      | .held c =>
        if s.tickets.recalls.contains n then s.answer k .recallBusy []
        else
          match s.reserve .duplicate with
          | none => s.answer k .journalFull []
          | some t =>
            let raised := { c with recalls := raiseTo65535 c.recalls }
            let noted : State := { t with tickets := { t.tickets with recalls := t.tickets.recalls ++ [n] } }
            noted.requestJob (.recall k i raised) [.ticket i 3 raised]
      | .empty => s.answer k .notFound []
      | .replacing => s.answer k .notFound []

/-- The recall of a number is no longer in flight. -/
def State.endRecall (s : State) (n : W32) : State :=
  { s with tickets := { s.tickets with recalls := s.tickets.recalls.filter fun m => m != n } }

/-- The recall job has completed: the copy's recall count, the DUPLICATE record and the answer (R147). A place
that a ticket job has chosen meanwhile stays REPLACING (R148). -/
def State.recallCompleted (s : State) (k : SlotId) (i : Nat) (c : TicketCopy) : State :=
  let n := c.ticket.number
  let ended := s.endRecall n
  let raised := if (ended.ticketPlace i).number = some n then ended.setTicketPlace i (.held c) else ended
  (raised.placeReserved (raised.duplicateRecord c)).answer k .done (bytes32 n ++ u16 c.recalls)

/-- The recall job has failed (R147). -/
def State.recallFailed (s : State) (k : SlotId) (c : TicketCopy) : State :=
  ((s.endRecall c.ticket.number).releaseReservation).answer k .storeFault []

end Sys2Proof.Machine
end

