-- ==== Sys2Proof/Machine/Traverse.lean ====
section
/-! DEFINITION. The traverse tracker (chapter 4): strip lines and the edge queue, crossings, the traverse, settle
windows, containment, the class table and the report. -/

namespace Sys2Proof.Machine

/-! Strip lines and the edge queue (R61, R62, R64). -/

/-- A reason set on the open traverse, if there is one. -/
def State.setReason (s : State) (f : Reasons → Reasons) : State :=
  match s.tracker.traverse with
  | some t => { s with tracker := { s.tracker with traverse := some { t with reasons := f t.reasons } } }
  | none => s

/-- An accepted edge joins the queue, or is discarded from a full one (R62). -/
def State.queueEdge (s : State) (e : Edge) : State :=
  if s.tracker.queue.length < 64 then { s with tracker := { s.tracker with queue := s.tracker.queue ++ [e] } }
  else
    match s.tracker.traverse with
    | some _ => s.setReason fun r => { r with edgeOverrun := true }
    | none => { s with tracker := { s.tracker with overrun := true } }

/-- A strip notice, giving the line and its state (R64, 12.7). -/
def State.stripNotice (s : State) (l : Line) (stuck : Bool) : State :=
  s.notice .stripStuck (lineCode l) (bit stuck) 0 []

/-- A line's record replaced. -/
def State.setLine (s : State) (l : Line) (x : StripLine) : State :=
  { s with tracker := { s.tracker with lines := s.tracker.lines.set l x } }

/-- An edge to a level is accepted at a stamp (R61, R62, R64): the accepted level, the hold, the queue, and the end
of a stuck mark. -/
def State.acceptEdge (s : State) (l : Line) (pressed : Bool) (stamp : W32) : State :=
  let x := s.tracker.lines.get l
  let wasStuck := x.stuck && !pressed
  let taken : StripLine :=
    { pressed := pressed
      hold := some (stamp + BitVec.ofNat 32 (s.site.debounce * 10))
      pressedAt := if pressed then stamp else x.pressedAt
      stuck := if pressed then x.stuck else false }
  let held := s.setLine l taken
  let queued :=
    held.queueEdge
      { line := l
        on := pressed
        stamp := stamp
        latch := if pressed then some s.monitor.snapshot.fine else none }
  if wasStuck then queued.stripNotice l false else queued

/-- A debounce hold ends at a stamp (R61): an edge to the input's level is accepted if it differs from the accepted
one. -/
def State.endHold (s : State) (l : Line) (stamp : W32) : State :=
  let x := s.tracker.lines.get l
  let input := s.pins.strips.get l
  if input = x.pressed then s.setLine l { x with hold := none } else s.acceptEdge l input stamp

/-- How long ago a line's hold ended, in ticks, if it has: strictly before the present clock. -/
def State.holdOverdue (s : State) (l : Line) : Option Nat :=
  match (s.tracker.lines.get l).hold with
  | some stamp =>
    let n := ticksFrom stamp s.clock
    if 0 < n ∧ n < 2147483648 then some n else none
  | none => none

/-- The line whose hold ended longest ago; of lines whose holds ended at one stamp, the first in the order A_OUT, A_IN,
B_OUT, B_IN (assumption 56). -/
def State.firstOverdue (s : State) : Option (Line × Nat) :=
  allLines.foldl
    (fun best l =>
      match s.holdOverdue l, best with
      | some n, some (k, m) => if m < n then some (l, n) else some (k, m)
      | some n, none => some (l, n)
      | none, b => b)
    none

/-- Holds that ended before the present clock are taken at their own stamps, the earliest first (assumption 6).
Each line has at most two: the hold that ran, and the one that its end started. -/
def State.catchUpHolds (s : State) : Nat → State
  | 0 => s
  | n + 1 =>
    match s.firstOverdue with
    | some (l, _) => (s.endHold l (((s.tracker.lines.get l).hold).getD s.clock)).catchUpHolds n
    | none => s

/-- The traverse clock advances (conventions), and what ended meanwhile is taken. -/
def State.advance (s : State) (dt : W32) : State :=
  ({ s with clock := s.clock + dt } : State).catchUpHolds 8

/-! Crossings (R65 to R68). -/

/-- The end of the bridge at which a line lies. -/
def lineEnd : Line → BridgeEnd
  | .aOut => .a
  | .aIn => .a
  | .bOut => .b
  | .bIn => .b

/-- A line is its end's outer strip. -/
def lineOuter : Line → Bool
  | .aOut => true
  | .aIn => false
  | .bOut => true
  | .bIn => false

/-- The crossing register of an end. -/
def State.crossing (s : State) (side : BridgeEnd) : Option Crossing :=
  match side with
  | .a => s.tracker.crossA
  | .b => s.tracker.crossB

/-- The crossing register of an end replaced. -/
def State.setCrossing (s : State) (side : BridgeEnd) (c : Option Crossing) : State :=
  match side with
  | .a => { s with tracker := { s.tracker with crossA := c } }
  | .b => { s with tracker := { s.tracker with crossB := c } }

/-- The crossing limit in ticks (R66). -/
def crossingLimit : Nat := 90000

/-- A crossing is abandoned (R66). -/
def State.abandon (s : State) (side : BridgeEnd) : State :=
  match s.crossing side with
  | some c =>
    let emptied := s.setCrossing side none
    if c.outer then emptied else emptied.setReason fun r => { r with crossingLost := true }
  | none => s

/-- A closed crossing (R65). -/
structure Closed where
  bridgeEnd : BridgeEnd
  entry : Bool
  stamp : W32
  value : Int
  ticks : Nat
  deriving DecidableEq, Repr

/-- The speed of a closed crossing in mm/s (R67). -/
def crossingSpeed (spacing ticks : Nat) : Nat :=
  (roundDiv (spacing * 10000) (if ticks = 0 then 1 else ticks)).toNat

/-- The maximum check speed in mm/s (R67). -/
def checkSpeed (kmh : Nat) : Nat :=
  (roundDiv (kmh * 1000000) 3600).toNat

/-- The spacing between two axles (R68). -/
def spacingBetween (before after : Axle) : Spacing :=
  if before.slow || after.slow then .unknown
  else
    let v := roundDiv (after.speed + before.speed) 2
    .mm (roundDiv (v * ticksFrom before.stamp after.stamp) 10000).toNat

/-! The traverse (R69 to R77). -/

/-- An axle as it is recorded (R70, R71): its settle window starts. -/
def State.newAxle (s : State) (c : Closed) (axles : List Axle) : Axle :=
  let v := crossingSpeed s.site.spacing c.ticks
  let fresh : Axle :=
    { stamp := c.stamp
      speed := v
      overspeed := decide (checkSpeed s.site.maxSpeed < v)
      slow := decide (v < 56)
      spacing := .first
      pre := c.value
      post := none
      estimate := 0
      short := false
      window := some (roundDiv s.site.settle 5).toNat }
  match axles.getLast? with
  | some before => { fresh with spacing := spacingBetween before fresh }
  | none => fresh

/-- The reasons that an axle's marks set (R67). -/
def Reasons.markAxle (r : Reasons) (a : Axle) : Reasons :=
  { r with overspeed := r.overspeed || a.overspeed, slow := r.slow || a.slow }

/-- Any enabled deck carries DEGRADED (R20). The flags are those that stand at that moment, not the snapshot's
(assumption 45). -/
def State.anyDegraded (s : State) : Bool :=
  s.metro.active.decks.any fun d => (s.flagsOf d).degraded

/-- An ENTRY opens a traverse (R70). -/
def State.openTraverse (s : State) (c : Closed) : State :=
  let number := nextSerial s.tracker.number
  let k := s.tracker.armed.getD 0
  let axle := s.newAxle c []
  let reasons :=
    ({ Reasons.none with
        degraded := s.anyDegraded
        linkFault := s.monitor.snapshot.flags.linkFault
        edgeOverrun := s.tracker.overrun } : Reasons).markAxle axle
  let t : Traverse :=
    { number := number
      entryEnd := c.bridgeEnd
      classNumber := k
      classEntry := s.tracker.classes.getD k manufactureClass
      lenient := s.site.policy == 1
      entries := 1
      exits := 0
      axlesOn := 1
      axles := [axle]
      reasons := reasons
      static := none
      binding := none
      closing := none }
  { s with
    tracker := { s.tracker with number := number, armed := none, overrun := false, traverse := some t } }

/-- An axle's window closed early with a bridge value (R73). -/
def Axle.closeEarly (a : Axle) (value : Int) : Axle :=
  match a.window with
  | some _ =>
    { a with
      post := some value
      estimate := max 0 (value - a.pre)
      short := true
      window := none }
  | none => a

/-- Every open settle window is closed early (R73). -/
def Traverse.closeWindows (t : Traverse) (value : Int) : Traverse :=
  let axles := t.axles.map fun a => a.closeEarly value
  { t with
    axles := axles
    reasons := { t.reasons with short := t.reasons.short || axles.any (·.short) } }

/-- The open traverse replaced. -/
def State.setTraverse (s : State) (t : Option Traverse) : State :=
  { s with tracker := { s.tracker with traverse := t } }

/-- SECOND_VEHICLE is set; the first time, the lane signals are told (R74). -/
def State.setSecondVehicle (s : State) : State :=
  match s.tracker.traverse with
  | some t =>
    if t.reasons.secondVehicle then s
    else
      ((s.setReason fun r => { r with secondVehicle := true }).burstCall).markCause .secondVehicle
  | none => s

/-- An ENTRY at the entry end while ACTIVE: the next axle (R71). An ENTRY discards a static value (R79). -/
def State.nextAxle (s : State) (t : Traverse) (c : Closed) : State :=
  let closed := t.closeWindows c.value
  let counted := { closed with entries := closed.entries + 1, axlesOn := closed.axlesOn + 1, static := none }
  if 32 ≤ counted.axles.length then
    s.setTraverse (some { counted with reasons := { counted.reasons with edgeOverrun := true } })
  else
    let axle := s.newAxle c counted.axles
    let recorded :=
      s.setTraverse (some { counted with axles := counted.axles ++ [axle], reasons := counted.reasons.markAxle axle })
    match axle.spacing with
    | .mm n => if s.site.vehicleGap < n then recorded.setSecondVehicle else recorded
    | .unknown => recorded
    | .first => recorded

/-- An ENTRY at the far end while ACTIVE (R74). -/
def State.farEntry (s : State) (t : Traverse) (c : Closed) : State :=
  let closed := t.closeWindows c.value
  (s.setTraverse
    (some { closed with entries := closed.entries + 1, axlesOn := closed.axlesOn + 1, static := none })).setSecondVehicle

/-- An EXIT while ACTIVE (R75). -/
def State.countExit (s : State) (t : Traverse) (c : Closed) : State :=
  let closed := t.closeWindows c.value
  let on := closed.axlesOn - 1
  s.setTraverse
    (some
      { closed with
        exits := closed.exits + 1
        axlesOn := on
        reasons := { closed.reasons with reversed := closed.reasons.reversed || c.bridgeEnd == t.entryEnd }
        closing := if on = 0 then some 0 else none })

/-! Groups, limits and the report (R80 to R87). -/

/-- An axle begins a new group (R80). -/
def startsGroup (gap : Nat) (a : Axle) : Bool :=
  match a.spacing with
  | .first => true
  | .unknown => true
  | .mm n => decide (gap < n)

/-- The recorded axles divided into groups, in entry order (R80). -/
def groupAxles (gap : Nat) : List Axle → List (List Axle)
  | [] => []
  | a :: rest =>
    match groupAxles gap rest with
    | g :: gs =>
      match rest with
      | b :: _ => if startsGroup gap b then [a] :: g :: gs else (a :: g) :: gs
      | [] => [a] :: g :: gs
    | [] => [[a]]

/-- The type of a group of axles (R80). -/
def groupType (n : Nat) : GroupType :=
  match n with
  | 1 => .single
  | 2 => .tandem
  | 3 => .tri
  | 4 => .quad
  | _ => .overlong

/-- The limit of a group: STEER for a SINGLE that comes first, and otherwise that of its type; OVERLONG takes the
QUAD limit (R84). -/
def groupLimit (c : ClassEntry) (first : Bool) (k : GroupType) : Nat :=
  match k with
  | .single => if first then c.steer else c.single
  | .tandem => c.tandem
  | .tri => c.tri
  | .quad => c.quad
  | .overlong => c.quad

/-- The threshold of a limit (R84). -/
def thresholdOf (limit tolerance : Nat) (e : Int) : Int :=
  limit + roundDiv (limit * tolerance) (1000 * e) * e

/-- A load is OVER its limit: it exceeds the threshold, or the limit is 0 (R84). -/
def overLimit (load : Int) (limit tolerance : Nat) (e : Int) : Bool :=
  decide (thresholdOf limit tolerance e < load) || decide (limit = 0)

/-- One group judged (R84). -/
def judgeGroup (c : ClassEntry) (e : Int) (first : Bool) (axles : List Axle) : Group :=
  let kind := groupType axles.length
  let limit := groupLimit c first kind
  let load := (axles.map (·.estimate)).sum
  { kind := kind
    axles := axles.length
    load := roundTo load e
    limit := limit
    threshold := thresholdOf limit c.tolerance e
    overload := overLimit load limit c.tolerance e }

/-- Groups judged in order, the first one marked (R84). -/
def judgeGroups (c : ClassEntry) (e : Int) : List (List Axle) → List Group
  | [] => []
  | g :: gs => judgeGroup c e true g :: gs.map (judgeGroup c e false)

/-- The static comparison agrees (R85). -/
def staticAgrees (total static e : Int) : Bool :=
  decide (((total - static).natAbs : Int) ≤ max (roundDiv (2 * (static.natAbs : Int)) 100) (10 * e))

/-- The reasons that make a verdict INDETERMINATE (R86). -/
def Reasons.indeterminate (r : Reasons) (lenient : Bool) : Bool :=
  r.edgeOverrun || r.reversed || r.secondVehicle || r.crossingLost || r.overlong || r.linkFault
    || (r.degraded && !lenient)

/-- The reasons that make a quality INDICATIVE (R86), besides DISAGREE. -/
def Reasons.indicative (r : Reasons) : Bool :=
  r.short || r.overspeed || r.slow || r.degraded || r.linkFault

/-- What a report says of a traverse (R80 to R86). -/
structure Report where
  reasons : Reasons
  groups : List Group
  gross : Int
  fromStatic : Bool
  verdict : Verdict
  quality : Quality
  deriving DecidableEq, Repr

/-- The report of a traverse (R80, R84, R85, R86). -/
def Traverse.report (t : Traverse) (gap : Nat) (e : Int) : Report :=
  let all := groupAxles gap t.axles
  let groups := judgeGroups t.classEntry e (all.take 12)
  let total := (t.axles.map (·.estimate)).sum
  let agreed :=
    match t.static with
    | some v => staticAgrees total v e
    | none => false
  let gross := if agreed then t.static.getD total else total
  let reasons :=
    { t.reasons with
      edgeOverrun := t.reasons.edgeOverrun || decide (12 < all.length)
      overlong := t.reasons.overlong || groups.any (fun g => g.kind == .overlong)
      disagree := t.reasons.disagree || (t.static.isSome && !agreed) }
  let verdict :=
    if reasons.indeterminate t.lenient then Verdict.indeterminate
    else if groups.any (·.overload) || overLimit gross t.classEntry.gross t.classEntry.tolerance e then .nonCompliant
    else .compliant
  let quality :=
    if reasons.indicative then Quality.indicative
    else if agreed then .confirmed
    else if t.static.isNone then .rollingOnly
    else .indicative
  { reasons := reasons
    groups := groups
    gross := gross
    fromStatic := agreed
    verdict := verdict
    quality := quality }

/-- A group in an AXLE_REPORT (12.7). -/
def reportGroup (g : Group) : List Byte :=
  u8 g.kind.code ++ u8 g.axles ++ u8 (bit g.overload) ++ u8 0 ++ s32 g.load ++ s32 g.limit ++ s32 g.threshold

/-- The AXLE_REPORT record (R87, 12.7). -/
def Traverse.axleReport (t : Traverse) (r : Report) : Record :=
  let speeds := t.axles.map (·.speed)
  { kind := .axleReport
    key := t.number
    content :=
      bytes32 t.number ++ s32 r.gross ++ t.classEntry.name ++ u16 t.entries ++ u16 t.exits
        ++ u16 (speeds.foldl min (speeds.headD 0)) ++ u16 (speeds.foldl max 0) ++ bytes16 (flagWord r.reasons.list)
        ++ u8 (endCode t.entryEnd) ++ u8 t.classNumber ++ u8 (bit (!r.fromStatic)) ++ u8 r.verdict.code
        ++ u8 r.quality.code ++ u8 r.groups.length ++ r.groups.flatMap reportGroup }

/-- The report of the open traverse is made and handed on (R87); the tracker is EMPTY after it, and the override
cause of a second vehicle ends (R76). -/
def State.reportTraverse (s : State) : State :=
  match s.tracker.traverse with
  | none => s
  | some t =>
    let r := t.report s.site.groupGap s.metro.active.e
    let placed := s.record (t.axleReport r)
    let sounded := if r.verdict = .nonCompliant then placed.burstCall else placed
    let handed :=
      match t.binding with
      | some n => sounded.handSummary n ⟨r.verdict, r.quality, r.groups.map Group.toSummaryGroup⟩
      | none => sounded
    let emptied := handed.setTraverse none
    if t.reasons.secondVehicle then emptied.unmarkCause .secondVehicle else emptied

/-- A closed crossing handled by the state the tracker is in (R69 to R76). An ENTRY while CLOSING reports first, and
that report still has the static value which R79 has an ENTRY discard (assumption 64). -/
def State.handleCrossing (s : State) (c : Closed) : State :=
  match s.tracker.traverse with
  | none => if c.entry then s.openTraverse c else s
  | some t =>
    match t.closing with
    | none =>
      if c.entry then (if c.bridgeEnd = t.entryEnd then s.nextAxle t c else s.farEntry t c) else s.countExit t c
    | some _ =>
      if c.entry then s.reportTraverse.openTraverse c
      else s.setReason fun r => { r with crossingLost := true }

/-- One entry of the queue consumed (R63, R65, R66). -/
def State.consumeEdge (s : State) (e : Edge) : State :=
  match e.latch with
  | none => s
  | some latch =>
    let side := lineEnd e.line
    let opened : Crossing := { outer := lineOuter e.line, stamp := e.stamp, latch := latch }
    match s.crossing side with
    | none => s.setCrossing side (some opened)
    | some c =>
      if c.outer = lineOuter e.line then s
      else
        let ticks := ticksFrom c.stamp e.stamp
        if crossingLimit < ticks then (s.abandon side).setCrossing side (some opened)
        else
          let closed : Closed :=
            { bridgeEnd := side
              entry := c.outer
              stamp := if c.outer then e.stamp else c.stamp
              value := if c.outer then latch else c.latch
              ticks := ticks }
          (s.setCrossing side none).handleCrossing closed

/-- Step 1 of R63: every entry is removed and consumed, oldest first. -/
def State.consumeQueue (s : State) : State :=
  s.tracker.queue.foldl State.consumeEdge ({ s with tracker := { s.tracker with queue := [] } } : State)

/-! Settle windows (R72). -/

/-- An open window loses one from its remaining count (R72). -/
def Axle.countWindow (a : Axle) : Axle :=
  match a.window with
  | some n => { a with window := some (n - 1) }
  | none => a

/-- SETTLE_WINDOW_END is due: an axle's window has run out. -/
def State.settleDue (s : State) : Bool :=
  match s.tracker.traverse with
  | some t => t.axles.any fun a => a.window == some 0
  | none => false

/-- A window that has run out ends with the latest fine value (R72). -/
def Axle.settle (a : Axle) (fine : Int) : Axle :=
  if a.window = some 0 then
    { a with
      post := some fine
      estimate := max 0 (fine - a.pre)
      short := decide (fine < a.pre)
      window := none }
  else a

/-- SETTLE_WINDOW_END (R72). -/
def State.endWindows (s : State) : State :=
  match s.tracker.traverse with
  | some t =>
    let axles := t.axles.map fun a => a.settle s.monitor.snapshot.fine
    s.setTraverse
      (some { t with axles := axles, reasons := { t.reasons with short := t.reasons.short || axles.any (·.short) } })
  | none => s

/-- The counts of step 2 of R63; SETTLE_WINDOW_END follows them. -/
def State.countWindows (s : State) : State :=
  match s.tracker.traverse with
  | some t => s.setTraverse (some { t with axles := t.axles.map Axle.countWindow })
  | none => s

/-! Abandoned crossings and stuck strips (R66, R64). -/

/-- CROSSING_ABANDONED is due at an end, in step 3 of R63: its crossing has been open too long at this cadence event
(R66). -/
def State.crossingOverdue (s : State) (side : BridgeEnd) : Bool :=
  match s.crossing side with
  | some c => decide (crossingLimit < ticksFrom c.stamp s.clock)
  | none => false

/-- The stuck-strip limit in ticks (R64). -/
def stuckLimit : Nat := 600000

/-- STRIP_STUCK is due, in step 4 of R63: the line is found pressed too long at this cadence event (R64). -/
def State.stuckFound (s : State) (l : Line) : Bool :=
  let x := s.tracker.lines.get l
  x.pressed && !x.stuck && decide (stuckLimit < ticksFrom x.pressedAt s.clock)

/-- STRIP_STUCK (R64): the stuck mark of a line is set, with its notice. -/
def State.markStuck (s : State) (l : Line) : State :=
  (s.setLine l { s.tracker.lines.get l with stuck := true }).stripNotice l true

/-! Containment, the static value and closing (R76 to R79). -/

/-- The vehicle is contained (R78). -/
def State.judgeContained (s : State) : Bool :=
  match s.tracker.traverse with
  | some t =>
    t.closing.isNone && decide (t.exits = 0) && decide (1 ≤ t.axlesOn)
      && allLines.all (fun l => !(s.tracker.lines.get l).pressed)
      && s.tracker.crossA.isNone && s.tracker.crossB.isNone
      && t.axles.all (fun a => a.window.isNone) && !t.reasons.secondVehicle
  | none => false

/-- Step 5 of R63: containment, the static value (R79), and the LINK_FAULT reason, whose examination R77 places at
each cadence event and in no step (assumption 46). -/
def State.judgeBridge (s : State) : State :=
  let contained := s.judgeContained
  let judged : State := { s with tracker := { s.tracker with contained := contained } }
  match judged.tracker.traverse with
  | some t =>
    let faulted := { t.reasons with linkFault := t.reasons.linkFault || s.monitor.snapshot.flags.linkFault }
    let static :=
      match t.static with
      | some v => some v
      | none => if contained && s.monitor.snapshot.flags.still then some s.monitor.snapshot.gross else none
    judged.setTraverse (some { t with reasons := faulted, static := static })
  | none => judged

/-- The closing count rises while CLOSING (R76, assumption 19). -/
def State.countClosing (s : State) : State :=
  match s.tracker.traverse with
  | some t =>
    match t.closing with
    | some n => s.setTraverse (some { t with closing := some (n + 1) })
    | none => s
  | none => s

/-- CLOSING_TIMEOUT is due: the closing count has reached 2,000 (R76). -/
def State.closingDue (s : State) : Bool :=
  match s.tracker.traverse with
  | some t =>
    match t.closing with
    | some n => decide (2000 ≤ n)
    | none => false
  | none => false

/-- The snapshot shows the bridge empty and still (R76). -/
def State.bridgeSettled (s : State) : Bool :=
  decide ((s.monitor.snapshot.gross.natAbs : Int) ≤ 20 * s.metro.active.e) && s.monitor.snapshot.flags.still

/-- The tracker is CLOSING. -/
def State.isClosing (s : State) : Bool :=
  match s.tracker.traverse with
  | some t => t.closing.isSome
  | none => false

/-- Step 6 of R63: an empty and still bridge ends closing (R76). CLOSING_TIMEOUT follows. -/
def State.judgeClosing (s : State) : State :=
  if s.isClosing && s.bridgeSettled then s.reportTraverse else s

/-- The state of the tracker (R69). -/
def State.trackState (s : State) : TrackState :=
  match s.tracker.traverse with
  | some t => if t.closing.isSome then .closing else .active
  | none => .empty

/-- Step 7 of R63: the tracker publishes its state. -/
def State.publishTrack (s : State) : State :=
  let on :=
    match s.tracker.traverse with
    | some t => t.axlesOn
    | none => 0
  { s with
    tracker :=
      { s.tracker with
        report :=
          { state := s.trackState
            number := s.tracker.number
            axlesOn := on
            contained := s.tracker.contained && s.trackState == .active } } }

/-! Orders to the tracker (R82, R83). -/

/-- ARM_CLASS, judged in the sweep that takes it (R83). -/
def State.armOrder (s : State) (k : SlotId) : State :=
  if s.trackState = .empty then
    ({ s with tracker := { s.tracker with armed := some (s.order16 k 0).toNat } } : State).answer k .done []
  else s.answer k .platformOccupied []

/-- Class `c` of the image in the staging area (12.8). -/
def State.imageClass (s : State) (c : Nat) : ClassEntry :=
  let at32 := fun (x : Nat) => (s.staging32 (64 * c + x)).toNat
  { name := s.mem.readBytes (stagingBase + 64 * c) 8
    steer := at32 8
    single := at32 12
    tandem := at32 16
    tri := at32 20
    quad := at32 24
    gross := at32 28
    tolerance := (s.staging16 (64 * c + 32)).toNat }

/-- The places of the fields of a class that are out of range, in order (R81, R82). -/
def ClassEntry.badField (c : ClassEntry) : Option Nat :=
  let badLimit := fun (n : Nat) => decide (1000000000 < n)
  if c.name.any fun b => decide (b.toNat < 0x20 ∨ 0x7E < b.toNat) then some 0
  else if badLimit c.steer then some 1
  else if badLimit c.single then some 2
  else if badLimit c.tandem then some 3
  else if badLimit c.tri then some 4
  else if badLimit c.quad then some 5
  else if badLimit c.gross then some 6
  else if 100 < c.tolerance then some 7
  else none

/-- The number of the first field of an image that is out of range (R82). -/
def firstBadField (n : Nat) : List ClassEntry → Option Nat
  | [] => none
  | c :: cs =>
    match c.badField with
    | some p => some (n * 8 + p)
    | none => firstBadField (n + 1) cs

/-- The image of 16 classes in the staging area (R82). -/
def State.imageClasses (s : State) : List ClassEntry :=
  (List.range 16).map s.imageClass

/-- The rows of a class table, from class `n` on. -/
def classRows (n : Nat) : List ClassEntry → List RowWrite
  | [] => []
  | c :: cs => .classRow n c :: classRows (n + 1) cs

/-- LOAD_CLASSES, judged in the sweep that takes it (R82). -/
def State.loadClassesOrder (s : State) (k : SlotId) : State :=
  let table := s.imageClasses
  if s.store.latch then s.answer k .storeFault []
  else
    match firstBadField 0 table with
    | some n => s.badParam k n
    | none => s.requestJob (.classes k table) (classRows 0 table)

/-- The LOAD_CLASSES job has completed (R82). -/
def State.classesCompleted (s : State) (k : SlotId) (table : List ClassEntry) : State :=
  ({ s with tracker := { s.tracker with classes := table } } : State).answer k .done []

/-- The capture unit asks the tracker to bind the current traverse to a visit (R88): granted while it is ACTIVE and
holds no binding, with the traverse number. -/
def State.bindTraverse (s : State) (visit : W32) : State × Option W32 :=
  match s.tracker.traverse with
  | some t =>
    if t.closing.isNone && t.binding.isNone then
      (s.setTraverse (some { t with binding := some visit }), some t.number)
    else (s, none)
  | none => (s, none)

end Sys2Proof.Machine
end

