-- ==== Sys2Proof/Machine/CaptureUnit.lean ====
section
/-! DEFINITION. The capture unit (sections 7.1 to 7.4): the take of a weighing, its examinations, the deadline, the
checks after the value and the store phase. -/

namespace Sys2Proof.Machine

/-- The answer of the capture in flight is written: in the same step the CAPTURE cause clears, the record is
cleared and the phase is IDLE (R120). The mark on a named entry is cleared (R125, R126, R128). -/
def State.endCapture (s : State) (k : SlotId) (code : AnswerCode) (body : List Byte) : State :=
  let idle : State := { (s.clearMark) with capture := none }
  (idle.unmarkCause .capture).answer k code body

/-- The answer to a condition that was not met (R124). -/
def Unmet.answerCode : Unmet → AnswerCode
  | .tradeReady => .notReady
  | .contained => .notContained
  | .still => .notStill

/-- The first unmet condition of an examination (R123). -/
def State.firstUnmet (s : State) : Option Unmet :=
  let f := s.monitor.snapshot.flags
  if !f.tradeReady then some .tradeReady
  else if !s.tracker.report.contained then some .contained
  else if !f.still then some .still
  else none

/-- CAPTURE_DEADLINE (R124): the answer to the first condition unmet, with the platform flag set, W_p and whether
the vehicle was contained. -/
def State.missDeadline (s : State) : State :=
  match s.capture with
  | some c =>
    match c.missed with
    | some u =>
      s.endCapture c.slot u.answerCode
        (bytes16 s.monitor.snapshot.flags.word ++ s32 s.monitor.snapshot.legal ++ u16 (bit s.tracker.report.contained))
    | none => s
  | none => s

/-! The store phase (R127, R128). -/

/-- The capture record replaced. -/
def State.setCapture (s : State) (c : Capture) : State :=
  { s with capture := some c }

/-- The store phase of a FIRST_WEIGH (R127): the binding, the visit number and its ADDING entry, the store job. -/
def State.storeFirst (s : State) (c : Capture) (value : Int) : State :=
  let n := nextSerial s.store.counters.visitCounter
  let bound := if c.bind then s.bindTraverse n else (s, none)
  let e : VisitEntry :=
    { number := n
      vehicle := c.vehicle
      lot := c.lot
      weight := value
      time := c.time.getD 0
      epoch := c.epoch.getD 0
      bound := bound.2
      summary := none }
  let i := (s.freePlace).getD 0
  let added := bound.1.setPlace i (some { entry := e, status := .adding, kept := none })
  let noted := added.setCapture { c with storing := true, visit := some n, bound := bound.2, reserved := true }
  noted.requestJob .firstWeigh (.counters (.visit n) :: visitRows i e)

/-- The store phase of a SECOND_WEIGH (R128, R139, R140): the entry becomes CLOSING and the ticket is formed, or
the number range is spent. -/
def State.storeSecond (s : State) (c : Capture) (value : Int) : State :=
  let n := c.visit.getD 0
  match s.placeOf n with
  | none => s.releaseReservation.endCapture c.slot .noVisit []
  | some i =>
    match s.place i with
    | none => s.releaseReservation.endCapture c.slot .noVisit []
    | some v =>
      if s.store.counters.lastTicket = BitVec.allOnes 32 then
        s.releaseReservation.endCapture c.slot .ticketRange []
      else
        let closing := s.setPlace i (some { v with status := .closing })
        let noted := closing.setCapture { c with storing := true, reserved := true }
        noted.queueTicket
          (formTicket (s.store.counters.lastTicket + 1) v.entry value (c.time.getD 0) (c.epoch.getD 0) (c.e.getD 0)) i

/-- A capture value is taken, and the checks after it are made (R126). -/
def State.takeValue (s : State) (c : Capture) : State :=
  let value := s.monitor.snapshot.legal
  let e := s.metro.active.e
  let taken : Capture :=
    { c with value := some value, time := some s.time.time, epoch := some s.metro.epoch, e := some e }
  if value < 20 * e then s.endCapture c.slot .belowMin (s32 value ++ s32 (20 * e))
  else if s.store.latch then s.endCapture c.slot .storeFault []
  else
    match s.reserve (if c.first then .weighRecord else .ticket) with
    | none => s.endCapture c.slot .journalFull []
    | some t => if c.first then t.storeFirst taken value else t.storeSecond taken value

/-- CAPTURE_DEADLINE is due: the examination just made found its condition unmet with no count remaining (R124). -/
def State.deadlineDue (s : State) : Bool :=
  match s.capture with
  | some c => c.missed.isSome
  | none => false

/-- One examination of the capture in its wait phase (R123, R124). CAPTURE_DEADLINE follows one that is missed. -/
def State.examineCapture (s : State) : State :=
  match s.capture with
  | none => s
  | some c =>
    if c.storing then s
    else
      match s.firstUnmet with
      | none => s.takeValue c
      | some u =>
        if 0 < c.remaining then s.setCapture { c with remaining := c.remaining - 1 }
        else s.setCapture { c with missed := some u }

/-- The examination of a waiting capture at a cadence event; one taken at this event has been examined at its take
(R123). -/
def State.workCapture (s : State) : State :=
  match s.capture with
  | some c => if c.takenAt = s.link.cadence then s else s.examineCapture
  | none => s

/-! Taking the orders (R121, R122). -/

/-- Steps 1 to 4 of R121, the same for both orders. -/
def State.captureRefusal (s : State) : Option AnswerCode :=
  if s.capture.isSome || s.session.state == .committing then some .platformBusy
  else if s.session.state == .opened then some .sessionOpen
  else if s.store.latch then some .storeFault
  else if !s.time.isSet then some .clockUnset
  else none

/-- A capture begins (R120 to R123): the record, the CAPTURE cause, and the first examination at once. -/
def State.beginCapture (s : State) (k : SlotId) (first : Bool) (vehicle : List Byte) (lot : W32) (bind : Bool)
    (visit : Option W32) : State :=
  let begun : State :=
    { s with
      capture :=
        some
          { storing := false
            first := first
            slot := k
            vehicle := vehicle
            lot := lot
            bind := bind
            remaining := s.site.captureTimeout * 200
            value := none
            time := none
            epoch := none
            e := none
            visit := visit
            bound := none
            reserved := false
            takenAt := s.link.cadence
            missed := none }
      visits := { s.visits with mark := visit } }
  ((begun.markCause .capture).examineCapture).missDeadline

/-- FIRST_WEIGH, judged in the sweep that takes it (R121). -/
def State.firstWeighOrder (s : State) (k : SlotId) : State :=
  let vehicle := s.orderVehicle k
  match s.captureRefusal with
  | some code => s.answer k code []
  | none =>
    match (s.placeOfVehicle vehicle).bind s.place with
    | some v => s.answer k .visitExists (bytes32 v.entry.number)
    | none =>
      if s.freePlace.isNone then s.answer k .visitTableFull []
      else s.beginCapture k true vehicle (s.order32 k 12) (s.order16 k 16 == 1) none

/-- SECOND_WEIGH, judged in the sweep that takes it (R122). -/
def State.secondWeighOrder (s : State) (k : SlotId) : State :=
  let vehicle := s.orderVehicle k
  match s.captureRefusal with
  | some code => s.answer k code []
  | none =>
    match (s.heldPlace vehicle).bind s.place with
    | none => s.answer k .noVisit []
    | some v => s.beginCapture k false vehicle 0 false (some v.entry.number)

/-- A withdrawal handed to the capture unit (R125): cancellable in the wait phase only. -/
def State.withdrawCapture (s : State) (k : SlotId) : State :=
  match s.capture with
  | some c => if c.slot = k ∧ c.storing = false then s.endCapture k .withdrawn [] else s
  | none => s

/-! The end of the store phase (R127, R128, R141, R142). -/

/-- The WEIGH_RECORD of an entry (R127, 12.7). -/
def weighRecord (e : VisitEntry) (interval : Int) : Record :=
  { kind := .weighRecord
    key := 0
    content := e.fields ++ u32 interval ++ bytes32 (orZero e.bound) }

/-- A first weighing's job has completed (R127), and a summary kept for its entry is written (R132). -/
def State.firstWeighCompleted (s : State) : State :=
  match s.capture with
  | some c =>
    match s.placeOf (c.visit.getD 0) with
    | some i =>
      match s.place i with
      | some v =>
        let e := v.entry
        let held := (s.setPlace i (some { v with status := .held, kept := none })).showVisitCount
        let placed := held.placeReserved (weighRecord e (c.e.getD 0))
        let answered :=
          placed.endCapture c.slot .done
            (bytes32 e.number ++ s32 e.weight ++ bytes32 e.time ++ bytes32 e.epoch ++ bytes32 (orZero e.bound))
        match v.kept with
        | some m => answered.writeSummary i { v with status := .held } m
        | none => answered
      | none => s
    | none => s
  | none => s

/-- A first weighing's job has failed (R127). -/
def State.firstWeighFailed (s : State) : State :=
  match s.capture with
  | some c =>
    let dropped :=
      match s.placeOf (c.visit.getD 0) with
      | some i => s.setPlace i none
      | none => s
    dropped.releaseReservation.endCapture c.slot .storeFault []
  | none => s

/-- The SECOND_WEIGH DONE body (12.6). -/
def Ticket.answerBody (t : Ticket) : List Byte :=
  bytes32 t.number ++ bytes32 t.visit.number ++ s32 t.visit.weight ++ s32 t.weight2 ++ s32 t.gross ++ s32 t.tare
    ++ s32 t.net ++ bytes16 t.flags

/-- A ticket job has completed: the commit, the removal of the entry and the placing of the TICKET record are one
event (R141, R128). -/
def State.ticketCompleted (s : State) : State :=
  match s.capture, s.tickets.job with
  | some c, some (t, _) =>
    let removed := s.commitTicket.removeVisit t.visit.number
    (removed.placeReserved t.record).endCapture c.slot .done t.answerBody
  | _, _ => s

/-- A ticket job has failed (R142, R128). -/
def State.ticketFailed (s : State) : State :=
  match s.capture, s.tickets.job with
  | some c, some (t, _) =>
    ((s.dropTicket.setStatus t.visit.number .held).releaseReservation).endCapture c.slot .storeFault []
  | _, _ => s

end Sys2Proof.Machine
end

