-- ==== Sys2Proof/Machine/SessionUnit.lean ====
section
/-! DEFINITION. The seal line and the calibration session (chapter 10): opening, staging, measurements, tests,
commit, installation and closing. -/

namespace Sys2Proof.Machine

/-! The state of the session (R163). -/

/-- The session's state changed, with the header's copy (R163). -/
def State.setSession (s : State) (st : SessionState) : State :=
  ({ s with session := { s.session with state := st } } : State).writeWord hdrSession (BitVec.ofNat 16 st.code)

/-- IN_TEST set or cleared on every deck that can carry it (R46). -/
def State.setInTest (s : State) (on : Bool) : State :=
  allDecks.foldl (fun t d => t.mapFlags d fun f => { f with inTest := on }) s

/-- The session returns to CLOSED (R163): IN_TEST clears, the SESSION cause ends, and the staged set, the test list,
the provisional means and the commit record are discarded. -/
def State.endSession (s : State) : State :=
  let closed := ((s.setSession .closed).setInTest false).unmarkCause .session
  { closed with
    session :=
      { closed.session with
        staged := none
        revision := 0
        tests := []
        provisional := []
        idle := 0
        commit := none
        stored := false } }

/-- A session closes without installation (R176): the effects, the audit entry, and the flag-clearing row unless
the latch is set. -/
def State.closeSession (s : State) (kind : AuditKind) : State :=
  let written := s.endSession.writeAudit kind []
  if written.store.latch then written else written.requestJob .closeSession [.counters (.session false)]

/-- An order handed to the session while OPEN restarts the idle count (R177). -/
def State.touchIdle (s : State) : State :=
  if s.session.state = .opened then { s with session := { s.session with idle := 0 } } else s

/-- The active set's image; a set that stands in has the epoch in force (R181, R182, assumption 33). -/
def State.activeImage (s : State) : MetroImage :=
  ⟨s.metro.active, s.metro.epoch⟩

/-! Provisional means (R166). -/

/-- A cell that keeps a provisional mean: the staged set maps it to an enabled deck and the active set does not. -/
def provisionalCell (staged active : MetroSet) (c : CellId) : Bool :=
  (staged.fittedTo c).isSome && (active.fittedTo c).isNone

/-- The staged filter length of a cell's staged deck. -/
def stagedLength (staged : MetroSet) (c : CellId) : Nat :=
  match staged.fittedTo c with
  | some d => staged.lengthOf d
  | none => 0

/-- The provisional histories under a new staged set: kept where the cell's staged deck and its filter length are
as before, and empty where they are new (R166). -/
def refreshProvisional (old : List Provisional) (before after active : MetroSet) : List Provisional :=
  (allCells.filter (provisionalCell after active)).map fun c =>
    match old.find? fun p => p.cell == c with
    | some p =>
      if before.deckOf c = after.deckOf c ∧ stagedLength before c = stagedLength after c then p else ⟨c, [], 0⟩
    | none => ⟨c, [], 0⟩

/-- A provisional history at a frame cadence event: a GOOD count enters, any other status empties it (R166). -/
def Provisional.take (p : Provisional) (staged : MetroSet) (count : Int) (status : CellStatus) : Provisional :=
  if status = .good then
    let n := stagedLength staged p.cell
    { p with history := enterHistory n p.history count, sum := enterSum n p.history p.sum count }
  else { p with history := [], sum := 0 }

/-- The provisional mean, once the history holds its length (R166). -/
def Provisional.mean (p : Provisional) (staged : MetroSet) : Option Int :=
  let n := stagedLength staged p.cell
  if p.history.length = n ∧ 0 < n then some (roundDiv p.sum n) else none

/-- The session's work on the frame of a frame cadence event (R166). -/
def State.takeProvisional (s : State) (f : Frame) : State :=
  match s.session.staged with
  | some m =>
    { s with
      session :=
        { s.session with
          provisional :=
            s.session.provisional.map fun p =>
              let w := f.cells.getD p.cell.val (0, .notFitted)
              p.take m w.1 w.2 } }
  | none => s

/-- The last frame reaches the provisional means. A frame cadence event does so next to its computation, so that the
raw and the provisional means are one consistent set at every moment (R166, R168, assumption 59). -/
def State.feedProvisional (s : State) : State :=
  match s.link.lastFrame with
  | some f => s.takeProvisional f
  | none => s

/-- The mean that a measurement reads for a cell: the provisional mean where one is kept, and otherwise the raw
mean (section 10.5, R43). -/
def State.meanOf (s : State) (staged : MetroSet) (c : CellId) : Option Int :=
  match s.session.provisional.find? fun p => p.cell == c with
  | some p => p.mean staged
  | none => (s.chain.cells.getD c.val CellChain.start).mean

/-! Opening (R164, R165). -/

/-- OPEN_SESSION, judged in the sweep that takes it (R164). While COMMITTING under a seal changed to SEALED, step 1
of R164 gives SEAL_CLOSED and R174 SESSION_OPEN: R164's order of steps is followed (assumption 47). -/
def State.openSessionOrder (s : State) (k : SlotId) : State :=
  let handed := s.touchIdle
  if handed.sealLine.state = .sealed then handed.answer k .sealClosed []
  else if handed.capture.isSome then handed.answer k .platformBusy []
  else if handed.session.state ≠ .closed then handed.answer k .sessionOpen []
  else if handed.store.latch then handed.answer k .storeFault []
  else
    let m := handed.metro.active
    let staged : State :=
      { handed with
        session :=
          { handed.session with
            staged := some m
            revision := 0
            tests := []
            provisional := refreshProvisional [] m m m
            idle := 0
            commit := none
            opens := handed.session.opens + 1
            stored := false } }
    let opened := ((staged.setSession .opened).setInTest true).markCause .session
    let written := opened.writeAudit .sessionOpened (bytes32 opened.activeImage.crc)
    written.requestJob (.openSession k written.session.opens) [.counters (.session true)]

/-- The opening job has completed (R165). -/
def State.openCompleted (s : State) (k : SlotId) : State :=
  s.answer k .done (bytes32 s.metro.epoch)

/-- The session is still the one that an order opened (R165). -/
def State.isSession (s : State) (n : Nat) : Bool :=
  s.session.state != .closed && s.session.opens == n

/-- The opening job has failed (R165). -/
def State.openFailed (s : State) (k : SlotId) (n : Nat) : State :=
  (if s.isSession n then s.closeSession .sessionAborted else s).answer k .storeFault []

/-! STAGE_PARAMS (R167). -/

/-- An entry of a parameter image. -/
structure ParamEntry where
  id : Nat
  index : Nat
  value : Int
  deriving DecidableEq, Repr

/-- Entry `k` of the image in the staging area, its value read as signed or unsigned by its id (12.8). -/
def State.imageEntry (s : State) (k : Nat) : ParamEntry :=
  let id := (s.staging16 (4 + 8 * k)).toNat
  let raw := s.staging32 (4 + 8 * k + 4)
  { id := id
    index := (s.staging16 (4 + 8 * k + 2)).toNat
    value := if paramSigned id then raw.toInt else (raw.toNat : Int) }

/-- An entry has a known id, an index in its range and a value in its range (R167, pass 2). -/
def ParamEntry.ok (p : ParamEntry) : Bool :=
  decide (p.index < paramCount p.id) && paramInRange p.id p.value

/-- The index of the first entry that satisfies a test, from `n` on. -/
def firstEntry (p : ParamEntry → Bool) (n : Nat) : List ParamEntry → Option Nat
  | [] => none
  | e :: es => if p e then some n else firstEntry p (n + 1) es

/-- The entries applied in order (R167, pass 3). -/
def applyParams (m : MetroSet) (es : List ParamEntry) : MetroSet :=
  es.foldl (fun t e => t.put e.id e.index e.value) m

/-- The staged set replaced: the revision rises by one, from 65,535 to 1 (R167, R169, R170). -/
def State.restage (s : State) (m : MetroSet) : State :=
  match s.session.staged with
  | some before =>
    { s with
      session :=
        { s.session with
          staged := some m
          revision := if s.session.revision = 65535 then 1 else s.session.revision + 1
          provisional := refreshProvisional s.session.provisional before m s.metro.active } }
  | none => s

/-- STAGE_PARAMS, judged in the sweep that takes it (R167). -/
def State.stageOrder (s : State) (k : SlotId) : State :=
  match s.session.state, s.session.staged with
  | .opened, some m =>
    let t := s.touchIdle
    let n := (t.staging16 0).toNat
    if n < 1 ∨ 128 < n then t.badParam k 65535
    else
      let es := (List.range n).map t.imageEntry
      match firstEntry (fun e => !e.ok) 0 es with
      | some i => t.badParam k i
      | none =>
        let copy := applyParams m es
        match copy.firstFailure with
        | some (c, d) => t.badParam k ((firstEntry (fun e => takesPart copy e.id e.index c d) 0 es).getD 0)
        | none =>
          let staged := t.restage copy
          staged.answer k .done (u16 staged.session.revision)
  | _, _ => s.answer k .sessionClosed []

/-! Measurements (R168 to R172). -/

/-- The mean of a cell where every mean is present; read only after the checks of R168. -/
def State.meansFor (s : State) (staged : MetroSet) (c : CellId) : Int :=
  (s.meanOf staged c).getD 0

/-- A named deck fails the first pass of R168. -/
def State.measureNotReady (s : State) (staged : MetroSet) (d : DeckId) : Bool :=
  let f := (s.snapOf d).flags
  s.link.state != .live
    || (s.metro.active.isEnabled d && (f.linkFault || f.degraded || f.filling))
    || (staged.cellsOf d).any (fun c =>
      (s.cell c).state == .faulted || (s.cell c).state == .recovered || (s.meanOf staged c).isNone)

/-- A named deck fails the second pass of R168. -/
def State.measureNotStill (s : State) (d : DeckId) : Bool :=
  s.metro.active.isEnabled d && (s.snapOf d).flags.motion

/-- The checks of R168 up to the evaluation: what they answer, if one fails. -/
def State.measureRefusal (s : State) (staged : MetroSet) (ds : List DeckId) : Option (AnswerCode × Nat) :=
  if !(ds.all staged.isEnabled) then some (.badParam, 0)
  else
    match ds.find? (s.measureNotReady staged) with
    | some d => some (.notReady, d.val)
    | none =>
      match ds.find? s.measureNotStill with
      | some d => some (.notStill, d.val)
      | none => none

/-- A measurement in OPEN: the idle count, the checks of R168, and then the order's own steps. -/
def State.measure (s : State) (k : SlotId) (ds : List DeckId) (f : State → MetroSet → State) : State :=
  match s.session.state, s.session.staged with
  | .opened, some m =>
    let t := s.touchIdle
    match t.measureRefusal m ds with
    | some (code, n) => t.answer k code (u16 n)
    | none => f t m
  | _, _ => s.answer k .sessionClosed []

/-- An evaluation that saturates a cell is answered CELL_SATURATED (R168); otherwise the order goes on. -/
def State.unlessSaturated (s : State) (k : SlotId) (m : MetroSet) (ds : List DeckId) (f : State) : State :=
  match evaluateSaturated m (s.meansFor m) ds with
  | some c => s.answer k .cellSaturated (u16 c.val)
  | none => f

/-- The staged set after ZERO_CAL (R169). -/
def zeroCalSet (m : MetroSet) (means : CellId → Int) (ds : List DeckId) : MetroSet :=
  let zeros := (allCells.filter fun c => ds.any fun d => m.deckOf c == some d).foldl
    (fun t c => t.put 2 c.val (means c)) m
  ds.foldl (fun t d => t.put 13 d.val 0) zeros

/-- ZERO_CAL, judged in the sweep that takes it (R169). -/
def State.zeroCalOrder (s : State) (k : SlotId) : State :=
  let ds := maskDecks (s.order16 k 0)
  s.measure k ds fun t m =>
    t.unlessSaturated k m ds
      (let staged := t.restage (zeroCalSet m (t.meansFor m) ds)
       staged.answer k .done (u16 staged.session.revision))

/-- The gain that makes a deck's mass equal a reference mass (R170). -/
def spanGain (reference total : Int) : Int :=
  clamp 1 4294967295 (roundDiv (reference * 65536) total)

/-- SPAN_CAL, judged in the sweep that takes it (R170). A deck above 3 is not enabled in the staged set, so an OPEN
session answers BAD_PARAM naming the deck parameter (R168, assumption 22). -/
def State.spanCalOrder (s : State) (k : SlotId) : State :=
  let d := Fin.ofNat 4 (s.order16 k 0).toNat
  let reference := (s.order32 k 2).toInt
  if 3 < (s.order16 k 0).toNat then s.measure k [] fun t _ => t.badParam k 0
  else
    s.measure k [d] fun t m =>
      if m.maxOf d < reference then t.badParam k 1
      else
        t.unlessSaturated k m [d]
          (let total := evaluateSum m (t.meansFor m) d
           if total < 1000 then t.badParam k 1
           else
             let gain := spanGain reference total
             let staged := t.restage (m.put 5 d.val gain)
             staged.answer k .done (s32 total ++ u32 gain ++ u16 staged.session.revision))

/-- One cell of a CORNER_READ answer: its number and its mean less its staged zero (R171). -/
def cornerEntry (m : MetroSet) (means : CellId → Int) (c : CellId) : List Byte :=
  u16 c.val ++ s32 (means c - m.get 2 c.val)

/-- CORNER_READ, judged in the sweep that takes it (R171). -/
def State.cornerReadOrder (s : State) (k : SlotId) : State :=
  let d := Fin.ofNat 4 (s.order16 k 0).toNat
  let first := (s.order16 k 2).toNat
  s.measure k [d] fun t m =>
    t.unlessSaturated k m [d]
      (let cells := m.cellsOf d
       let listed := (cells.filter fun c => decide (first ≤ c.val)).take 10
       t.answer k .done
         (u16 cells.length ++ u16 t.session.revision ++ listed.flatMap (cornerEntry m (t.meansFor m))))

/-- The maximum permissible error of a reference load (R172). -/
def permissibleError (e reference : Int) : Int :=
  if reference ≤ 500 * e then e / 2
  else if reference ≤ 2000 * e then e
  else 3 * e / 2

/-- The indication of the masked decks under the staged set (R172, step 2). -/
def indication (m : MetroSet) (means : CellId → Int) (ds : List DeckId) : Int :=
  match ds with
  | [d] => (evaluateDeck m means d).fine
  | _ => evaluatePlatform m means ds

/-- The test entry in an answer (12.6). The code of the result is a free value (assumption 13). -/
def TestEntry.body (t : TestEntry) : List Byte :=
  u16 t.revision ++ u16 t.mask ++ u16 t.kind.code ++ s32 t.reference ++ s32 t.indication ++ s32 t.error ++ s32 t.mpe
    ++ bytes16 (Config.testResultCode t.passed)

/-- The entry that a test makes (R172, steps 2 to 6). -/
def makeTest (m : MetroSet) (means : CellId → Int) (revision mask : Nat) (ds : List DeckId) (kind : TestKind)
    (reference : Int) : TestEntry :=
  let shown := indication m means ds
  let error := shown - reference
  let mpe := permissibleError m.e reference
  { revision := revision
    mask := mask
    kind := kind
    reference := reference
    indication := shown
    error := error
    mpe := mpe
    passed := decide ((error.natAbs : Int) ≤ mpe) }

/-- TEST_LOAD, judged in the sweep that takes it (R172). -/
def State.testLoadOrder (s : State) (k : SlotId) : State :=
  let mask := s.order16 k 0
  let ds := maskDecks mask
  let reference := (s.order32 k 2).toInt
  let kind := TestKind.ofCode (s.order16 k 6).toNat
  s.measure k ds fun t m =>
    if 32 ≤ t.session.tests.length then t.answer k .listFull []
    else
      t.unlessSaturated k m ds
        (let entry := makeTest m (t.meansFor m) t.session.revision mask.toNat ds kind reference
         let place := t.session.tests.length
         let listed : State := { t with session := { t.session with tests := t.session.tests ++ [entry] } }
         listed.answer k .done (u16 place ++ entry.body))

/-! Commit (R173, R174). -/

/-- A deck's weighing fields differ between two sets (R173). -/
def deckChanged (a b : MetroSet) (d : DeckId) : Bool :=
  let cells := allCells.filter fun c => a.deckOf c == some d || b.deckOf c == some d
  let differs := fun (id index : Nat) => a.get id index != b.get id index
  cells.any (fun c => differs 1 c.val || differs 2 c.val || differs 3 c.val)
    || [4, 5, 6, 7, 10, 11, 12, 13].any (fun id => differs id d.val)
    || a.pointsOf d != b.pointsOf d
    || a.e != b.e

/-- The place of the first failed test at a revision, from `n` on (R173, step 2). Where several have failed, the rule
says "that test's place" and not which one: the first in the list is named (assumption 48). -/
def failedTest (revision n : Nat) : List TestEntry → Option Nat
  | [] => none
  | t :: ts => if t.revision = revision ∧ t.passed = false then some n else failedTest revision (n + 1) ts

/-- A deck is in the mask of a passing test at a revision (R173, step 3). -/
def deckTested (revision : Nat) (tests : List TestEntry) (d : DeckId) : Bool :=
  tests.any fun t => t.revision == revision && t.passed && t.mask.testBit d.val

/-- The rows of an image in its place, which its epoch's parity names (R174, R178). -/
def imageRows (i : MetroImage) : List RowWrite :=
  (List.range 9).map fun r => .image (i.epoch.toNat % 2) r i

/-- The commit is taken: the commit record, COMMITTING, and the store job (R173, step 6; R174). -/
def State.beginCommit (s : State) (k : SlotId) (staged : MetroSet) (params : List Nat) : State :=
  let epoch := s.metro.epoch + 1
  let image : MetroImage := ⟨staged, epoch⟩
  let recorded : State :=
    { s with
      session :=
        { s.session with
          commit :=
            some
              { slot := k
                changedDecks := allDecks.filter (deckChanged staged s.metro.active)
                changedCount := params.length
                listed := params.take 40
                oldCrc := s.activeImage.crc
                newCrc := image.crc
                epoch := epoch } } }
  (recorded.setSession .committing).requestJob (.commit k s.session.opens)
    (imageRows image ++ [.counters (.commit epoch)])

/-- COMMIT_SESSION, judged in the sweep that takes it (R173). -/
def State.commitOrder (s : State) (k : SlotId) : State :=
  match s.session.state, s.session.staged with
  | .opened, some m =>
    let t := s.touchIdle
    let params := changedParams m t.metro.active
    match failedTest t.session.revision 0 t.session.tests with
    | some place => t.answer k .unverified (u16 0 ++ u16 place)
    | none =>
      let untested := fun (d : DeckId) =>
        deckChanged m t.metro.active d && m.isEnabled d && !deckTested t.session.revision t.session.tests d
      match allDecks.find? untested with
      | some d => t.answer k .unverified (u16 1 ++ u16 d.val)
      | none =>
        if params.isEmpty then
          (t.closeSession .sessionClosed).answer k .done (bytes32 t.metro.epoch ++ u16 0 ++ u16 1)
        else if t.store.latch then t.answer k .storeFault []
        else t.beginCommit k m params
  | _, _ => s.answer k .sessionClosed []

/-- The COMMIT detail (12.7): the numbers listed, or a list marked absent. -/
def commitDetail (oldCrc newCrc : W32) (count : W16) (listed : Option (List Nat)) (restored : Bool) : List Byte :=
  let list :=
    match listed with
    | some ns => u8 ns.length ++ u8 (bit restored) ++ ns.map (BitVec.ofNat 8)
    | none => u8 255 ++ u8 (bit restored)
  let bytes := bytes32 oldCrc ++ bytes32 newCrc ++ bytes16 count ++ list
  padTo ((bytes.length + 3) / 4 * 4) bytes

/-- The commit job has completed (R174): the retained epoch has risen with the counters row, and the COMMIT entry
is written at the same event. The next cadence event installs the set. -/
def State.commitCompleted (s : State) : State :=
  match s.session.commit with
  | some c =>
    let written := s.writeAudit .commit (commitDetail c.oldCrc c.newCrc (field16 c.changedCount) (some c.listed) false)
    { written with session := { written.session with stored := true } }
  | none => s

/-- The commit job has failed (R176). -/
def State.commitFailed (s : State) (k : SlotId) (n : Nat) : State :=
  (if s.isSession n then s.closeSession .sessionAborted else s).answer k .storeFault []

/-! Installation (R175, R42, R12, R58, R59). -/

/-- A cell's state under an installed set (R12). -/
def installCell (m : MetroSet) (c : CellId) (x : Cell) : Cell :=
  match m.fittedTo c, x.state with
  | some _, .unfitted => { Cell.start with state := .active }
  | some _, .active => x
  | some _, .faulted => x
  | some _, .recovered => x
  | none, _ => Cell.start

/-- The chain's values of a deck under an installed set (R42). -/
def installChainDeck (old m : MetroSet) (d : DeckId) (x : DeckChain) : DeckChain :=
  if m.isEnabled d && old.isEnabled d then { x with history := [], fill := 0, running := 0 } else DeckChain.start

/-- What the monitor keeps of a deck under an installed set (R42, R58, R59), its DEGRADED still to be judged. -/
def installMonitorDeck (old m : MetroSet) (changed : List DeckId) (linkFault : Bool) (d : DeckId) (x : DeckMonitor) :
    DeckMonitor :=
  if m.isEnabled d then
    let fresh := !old.isEnabled d
    let touched := fresh || decide (d ∈ changed)
    { flags :=
        { filling := true
          degraded := x.flags.degraded
          linkFault := if fresh then linkFault else x.flags.linkFault
          inTest := false
          uncalibrated := false
          zeroUnset := if touched then false else x.flags.zeroUnset
          overload := x.flags.overload
          under := x.flags.under
          motion := true }
      window := []
      fill := 0
      zero := if touched then m.zcalOf d else x.zero
      zeroRef := if touched then m.zcalOf d else x.zeroRef
      watch := if touched then .ended else x.watch
      limitMark := if touched then false else x.limitMark
      zeroed := if touched then false else x.zeroed }
  else
    { flags := DeckFlags.none
      window := []
      fill := 0
      zero := m.zcalOf d
      zeroRef := m.zcalOf d
      watch := .ended
      limitMark := false
      zeroed := false }

/-- The notices of the cells whose state an installation has changed (R12), in ascending order of the cells
(assumption 54). -/
def State.noticeChanged (s : State) (before : List Cell) : State :=
  allCells.foldl
    (fun t c => if (before.getD c.val Cell.start).state = (t.cell c).state then t else t.cellNotice c) s

/-- SESSION_INSTALL is due at a cadence event: the commit job has completed (R175). -/
def State.installDue (s : State) : Bool :=
  s.session.stored && s.session.staged.isSome && s.session.commit.isSome

/-- SESSION_INSTALL (R175). -/
def State.installSet (s : State) : State :=
  match s.session.stored, s.session.staged, s.session.commit with
  | true, some m, some r =>
    let old := s.metro.active
    let linkFault := s.link.state != .live
    let installed : State :=
      { s with
        metro := { active := m, epoch := r.epoch, standIn := false }
        chain :=
          { s.chain with
            cells := s.chain.cells.map fun x => { x with history := [], sum := 0 }
            decks := s.chain.decks.map (installChainDeck old m) }
        cells := mapCells s.cells Cell.start (installCell m)
        back := { s.back with queue := s.back.queue.filter fun c => (m.fittedTo c).isSome }
        monitor :=
          { s.monitor with decks := s.monitor.decks.map (installMonitorDeck old m r.changedDecks linkFault) } }
    let degraded := allDecks.foldl State.judgeDegraded installed
    let noticed := degraded.noticeChanged s.cells
    ((noticed.writeLong hdrEpoch r.epoch).endSession).answer r.slot .done
      (bytes32 r.epoch ++ u16 r.changedCount ++ u16 0)
  | _, _, _ => s

/-- ABORT_SESSION, judged in the sweep that takes it (R176). -/
def State.abortOrder (s : State) (k : SlotId) : State :=
  if s.session.state = .opened then (s.closeSession .sessionAborted).answer k .done []
  else s.answer k .sessionClosed []

/-- READ_METROLOGY, answered in the sweep that takes it (R182). The bytes of the staging area beyond the image keep
what they held (assumption 66). -/
def State.readMetrologyOrder (s : State) (k : SlotId) : State :=
  let t := s.touchIdle
  let image := t.activeImage
  (t.writeRun stagingBase image.bytes).answer k .done
    (bytes32 image.epoch ++ bytes32 image.crc ++ u16 (bit t.metro.standIn))

/-! The idle count (R177). -/

/-- SESSION_EXPIRED is due: the idle count of an OPEN session has reached 360,000. -/
def State.idleDue (s : State) : Bool :=
  s.session.state == .opened && decide (360000 ≤ s.session.idle)

/-- SESSION_EXPIRED (R177). -/
def State.expireSession (s : State) : State :=
  if s.idleDue then s.closeSession .sessionExpired else s

/-- The session's work at a cadence event: the idle count (R177). SESSION_INSTALL and SESSION_EXPIRED follow it. -/
def State.workSession (s : State) : State :=
  if s.session.state = .opened then { s with session := { s.session with idle := s.session.idle + 1 } } else s

/-! The seal line (R162, R177). -/

/-- SEAL_CHANGE (R162): the seal state changes, the audit entry and the notice follow, and a change to SEALED breaks
an OPEN session. -/
def State.changeSeal (s : State) (level : SealLevel) : State :=
  if s.sealLine.settled && s.sealLine.state != level then
    let changed : State := { s with sealLine := { s.sealLine with state := level } }
    let kind := if level = .opened then AuditKind.sealOpened else .sealClosed
    let written := changed.writeAudit kind (u8 changed.session.state.code ++ u8 0 ++ u8 0 ++ u8 0)
    let noticed := written.notice .sealLine 0 (sealCode level) 0 []
    if level = .sealed ∧ noticed.session.state = .opened then noticed.closeSession .sessionBroken else noticed
  else s

/-- SEAL_INITIAL (R162): the first four samples after a reset fix the state; an OPEN seal is written, marked "at
start-up", and no notice is placed. -/
def State.initialSeal (s : State) (level : SealLevel) : State :=
  if s.sealLine.settled then s
  else
    let fixed : State := { s with sealLine := { state := level, settled := true } }
    if level = .opened then
      fixed.writeAudit .sealOpened (u8 fixed.session.state.code ++ u8 1 ++ u8 0 ++ u8 0)
    else fixed

end Sys2Proof.Machine
end

