-- ==== Sys2Proof/Machine/SiteClock.lean ====
section
/-! DEFINITION. The site settings (R114 to R116) and the engine clock (R117). -/

namespace Sys2Proof.Machine

/-- The ranges of the fields (section 6.6). -/
def siteRange (n : Nat) : Nat × Nat :=
  match n with
  | 0 => (2, 50)
  | 1 => (200, 1000)
  | 2 => (300, 2000)
  | 3 => (2, 10)
  | 4 => (1000, 3000)
  | 5 => (6000, 20000)
  | 6 => (0, 1)
  | 7 => (1, 120)
  | 8 => (1, 1000)
  | 9 => (1, 100)
  | _ => (0, 720)

/-- A field lies in its range. -/
def siteFieldOk (x : Site) (n : Nat) : Bool :=
  let v := x.fields.getD n 0
  decide ((siteRange n).1 ≤ v) && decide (v ≤ (siteRange n).2)

/-- The first field out of range (R114). -/
def Site.badField (x : Site) : Option Nat :=
  (List.range 11).find? fun n => !siteFieldOk x n

/-- The site image in the staging area (R114). -/
def State.imageSite (s : State) : Site :=
  siteOf fun n => (s.staging16 (2 * n)).toNat

/-- SET_SITE, judged in the sweep that takes it (R114). -/
def State.setSiteOrder (s : State) (k : SlotId) : State :=
  if s.store.latch then s.answer k .storeFault []
  else
    match s.imageSite.badField with
    | some n => s.badParam k n
    | none => s.requestJob (.site k s.imageSite) [.site s.imageSite]

/-- The SET_SITE job has completed: the working copy takes the image whole (R114). -/
def State.siteCompleted (s : State) (k : SlotId) (x : Site) : State :=
  ({ s with site := x } : State).answer k .done []

/-- READ_SITE, answered in the sweep that takes it (R115). -/
def State.readSiteOrder (s : State) (k : SlotId) : State :=
  (s.writeRun stagingBase (s.site.fields.flatMap fun (n : Nat) => u16 n)).answer k .done []

/-- Engine time and the flag, with their header copies (R117). -/
def State.setTime (s : State) (c : EngineClock) : State :=
  (({ s with time := c } : State).writeLong hdrTime c.time).writeWord hdrClockSet (BitVec.ofNat 16 (bit c.isSet))

/-- The CLOCK_SET record (12.7). -/
def clockRecord (previous now : W32) (was : Bool) : Record :=
  { kind := .clockSet
    key := 0
    content := bytes32 previous ++ bytes32 now ++ u16 (bit was) ++ u16 0 }

/-- SET_CLOCK, in the sweep that takes it (R117). -/
def State.setClockOrder (s : State) (k : SlotId) : State :=
  let now := s.order32 k 0
  let was := s.time
  let changed := s.setTime { time := now, isSet := true, second := 0 }
  (changed.record (clockRecord was.time now was.isSet)).answer k .done (bytes32 was.time ++ u16 (bit was.isSet))

/-- ENGINE_TIME_ADVANCE is due: the second count has reached 200 (R117). -/
def State.secondDue (s : State) : Bool :=
  decide (200 ≤ s.time.second)

/-- ENGINE_TIME_ADVANCE (R117), with the expiry pass that a whole hour begins (R135). -/
def State.advanceTime (s : State) : State :=
  if s.secondDue then (s.setTime { s.time with time := s.time.time + 1, second := 0 }).beginExpiry else s

/-- The engine clock's work at a cadence event (R117). ENGINE_TIME_ADVANCE follows it. -/
def State.workClock (s : State) : State :=
  { s with time := { s.time with second := s.time.second + 1 } }

end Sys2Proof.Machine
end

