-- ==== Sys2Proof/Machine/StoreQueue.lean ====
section
/-! DEFINITION. The retained store at work (R178 to R180): the queue, one row write with its comparison, a job's
completion and its failure. -/

namespace Sys2Proof.Machine

/-! The rows (R178). -/

/-- A row of a place replaced. -/
def setRow (places : List (List Row)) (place row : Nat) (v : Row) : List (List Row) :=
  places.modify place fun r => r.set row v

/-- The current copy of the counters row: the place that checks and whose generation is the higher one (R178).
True for the second place. -/
def Rows.currentSecond (r : Rows) : Bool :=
  match r.countersAt false, r.countersAt true with
  | some a, some b => decide (a.generation < b.generation)
  | none, some _ => true
  | _, _ => false

/-- The counters row as it reads, if either place checks (R178). -/
def Rows.countersRow (r : Rows) : Option CountersRow :=
  r.countersAt r.currentSecond

/-- The counters that a write puts in the row: the change, every other counter as it stands, and the audit serial
of the moment (R178, R184). -/
def State.composeCounters (s : State) (c : CountersChange) : Counters :=
  let now := { s.store.counters with auditSerial := s.audit.last }
  match c with
  | .visit n => { now with visitCounter := n }
  | .ticket n closed => { now with lastTicket := n, closedVisit := closed }
  | .session flag => { now with sessionOpen := flag }
  | .commit epoch => { now with epoch := epoch, sessionOpen := false }
  | .asTheyStand => now

/-- The place of the counters row that is not current takes a content (R178). -/
def Rows.putCounters (r : Rows) (v : Row) : Rows :=
  if r.currentSecond then { r with counters0 := v } else { r with counters1 := v }

/-- The counters row written to the place that is not current, under the next generation (R178). -/
def Rows.writeCounters (r : Rows) (c : Counters) : Rows :=
  let generation :=
    match r.countersRow with
    | some x => x.generation + 1
    | none => 1
  r.putCounters (some (CountersRow.stored ⟨c, generation⟩))

/-- The place of a counters write that failed or was cut short holds nothing that reads as newer: the row reads as
before that write, whatever is left there (R178). -/
def Rows.spoilCounters (r : Rows) (left : Residue) : Rows :=
  match left with
  | .old => r
  | .corrupt | .new | .other _ => r.putCounters none

/-- The row that a write writes, other than the counters row, takes a content. -/
def Rows.setContent (r : Rows) (w : RowWrite) (v : Row) : Rows :=
  match w with
  | .image place row _ =>
    if place = 0 then { r with image0 := r.image0.set row v } else { r with image1 := r.image1.set row v }
  | .counters _ => r
  | .visit place row _ => { r with visits := setRow r.visits place row v }
  | .freeVisit place => { r with visits := setRow r.visits place 0 v }
  | .ticket place row _ => { r with tickets := setRow r.tickets place row v }
  | .freeTicket place => { r with tickets := setRow r.tickets place 0 v }
  | .audit e => { r with audit := r.audit.set (e.serial.toNat % 128) v }
  | .classRow n _ => { r with classes := r.classes.set n v }
  | .site _ => { r with site := v }

/-- The 64 bytes that a write puts in its row: its row of what it stores. A row that frees its place takes contents
that do not check (assumption 9). The counters row is composed when it is written. -/
def RowWrite.content (w : RowWrite) : Row :=
  match w with
  | .image _ row i => some (i.row row)
  | .counters _ => none
  | .visit _ row e => some (rowOf e.stored row)
  | .freeVisit _ => none
  | .ticket _ row c => some (rowOf c.stored row)
  | .freeTicket _ => none
  | .audit e => some e.stored
  | .classRow _ c => some c.stored
  | .site x => some x.stored

/-- A row other than the counters row is written. -/
def Rows.putRow (r : Rows) (w : RowWrite) : Rows :=
  r.setContent w w.content

/-- A row is written and verified. The counters row is the commit point: from that moment its content is what the
counters read as (R178). -/
def State.writeRow (s : State) (w : RowWrite) : State :=
  match w with
  | .counters change =>
    let c := s.composeCounters change
    { s with store := { s.store with rows := s.store.rows.writeCounters c, counters := c } }
  | _ => { s with store := { s.store with rows := s.store.rows.putRow w } }

/-- A row other than the counters row with what is left in it (assumption 10). -/
def Rows.leaveRow (r : Rows) (w : RowWrite) (left : Residue) : Rows :=
  match left with
  | .old => r
  | .corrupt => r.setContent w none
  | .new => r.putRow w
  | .other row => r.setContent w (some (padTo 64 (row.take 64)))

/-- A row whose write failed or was cut short holds what is left there (R178, assumption 10). -/
def State.leaveRow (s : State) (w : RowWrite) (left : Residue) : State :=
  match w with
  | .counters _ => { s with store := { s.store with rows := s.store.rows.spoilCounters left } }
  | _ => { s with store := { s.store with rows := s.store.rows.leaveRow w left } }

/-! The queue (R179). -/

/-- The row requests in the queue. -/
def Store.queued (x : Store) : Nat :=
  (x.queue.map fun j => j.rows.length).sum

/-- The waiting job that was requested first enters the queue whole, when the queue has room for all of its rows
(R179). -/
def Store.enter (x : Store) : Store :=
  match x.waiting with
  | j :: rest => if x.queued + j.rows.length ≤ 16 then { x with queue := x.queue ++ [j], waiting := rest } else x
  | [] => x

/-- Every waiting job that the queue has room for enters it, in order. -/
def Store.enterAll (x : Store) : Nat → Store
  | 0 => x
  | n + 1 => x.enter.enterAll n

/-- The store takes in what waits before it writes a row (R179, assumption 31). -/
def State.enterJobs (s : State) : State :=
  { s with store := s.store.enterAll s.store.waiting.length }

/-! Completion and failure, job by job (R179, R180). -/

/-- The requester acts on a completed job. -/
def State.jobCompleted (s : State) (j : JobKind) : State :=
  match j with
  | .firstWeigh => s.firstWeighCompleted
  | .ticket => s.ticketCompleted
  | .summary _ => s
  | .voidVisit k n => s.voidCompleted k n
  | .expiry n => s.expiryCompleted n
  | .recall k i c => s.recallCompleted k i c
  | .openSession k _ => s.openCompleted k
  | .commit _ _ => s.commitCompleted
  | .closeSession => s
  | .classes k table => s.classesCompleted k table
  | .site k x => s.siteCompleted k x
  | .auditRow n => ({ s with audit := { s.audit with mark := nextSerial n, busy := false } } : State).auditPump
  | .startUp => s

/-- The requester acts on a failed job. -/
def State.jobFailed (s : State) (j : JobKind) : State :=
  match j with
  | .firstWeigh => s.firstWeighFailed
  | .ticket => s.ticketFailed
  | .summary _ => s
  | .voidVisit k n => s.voidFailed k n
  | .expiry n => s.expiryFailed n
  | .recall k _ c => s.recallFailed k c
  | .openSession k n => s.openFailed k n
  | .commit k n => s.commitFailed k n
  | .closeSession => s
  | .classes k _ => s.answer k .storeFault []
  | .site k _ => s.answer k .storeFault []
  | .auditRow _ => { s with audit := { s.audit with busy := false } }
  | .startUp => s

/-- The codes of partitions (12.7): metrology set 0, counters 1, visit table 2, recent tickets 3, audit log 4, class
table 5, site settings 6; with the row within its partition (assumption 25). -/
def RowWrite.address : RowWrite → Nat × Nat
  | .image place row _ => (0, 16 * place + row)
  | .counters _ => (1, 0)
  | .visit place row _ => (2, 3 * place + row)
  | .freeVisit place => (2, 3 * place)
  | .ticket place row _ => (3, 4 * place + row)
  | .freeTicket place => (3, 4 * place)
  | .audit e => (4, e.serial.toNat % 128)
  | .classRow n _ => (5, n)
  | .site _ => (6, 0)

/-- The codes of requesters (12.7). -/
def JobKind.requester : JobKind → Nat
  | .firstWeigh => 1
  | .summary _ => 2
  | .voidVisit _ _ => 2
  | .expiry _ => 2
  | .ticket => 3
  | .recall _ _ _ => 3
  | .openSession _ _ => 4
  | .commit _ _ => 4
  | .closeSession => 4
  | .classes _ _ => 5
  | .site _ _ => 6
  | .auditRow _ => 7
  | .startUp => 8

/-- The store-fault latch is set, with the header's flag and STORE (R180, step 1). -/
def State.setLatch (s : State) : State :=
  (({ s with store := { s.store with latch := true } } : State).writeWord hdrStoreFault 1).setCause causeStore

/-- A job fails at a row (R180): the latch, the failure of every other job, and the STORE_FAULT entry; then each
requester acts under its own rule, first that of the failed job, then those in the queue in their order and then those
waiting in theirs (assumption 65). -/
def State.failJob (s : State) (j : Job) (w : RowWrite) : State :=
  let others := s.store.queue.drop 1 ++ s.store.waiting
  let emptied : State := { s with store := { s.store with queue := [], waiting := [], retry := false } }
  let entered :=
    emptied.setLatch.writeAudit .storeFault (u8 w.address.1 ++ u8 j.kind.requester ++ u16 w.address.2)
  others.foldl (fun t o => t.jobFailed o.kind) (entered.jobFailed j.kind)

/-- The row just verified leaves its job, which completes with its last row (R179). -/
def State.finishRow (s : State) (j : Job) (w : RowWrite) (rest : List RowWrite) : State :=
  let written := s.writeRow w
  let jobs := written.store.queue.drop 1
  if rest.isEmpty then
    ({ written with store := { written.store with queue := jobs, retry := false } } : State).jobCompleted j.kind
  else { written with store := { written.store with queue := { j with rows := rest } :: jobs, retry := false } }

/-- The row being written, with its job and the rows after it. -/
def State.writing (s : State) : Option (Job × RowWrite × List RowWrite) :=
  match s.store.queue with
  | j :: _ =>
    match j.rows with
    | w :: rest => some (j, w, rest)
    | [] => none
  | [] => none

/-- STORE_ROW_WRITTEN (R179): a match moves on or completes the job, a first mismatch is written once more, a
second fails the job. -/
def State.rowWritten (s : State) (matched : Bool) (left : Residue) : State :=
  let t := s.enterJobs
  match t.writing with
  | none => t
  | some (j, w, rest) =>
    if matched then t.finishRow j w rest
    else if t.store.retry then (t.leaveRow w left).failJob j w
    else { t with store := { t.store with retry := true } }

/-- The row being written at an engine restart is finished and compared, with its retry if needed; then every
queued and waiting row is discarded without a report (R179). -/
def State.finishStore (s : State) (f : RowFinish) : State :=
  let t := s.enterJobs
  let finished :=
    match t.writing with
    | none => t
    | some (j, w, rest) =>
      if f.first || (!t.store.retry && f.second) then t.finishRow j w rest else (t.leaveRow w f.left).failJob j w
  { finished with store := { finished.store with queue := [], waiting := [], retry := false } }

/-- What a loss of power or a held reset leaves of the store: the row being written is indeterminate, and the queue
and the waiting jobs are gone (R178, R179). -/
def State.cutStore (s : State) (left : Residue) : State :=
  let t := s.enterJobs
  let cut :=
    match t.writing with
    | none => t
    | some (_, w, _) => t.leaveRow w left
  { cut with store := { cut.store with queue := [], waiting := [], retry := false } }

end Sys2Proof.Machine
end

