-- ==== Sys2Proof/Machine/OrderIntake.lean ====
section
/-! DEFINITION. The order intake (section 6.4): the checks of an order's parameters, the take of a slot, the sweep
and the withdrawals; and the orders to the cell link (R10). -/

namespace Sys2Proof.Machine

/-! The cell link's order (R10). -/

/-- The link's state changed, with the header's copy (R100). -/
def State.setLink (s : State) (st : LinkState) : State :=
  ({ s with link := { s.link with state := st } } : State).writeWord hdrLink (BitVec.ofNat 16 st.code)

/-- LINK_FAULT set or cleared on every enabled deck (R11). -/
def State.setLinkFault (s : State) (on : Bool) : State :=
  allDecks.foldl (fun t d => t.mapFlags d fun f => { f with linkFault := on }) s

/-- A condition notice for the link, giving its state. -/
def State.linkNotice (s : State) : State :=
  s.notice .link 0 s.link.state.code 0 []

/-- CLEAR_LINK, answered in the sweep that takes it (R10). -/
def State.clearLinkOrder (s : State) (k : SlotId) : State :=
  match s.link.state with
  | .resumed =>
    let live := (s.setLink .live).setLinkFault false
    ((live.writeAudit .linkRestored (u16 live.frameNumber ++ u16 0)).linkNotice).answer k .done []
  | .lost => s.answer k .stillLost []
  | .live => s.answer k .done []
  | .waiting => s.answer k .done []

/-! Parameters (R107, step 3). -/

/-- The number of an order's first parameter out of range, by its kind (R107). R122 and R133 check the reference as
R121 does. Only a range that a rule lays down for the order is checked: R134 gives FIND_VISIT none, and R170 ranges the
reference mass of SPAN_CAL alone. -/
def State.badOrderParam (s : State) (k : SlotId) (kind : OrderKind) : Option Nat :=
  let word := fun (x : Nat) => (s.order16 k x).toNat
  let maskBad := (maskDecks (s.order16 k 0)).isEmpty || decide (15 < word 0)
  match kind with
  | .clearCell => if 23 < word 0 then some 0 else none
  | .zero => if maskValid s.metro.active (s.order16 k 0) then none else some 0
  | .armClass => if 15 < word 0 then some 0 else none
  | .setSignals => signalsBadParam (word 0) (word 2) (word 4) (word 6)
  | .firstWeigh => if !vehicleValid (s.orderVehicle k) then some 0 else if 1 < word 16 then some 2 else none
  | .secondWeigh => if vehicleValid (s.orderVehicle k) then none else some 0
  | .voidVisit => if vehicleValid (s.orderVehicle k) then none else some 0
  | .zeroCal => if maskBad then some 0 else none
  | .spanCal => if (s.order32 k 2).toInt < 1000000 ∨ 200000000 < (s.order32 k 2).toInt then some 1 else none
  | .cornerRead => if 3 < word 0 then some 0 else if 23 < word 2 then some 1 else none
  | .testLoad =>
    if maskBad then some 0
    else if (s.order32 k 2).toInt < 0 ∨ 800000000 < (s.order32 k 2).toInt then some 1
    else if 2 < word 6 then some 2
    else none
  | .readAudit => if word 4 < 1 ∨ 16 < word 4 then some 1 else none
  | .clearLink | .loadClasses | .setSite | .readSite | .setClock | .findVisit | .recallTicket | .publishNow
  | .openSession | .stageParams | .commitSession | .abortSession | .readMetrology => none

/-! The take of a slot (R107, R108). -/

/-- The kind word of a slot (12.5). -/
def State.slotKind (s : State) (k : SlotId) : Nat :=
  (s.mem.read16 (slotBase k + 2)).toNat

/-- The slot becomes TAKEN and its order joins the orders in flight (R107, step 1). -/
def State.beginOrder (s : State) (k : SlotId) (kind : OrderKind) : State :=
  let taken := s.writeWord (slotBase k) slotTaken
  { taken with
    intake :=
      { taken.intake with
        flight := taken.intake.flight ++ [{ slot := k, kind := kind, owner := kind.owner, withdrawn := false }] } }

/-- The staging area is claimed by a slot's order (R108). -/
def State.claimStaging (s : State) (k : SlotId) : State :=
  { s with intake := { s.intake with claim := some k } }

/-- A slot's order of a known kind is taken (R107, steps 1, 3, 4 and 5): `owner` is what the owner does with it. -/
def State.takeOrder (s : State) (k : SlotId) (kind : OrderKind) (owner : State → SlotId → State) : State :=
  let t := s.beginOrder k kind
  match t.badOrderParam k kind with
  | some n => t.badParam k n
  | none =>
    if kind.claimsStaging then
      if t.intake.claim.isSome then t.answer k .stagingBusy [] else owner (t.claimStaging k) k
    else owner t k

/-- PUBLISH_NOW, answered in the sweep that takes it (R153). -/
def State.publishOrder (s : State) (k : SlotId) : State :=
  let nothing := s.answer k .done (u16 2 ++ u16 0 ++ bytes32 0)
  match s.journal.current with
  | none => nothing
  | some p =>
    if s.pageCount p = 0 then nothing
    else if s.journal.reservation.isSome then
      ({ s with journal := { s.journal with due := true } } : State).answer k .done (u16 1 ++ u16 0 ++ bytes32 0)
    else
      let q := s.journal.nextSequence
      s.publish.answer k .done (u16 0 ++ u16 p.val ++ bytes32 q)

/-- What the owner of an order does with it at the take, by its kind (R107, step 5). -/
def ownerOf : OrderKind → State → SlotId → State
  | .clearLink => State.clearLinkOrder
  | .clearCell => State.clearCellOrder
  | .zero => State.zeroOrder
  | .armClass => State.armOrder
  | .loadClasses => State.loadClassesOrder
  | .setSignals => State.setSignalsOrder
  | .setSite => State.setSiteOrder
  | .readSite => State.readSiteOrder
  | .setClock => State.setClockOrder
  | .firstWeigh => State.firstWeighOrder
  | .secondWeigh => State.secondWeighOrder
  | .voidVisit => State.voidOrder
  | .findVisit => State.findOrder
  | .recallTicket => State.recallOrder
  | .publishNow => State.publishOrder
  | .openSession => State.openSessionOrder
  | .stageParams => State.stageOrder
  | .zeroCal => State.zeroCalOrder
  | .spanCal => State.spanCalOrder
  | .cornerRead => State.cornerReadOrder
  | .testLoad => State.testLoadOrder
  | .commitSession => State.commitOrder
  | .abortSession => State.abortOrder
  | .readMetrology => State.readMetrologyOrder
  | .readAudit => State.readAudit

/-- The sweep position, with the header's copy (R106). -/
def State.setPosition (s : State) (k : SlotId) : State :=
  ({ s with intake := { s.intake with position := k } } : State).writeWord hdrSweep (BitVec.ofNat 16 k.val)

/-- The sweep takes a POSTED slot (R107); an unknown kind is answered BAD_ORDER. -/
def State.takeSlot (s : State) (k : SlotId) : State :=
  match OrderKind.ofCode (s.slotKind k) with
  | some kind => s.takeOrder k kind (ownerOf kind)
  | none => (s.writeWord (slotBase k) slotTaken).answer k .badOrder []

/-! Withdrawals (R109). -/

/-- The withdrawal mark of a slot's order is set (R109). -/
def State.markWithdrawn (s : State) (k : SlotId) : State :=
  { s with
    intake :=
      { s.intake with flight := s.intake.flight.map fun f => if f.slot = k then { f with withdrawn := true } else f } }

/-- A withdrawal is handed to its owner (R109): the wait phase of a capture can be cancelled, and no other order in
flight can. -/
def State.handWithdrawal (s : State) (k : SlotId) : State :=
  let marked := s.markWithdrawn k
  match s.flightOf k with
  | some f => if f.owner = .captureUnit then marked.withdrawCapture k else marked
  | none => marked

/-! The sweep (R106). -/

/-- The slots in rotation order from the one after the sweep position (R106). -/
def rotation (position : SlotId) : List SlotId :=
  (List.range 16).map fun i => Fin.ofNat 16 (position.val + 1 + i)

/-- A slot whose withdrawal is still to be handed (R106). -/
def State.withdrawalDue (s : State) (k : SlotId) : Bool :=
  s.slotState k == slotWithdraw
    && (match s.flightOf k with
      | some f => !f.withdrawn
      | none => false)

/-- One slot examined (R106), with the last slot taken so far. -/
def examineSlot (p : State × Option SlotId) (k : SlotId) : State × Option SlotId :=
  if p.1.slotState k = slotPosted then (p.1.takeSlot k, some k)
  else if p.1.withdrawalDue k then (p.1.handWithdrawal k, p.2)
  else p

/-- The sweep of a cadence event, while RUN is 1 (R106, R111). -/
def State.sweep (s : State) : State :=
  if s.regs.run then
    let swept := (rotation s.intake.position).foldl examineSlot (s, none)
    match swept.2 with
    | some k => swept.1.setPosition k
    | none => swept.1
  else s

/-- The take of one POSTED slot that holds an order of a kind, by the sweep (R106, R107, assumption 5). Nothing is
taken while RUN is 0 (R111). -/
def State.takePosted (s : State) (k : SlotId) (kind : OrderKind) (owner : State → SlotId → State) : State :=
  if s.regs.run && s.slotState k == slotPosted && OrderKind.ofCode (s.slotKind k) == some kind then
    (s.takeOrder k kind owner).setPosition k
  else s

end Sys2Proof.Machine
end

