-- ==== Sys2Proof/Machine/Board.lean ====
section
/-! DEFINITION. The live board (R60, R98, R101). -/

namespace Sys2Proof.Machine

/-- The live board's offset of its first word, the board sequence (12.4). -/
def boardBase : Nat := 0x100

/-- A deck's entry (R60, 12.4): the snapshot's values and flags, and the zero offset as it stands. -/
def State.boardDeck (s : State) (d : DeckId) : List Byte :=
  let x := s.snapOf d
  let m := s.monitor.decks.get d
  s32 x.legal ++ s32 x.fine ++ bytes16 x.flags.word ++ u16 0 ++ s32 (m.zero - m.zeroRef)

/-- The contents of the board from offset 0x104 on (R101, 12.4). While no burst runs, its remaining count shows 0
(assumption 49). -/
def State.boardBytes (s : State) : List Byte :=
  let p := s.monitor.snapshot
  let t := s.tracker.report
  let l := s.lane.report
  allDecks.flatMap s.boardDeck
    ++ s32 p.legal ++ s32 p.fine ++ bytes16 p.flags.word ++ u16 0
    ++ u16 t.state.code ++ u16 t.axlesOn ++ bytes32 t.number ++ u16 (bit t.contained)
    ++ u16 l.aspectA.code ++ u16 l.aspectB.code ++ bytes16 (laneWord l)
    ++ u16 l.horn.pattern.code ++ u16 l.horn.period ++ u16 (l.burst.getD 0) ++ List.replicate 10 0
    ++ s.cells.flatMap fun c => u16 c.state.code

/-- The contents written, outside the board sequence. -/
def State.writeBoard (s : State) : State :=
  s.writeRun (boardBase + 4) s.boardBytes

/-- One more on the board sequence, which wraps from 65,535 to 0 (R101). -/
def State.bumpBoard (s : State) : State :=
  s.writeWord boardBase (s.mem.read16 boardBase + 1)

/-- A refresh of the live board: the sequence odd, the contents, the sequence even (R101). -/
def State.refreshBoard (s : State) : State :=
  s.bumpBoard.writeBoard.bumpBoard

end Sys2Proof.Machine
end

