-- ==== Sys2Proof/Machine/Cadence.lean ====
section
/-! DEFINITION. The cell link (R1 to R11) and the cadence event: the acceptance of frames, the link's states, the
blocks' work in a plan's order piece by piece, and the events with rows of their own at which it can stop. -/

namespace Sys2Proof.Machine

/-! Frames (R1, R2, R187, 12.2). -/

/-- The word of cell `i` in a frame: its signed count, high byte first, and its status. -/
def frameCell (bytes : List Byte) (i : Nat) : Int × CellStatus :=
  let at4 := (bytes.drop (3 + 4 * i)).take 4
  (signedOf 24 (natOfBytesBig (at4.take 3)), CellStatus.ofCode ((at4.getD 3 0).toNat))

/-- The frame that 101 bytes give (12.2). -/
def parseFrame (bytes : List Byte) : Frame :=
  { number := bytes.getD 2 0
    cells := (List.range 24).map (frameCell bytes) }

/-- The CRC of a frame checks (R2): over offsets 2 to 98, carried high byte first. -/
def frameCrcOk (bytes : List Byte) : Bool :=
  (crc16 ((bytes.drop 2).take 97)).toNat == natOfBytesBig ((bytes.drop 99).take 2)

/-- The arrival comes at least 20 ticks after that of the previous accepted frame (R2). -/
def State.spacedOk (s : State) : Bool :=
  match s.link.lastArrival with
  | some t => decide (20 ≤ ticksFrom t s.clock)
  | none => true

/-- An accepted frame: the last frame, the run count, the frame timer (R2, R4). -/
def State.acceptFrame (s : State) (f : Frame) : State :=
  { s with
    link :=
      { s.link with
        runCount := if s.link.timer then s.link.runCount + 1 else 1
        timer := true
        lastArrival := some s.clock
        lastFrame := some f } }

/-! The order of work at a cadence event (assumption 3). -/

/-- The fixed order of work that a plan does not list. -/
def canonicalOrder : List Work :=
  [.link, .compute, .snapshot, .zeroWatch, .tracking, .tracker, .session, .clock, .sweep, .capture, .signals,
    .journal, .board]

/-- The work that another needs done before it at the same cadence event, of which `done` is done: the examinations
read the snapshot of that event (R50, R55), and a resumption restarts the filters before its frame is computed (R8,
R32). An examination that comes after the computation judges what the computation gave (R51, R57), so a computation
that comes after the snapshot comes after the examinations of that snapshot as well. -/
def worksBefore (done : List Work) : Work → List Work
  | .zeroWatch => [.snapshot]
  | .tracking => [.snapshot]
  | .compute => .link :: (if done.contains .snapshot then [.zeroWatch, .tracking] else [])
  | _ => []

/-- The work to do where a plan names `w`: what `w` needs before it, as far as that is not done, and `w`. -/
def worksUpTo (done : List Work) (w : Work) : List Work :=
  (worksBefore done w).filter (fun v => !done.contains v) ++ [w]

/-- The list with each work once, and the work that another needs before it. -/
def orderFrom (done : List Work) : List Work → List Work
  | [] => []
  | w :: ws =>
    if done.contains w then orderFrom done ws
    else worksUpTo done w ++ orderFrom (worksUpTo done w ++ done) ws

/-- The order in which the blocks' work is done at a cadence event under a plan. -/
def planWorks (p : Plan) : List Work :=
  orderFrom [] (p.order ++ canonicalOrder)

/-- The supervisor's pieces for one cell at a frame: its examination, then its events (R13 to R17). -/
def cellPieces (c : CellId) : List Piece :=
  [.examineCell c, .own (.cellFault c), .own (.cellRecovered c), .own (.restartDue c)]

/-- The pieces of one block's work at a cadence event, of a frame or of the tick timer, with those of the link's
change. The provisional means of the session take a frame together with its computation, so that no other work comes
between the two and a measurement reads one consistent set of means (R168, assumption 59). Cells that fault or recover at one frame are taken in ascending order (assumption 53), and lines found stuck at
one cadence event in the order A_OUT, A_IN, B_OUT, B_IN (assumption 52). -/
def workPieces (frame : Bool) (change : List Piece) : Work → List Piece
  | .link => change
  | .compute =>
    if frame then
      allCells.flatMap cellPieces ++ [.computeChain, .provisional] ++ allDecks.map fun d => .own (.filterFilled d)
    else allCells.map fun c => .own (.restartDue c)
  | .snapshot => [.publishSnapshot]
  | .zeroWatch => allDecks.flatMap fun d => [.examineWatch d, .own (.watchExpired d)]
  | .tracking => [.countTracking, .own .tracking]
  | .tracker =>
    [.consumeEdges, .countWindows, .own .windowEnd, .own (.crossing .a), .own (.crossing .b)]
      ++ allLines.map (fun l => .own (.stuck l))
      ++ [.judgeBridge, .judgeClosing, .own .closing, .publishTrack]
  | .signals => [.laneWork, .own .burstEnd, .own .toggle, .laneReport]
  | .sweep => [.sweep]
  | .capture => [.examineCapture, .own .deadline]
  | .clock => [.countSecond, .own .time]
  | .journal => [.countDelay, .own .publishDelay]
  | .session => [.session, .own .install, .own .expire]
  | .board => [.board]

/-- The pieces of the work at a cadence event, in a plan's order. -/
def eventPieces (frame : Bool) (change : List Piece) (plan : Plan) : List Piece :=
  (planWorks plan).flatMap (workPieces frame change)

/-- The cadence count advances by one, with the header's copy (R3). The releases of the event before are over
(R18). -/
def State.countCadence (s : State) : State :=
  let n := s.link.cadence + 1
  ({ s with
      link := { s.link with cadence := n }
      cells := s.cells.map fun c => { c with released := false } } : State).writeLong hdrCadence n

/-! The states of the link (R5 to R9). -/

/-- Every cell's fault-run and recovery counts are set to 0 (R7, step 3). -/
def State.clearRuns (s : State) : State :=
  { s with cells := s.cells.map fun c => { c with faultRun := 0, recovery := 0 } }

/-- The link enters LOST (R7). The cadence count has advanced before the steps of R7, whose first says that the event
is a cadence event (assumption 50). -/
def State.enterLost (s : State) : State :=
  let left := s.link.state
  let number :=
    match s.link.lastFrame with
    | some f => f.number.toNat
    | none => 0xFFFF
  let lost := ((s.setLink .lost).setLinkFault true).clearRuns
  (lost.writeAudit .linkLost (u16 left.code ++ u16 number)).linkNotice

/-- The link enters LIVE from WAITING (R5, R11): LINK_FAULT clears. -/
def State.enterLive (s : State) : State :=
  ((s.setLink .live).setLinkFault false).linkNotice

/-- The link enters RESUMED (R8): the filters restart, and the notice is placed. -/
def State.enterResumed (s : State) : State :=
  ((s.setLink .resumed).restartFilters).linkNotice

/-- The link's change of state at a cadence event. -/
def State.enterLink (s : State) (st : LinkState) : State :=
  match st with
  | .lost => s.enterLost
  | .live => s.enterLive
  | .resumed => s.enterResumed
  | .waiting => s

/-- WARM_UP_COMPLETE is due (R5). -/
def State.warmUpDue (s : State) : Bool :=
  s.link.state == .waiting && decide (400 ≤ s.link.runCount)

/-- LINK_RESUMED is due (R8). -/
def State.resumeDue (s : State) : Bool :=
  s.link.state == .lost && decide (200 ≤ s.link.runCount)

/-- LINK_NO_START is due (R5): 200 cadence events of the tick timer and no frame accepted. -/
def State.noStartDue (s : State) : Bool :=
  s.link.state == .waiting && s.link.lastFrame.isNone && decide (200 ≤ s.link.cadence.toNat)

/-! The pieces of a cadence event. -/

/-- One piece of the work at a cadence event; the events with rows of their own are taken by `takeOwn`. -/
def State.doPiece (s : State) : Piece → State
  | .own _ => s
  | .enter st => s.enterLink st
  | .examineCell c => s.examineCell c
  | .computeChain => s.computeChain
  | .provisional => s.feedProvisional
  | .publishSnapshot => s.publishSnapshot
  | .examineWatch d => s.watchDeck d
  | .countTracking => s.countTracking
  | .consumeEdges => s.countClosing.consumeQueue
  | .countWindows => s.countWindows
  | .judgeBridge => s.judgeBridge
  | .judgeClosing => s.judgeClosing
  | .publishTrack => s.publishTrack
  | .session => s.workSession
  | .countSecond => s.workClock
  | .sweep => s.sweep
  | .examineCapture => s.workCapture
  | .laneWork => s.workLane
  | .laneReport => s.handLane
  | .countDelay => s.countDelay
  | .board => s.refreshBoard

/-- An event with a row of its own is due. -/
def State.ownDue (s : State) : Own → Bool
  | .noStart => s.noStartDue
  | .warmUp => s.warmUpDue
  | .resumed => s.resumeDue
  | .cellFault c => s.faultDue c
  | .cellRecovered c => s.recoveryDue c
  | .restartDue c => s.restartDue c
  | .filterFilled d => s.filledDue d
  | .watchExpired d => s.watchDue d
  | .tracking => s.trackingDue
  | .windowEnd => s.settleDue
  | .crossing side => s.crossingOverdue side
  | .stuck l => s.stuckFound l
  | .closing => s.closingDue
  | .install => s.installDue
  | .expire => s.idleDue
  | .time => s.secondDue
  | .deadline => s.deadlineDue
  | .burstEnd => s.lane.burstEndDue
  | .toggle => s.lane.toggleDue
  | .publishDelay => s.delayReached

/-- What an event with a row of its own does. The completions of warm-up and of resumption are cadence events of
their frame, whose pieces follow (R3). -/
def State.takeOwn (s : State) : Own → State
  | .noStart => s.enterLost
  | .warmUp => s.countCadence
  | .resumed => s.countCadence
  | .cellFault c => s.faultCell c
  | .cellRecovered c => s.recoverCell c
  | .restartDue c => s.requestRestart c
  | .filterFilled d => s.filterFilled d
  | .watchExpired d => s.expireWatch d
  | .tracking => s.trackZeros
  | .windowEnd => s.endWindows
  | .crossing side => s.abandon side
  | .stuck l => s.markStuck l
  | .closing => s.reportTraverse
  | .install => s.installSet
  | .expire => s.expireSession
  | .time => s.advanceTime
  | .deadline => s.missDeadline
  | .burstEnd => s.endBurst
  | .toggle => s.toggleHorn
  | .publishDelay => s.publishByDelay

/-- The pieces of a cadence event are taken in order. An event with a row of its own is taken where it is due; with
`apart` the cadence event stops there instead, and what is left of it stands in `unfinished`, that event first
(assumption 4). -/
def State.run (apart : Bool) (s : State) : List Piece → State
  | [] => s
  | .own e :: ps =>
    if s.ownDue e then (if apart then { s with unfinished := .own e :: ps } else (s.takeOwn e).run apart ps)
    else s.run apart ps
  | p :: ps => (s.doPiece p).run apart ps

/-- What is left of a cadence event is taken to its end. -/
def State.finish (s : State) : State :=
  ({ s with unfinished := [] } : State).run false s.unfinished

/-- A cadence event: of a frame, or of the tick timer (R3), with the link's change at it. -/
def State.cadenceEvent (s : State) (frame : Bool) (change : List Piece) (plan : Plan) : State :=
  s.countCadence.run plan.apart (eventPieces frame change plan)

/-- The plan of work in its fixed order, nothing taken apart. -/
def plainPlan : Plan := { order := [], apart := false }

/-! Commands of the link. -/

/-- The frame timer expires (R4): the run count is 0 and the timer stops, and the link becomes LOST from any other
state, at a cadence event of the tick timer (R5, R6, R9). -/
def State.expireTimer (s : State) (plan : Plan) : State :=
  let stopped : State := { s with link := { s.link with runCount := 0, timer := false } }
  if stopped.link.state = .lost then stopped
  else
    ({ stopped with link := { stopped.link with tickBase := stopped.clock } } : State).cadenceEvent false
      [.enter .lost] plan

/-- The frame timer has run its 150 ticks (R4). -/
def State.timerOver (s : State) (ticks : Nat) : Bool :=
  match s.link.lastArrival with
  | some t => s.link.timer && decide (ticks ≤ ticksFrom t s.clock)
  | none => false

/-- What an accepted frame then does, by the state of the link (R5, R6, R8, R9). The frame that completes warm-up or
a resumption brings about an event with a row of its own, and then the rest of its cadence event. -/
def State.useFrame (s : State) (plan : Plan) : State :=
  match s.link.state with
  | .live => s.cadenceEvent true [] plan
  | .resumed => s.cadenceEvent true [] plan
  | .waiting =>
    if s.warmUpDue then s.run plan.apart (.own .warmUp :: eventPieces true [.enter .live] plan) else s
  | .lost =>
    if s.resumeDue then s.run plan.apart (.own .resumed :: eventPieces true [.enter .resumed] plan) else s

/-- FRAME_RECEIVED (R1, R2, R4): a frame that fails a check changes nothing. A timer that ran out before the frame
expires first. -/
def State.receiveFrame (s : State) (bytes : List Byte) (plan : Plan) : State :=
  if isFrame bytes && frameCrcOk bytes && s.spacedOk then
    let expired := if s.timerOver 151 then s.expireTimer plainPlan else s
    (expired.acceptFrame (parseFrame bytes)).useFrame plan
  else s

/-- TICK_TIMER_EVENT (R3): 5 ms after the timer's last event, in WAITING or LOST. LINK_NO_START is taken at it where
it is due (R5). -/
def State.tick (s : State) (plan : Plan) : State :=
  if (s.link.state = .waiting ∨ s.link.state = .lost) ∧ 50 ≤ ticksFrom s.link.tickBase s.clock then
    ({ s with link := { s.link with tickBase := s.clock } } : State).cadenceEvent false [.own .noStart] plan
  else s

/-- FRAME_TIMER_EXPIRY (R4). -/
def State.frameTimerExpires (s : State) (plan : Plan) : State :=
  if s.timerOver 150 then s.expireTimer plan else s

/-! The rows of the events at which a cadence event can stop (assumption 4). -/

/-- The row of an event at which the cadence event has stopped: the event is taken, and the cadence event goes on with
`rest`. At any other moment the event is not due, and the row changes nothing (assumption 2). -/
def State.onOwn (s : State) (e : Own) (rest : List Piece → List Piece) (apart : Bool) : State :=
  match s.unfinished with
  | .own f :: ps =>
    if f = e ∧ s.ownDue e then (({ s with unfinished := [] } : State).takeOwn e).run apart (rest ps) else s
  | _ => s

end Sys2Proof.Machine
end

