-- ==== Sys2Proof/Machine/StartUp.lean ====
section
/-! DEFINITION. Start-up: the verification and repair of the retained store (R183, R143), the hand-over of the
working state, the initialisation of the exchange memory (R118, R119), and what each kind of reset does. -/

namespace Sys2Proof.Machine

/-! What the rows read as (R178, R131, R137). -/

/-- The image that nine rows hold, if its CRC-32 checks over bytes 0 to 551 (R178, 12.8). A row whose contents are
indeterminate spoils it (assumption 10). -/
def imageOf (rows : List Row) : Option MetroImage :=
  if rows.length = 9 ∧ rows.all Option.isSome = true then
    let bytes := rows.flatMap fun r => r.getD []
    if crc32 (bytes.take 552) = imageLong bytes 552 then some (parseImage bytes) else none
  else none

/-- The image of a place, if it checks. -/
def Rows.image (r : Rows) (place : Nat) : Option MetroImage :=
  imageOf (if place = 0 then r.image0 else r.image1)

/-! Step 1: the counters (R183). -/

/-- The epoch where no counters row checks: the higher one carried by an image that checks, or 0. -/
def Rows.lostEpoch (r : Rows) : W32 :=
  match r.image 0, r.image 1 with
  | some a, some b => if a.epoch < b.epoch then b.epoch else a.epoch
  | some a, none => a.epoch
  | none, some b => b.epoch
  | none, none => 0

/-- The counters are read, or taken as 0 with the latch set (R183, step 1). An engine restart keeps the boot count
(R119, R183). -/
def State.readCounters (s : State) (cause : StartCause) : State :=
  let kept := fun (c : Counters) =>
    if cause = .engineRestart then { c with bootCount := s.store.counters.bootCount } else c
  match s.store.rows.countersRow with
  | some x => { s with store := { s.store with counters := kept x.counters } }
  | none =>
    let lost : Counters := { manufactureCounters with epoch := s.store.rows.lostEpoch }
    ({ s with store := { s.store with counters := kept lost } } : State).setLatch

/-! Step 2: the metrology set (R181). -/

/-- The place of an epoch's parity (R181). -/
def placeOfEpoch (epoch : W32) : Nat :=
  epoch.toNat % 2

/-- The test that the active image fails: 0 CRC, 1 EPOCH, 2 RANGE (R181, 12.7). -/
def Rows.imageTest (r : Rows) (epoch : W32) : Option Nat :=
  match r.image (placeOfEpoch epoch) with
  | none => some 0
  | some i => if i.epoch ≠ epoch then some 1 else if i.set.valid then none else some 2

/-- The active set, or the manufacture set standing in (R181, R23). -/
def State.readSet (s : State) : State :=
  let epoch := s.store.counters.epoch
  match s.store.rows.imageTest epoch, s.store.rows.image (placeOfEpoch epoch) with
  | none, some i => { s with metro := ⟨i.set, epoch, false⟩ }
  | _, _ => { s with metro := ⟨manufactureSet, epoch, true⟩ }

/-- The SET_INVALID detail (12.7). -/
def setInvalidDetail (epoch : W32) (test : Nat) : List Byte :=
  bytes32 epoch ++ u8 (placeOfEpoch epoch) ++ u8 test ++ [0, 0]

/-! Step 3: the audit log (R184). -/

/-- The newer of two entries, in the order of serials that wrap (assumption 23). -/
def newerEntry (a b : AuditEntry) : AuditEntry :=
  if (b.serial - a.serial).toNat < 2147483648 then b else a

/-- The newest entry of a list. -/
def newestEntry : List AuditEntry → Option AuditEntry
  | [] => none
  | e :: es => some (es.foldl newerEntry e)

/-- The run of consecutive entries that ends with `e`, of at most `n` more. -/
def runTo (es : List AuditEntry) : Nat → AuditEntry → List AuditEntry → List AuditEntry
  | 0, e, later => e :: later
  | n + 1, e, later =>
    match es.find? fun p => nextSerial p.serial == e.serial with
    | some p => runTo es n p (e :: later)
    | none => e :: later

/-- The working copy that the rows give: the newest run of consecutive serials among the entries whose CRC-16 checks
(R184). -/
def rebuiltEntries (rows : List Row) : List AuditEntry :=
  let held := rows.filterMap auditOf
  match newestEntry held with
  | some e => runTo held 127 e []
  | none => []

/-- The log at power-on and pin reset (R184). -/
def rebuiltAudit (rows : List Row) (counted : W32) : Audit :=
  let entries := rebuiltEntries rows
  let held :=
    match entries.getLast? with
    | some e => e.serial
    | none => 0
  let last := if held < counted then counted else held
  { entries := entries
    last := last
    mark := nextSerial last
    busy := false }

/-- The log at any start-up: rebuilt, or at an engine restart kept without a job of its own (R184). -/
def State.readAuditLog (s : State) (cause : StartCause) : State :=
  if cause = .engineRestart then { s with audit := { s.audit with busy := false } }
  else { s with audit := rebuiltAudit s.store.rows.audit s.store.counters.auditSerial }

/-- A COMMIT entry of the epoch is missing from the log (R184). -/
def State.commitMissing (s : State) : Bool :=
  let epoch := s.store.counters.epoch
  decide (0 < epoch) && !(s.audit.entries.any fun e => e.kind == .commit && e.epoch == epoch)
    && (match s.audit.entries.getLast? with
      | some e => decide (e.epoch < epoch)
      | none => true)

/-- The detail of a restored COMMIT entry (R184): the CRC-32s of both places and their comparison. -/
def Rows.restoredDetail (r : Rows) (epoch : W32) : List Byte :=
  let place := placeOfEpoch epoch
  let crcOf := fun (p : Nat) =>
    match r.image p with
    | some i => i.crc
    | none => Config.unreadableCrc p
  match r.image (1 - place), r.image place with
  | some a, some b =>
    let changed := changedParams b.set a.set
    commitDetail a.crc b.crc (field16 changed.length) (some (changed.take 40)) true
  | _, _ => commitDetail (crcOf (1 - place)) (crcOf place) Config.unknownCount none true

/-- The entries of steps 1 to 3, in the order of the steps (R183, R184, assumption 23). -/
def State.writeVerified (s : State) (countersLost : Bool) (test : Option Nat) : State :=
  let missing := s.commitMissing
  let epoch := s.store.counters.epoch
  let first := if countersLost then s.writeAudit .countersLost [] else s.auditPump
  let second :=
    match test with
    | some t => first.writeAudit .setInvalid (setInvalidDetail epoch t)
    | none => first
  if missing then second.writeAudit .commit (s.store.rows.restoredDetail epoch) else second

/-! Step 4: ticket repair (R143). -/

/-- The place of a visit number among the rows. -/
def Rows.visitPlace (r : Rows) (n : W32) : Option Nat :=
  (List.range 64).find? fun i =>
    match r.visitAt i with
    | some e => e.number == n
    | none => false

/-- The removal that a committed counters row left incomplete (R143). -/
def Rows.repairRemoval (r : Rows) (c : Counters) : List RowWrite :=
  match r.visitPlace c.closedVisit with
  | some i => [.freeVisit i]
  | none => []

/-- The copy of the next ticket number discarded, its visit written back if the table does not hold it (R143,
assumption 24). Where no place of the table is free, the copy is discarded and no visit is written back
(assumption 58). -/
def Rows.repairCopy (r : Rows) (c : Counters) : List RowWrite :=
  let found := (List.range 16).find? fun i =>
    match r.ticketAt i with
    | some x => x.ticket.number == c.lastTicket + 1
    | none => false
  match found with
  | none => []
  | some i =>
    match r.ticketAt i with
    | none => []
    | some x =>
      let e := x.ticket.visit
      if (r.visitPlace e.number).isSome then [.freeTicket i]
      else
        match (List.range 64).find? fun j => (r.visitAt j).isNone with
        | some j => visitRows j e ++ [.freeTicket i]
        | none => [.freeTicket i]

/-- Rows written in order. -/
def Rows.putRows (r : Rows) (ws : List RowWrite) : Rows :=
  ws.foldl Rows.putRow r

/-- The rows of the ticket repair (R143). -/
def Rows.repair (r : Rows) (c : Counters) : List RowWrite :=
  let removal := r.repairRemoval c
  removal ++ (r.putRows removal).repairCopy c

/-! Steps 5 to 7 (R183). -/

/-- A set session-open flag is written as SESSION_LOST, and cleared (R183, step 5). -/
def State.loseSession (s : State) : State :=
  if s.store.counters.sessionOpen then
    let written := s.writeAudit .sessionLost []
    { written with
      store := { written.store with counters := { written.store.counters with sessionOpen := false } } }
  else s

/-- The boot count is raised at power-on and pin reset (R183, step 6). -/
def State.raiseBoot (s : State) (cause : StartCause) : State :=
  if cause = .engineRestart then s
  else
    { s with
      store :=
        { s.store with counters := { s.store.counters with bootCount := s.store.counters.bootCount + 1 } } }

/-- The job of the start-up, if anything has changed and the latch is clear (R183, step 7). -/
def State.queueStartUp (s : State) (repair : List RowWrite) (changed : Bool) : State :=
  if s.store.latch || !changed then s else s.requestJob .startUp (repair ++ [.counters .asTheyStand])

/-! Step 8: the hand-over (R131, R137, R81, R116). -/

/-- The visit table of the rows: HELD entries, and of two with one reference the higher number (R131). -/
def Rows.visitTable (r : Rows) : List (Option Visit) :=
  let read := (List.range 64).map r.visitAt
  read.map fun p =>
    match p with
    | some e =>
      let beaten := read.any fun q =>
        match q with
        | some x => x.vehicle == e.vehicle && decide (e.number < x.number)
        | none => false
      if beaten then none else some { entry := e, status := .held, kept := none }
    | none => none

/-- A copy in place `i` loses to one in place `j` of the same number: fewer recalls, or as many at a higher place
(R137). -/
def copyLoses (i : Nat) (a : TicketCopy) (j : Nat) (b : TicketCopy) : Bool :=
  a.ticket.number == b.ticket.number
    && (decide (a.recalls < b.recalls) || (decide (a.recalls = b.recalls) && decide (j < i)))

/-- The recent tickets of the rows (R137). R142 and R145 call the old copy of a place that a failed job has chosen
lost; where the job never reached its rows, they still check, and R137 reads them as HELD: the copy then returns
(assumption 61). -/
def Rows.ticketTable (r : Rows) (last : W32) : List TicketPlace :=
  let read := fun (i : Nat) =>
    match r.ticketAt i with
    | some c => if c.ticket.number ≤ last then some c else none
    | none => none
  (List.range 16).map fun i =>
    match read i with
    | some c =>
      let beaten := (List.range 16).any fun j =>
        match read j with
        | some b => copyLoses i c j b
        | none => false
      if beaten then .empty else .held c
    | none => .empty

/-- The class table of the rows: a row whose CRC-16 does not check is read as the manufacture class (R81). -/
def Rows.classTable (r : Rows) : List ClassEntry :=
  r.classes.map fun c => (classOf c).getD manufactureClass

/-- The site settings of the row, where it checks with every field in range (R116). -/
def Rows.siteSettings (r : Rows) : Option Site :=
  match settingsOf r.site with
  | some x => if x.badField.isNone then some x else none
  | none => none

/-- A cell's start (R12). -/
def startCell (m : Metrology) (c : CellId) : Cell :=
  if !m.standIn && (m.active.fittedTo c).isSome then { Cell.start with state := .active } else Cell.start

/-- Every block but the store, the audit log, the journal, the engine clock and the exchange port takes its start
values, with the working state that the rows give (R183, step 8). -/
def State.startBlocks (s : State) (r : Rows) : State :=
  { s with
    link := Link.start s.clock
    back := ⟨[], []⟩
    cells := allCells.map (startCell s.metro)
    chain := Chain.start
    monitor := Monitor.start s.metro.active s.metro.standIn
    tracker := Tracker.start s.pins.strips s.clock r.classTable
    lane := Lane.start
    intake := Intake.start
    site := r.siteSettings.getD defaultSite
    capture := none
    visits := { Visits.start with places := r.visitTable }
    tickets := { Tickets.start with places := r.ticketTable s.store.counters.lastTicket }
    session := Session.start
    sealLine := Seal.start }

/-- The start-up verification up to the hand-over (R183). Records that arise are held by the journal (R160). At an
engine restart step 7 counts the repair and the session-open flag as changes alone: a raised boot count that the row
does not hold yet, because the restart discarded the job that would write it, requests no job (assumption 63). -/
def State.verify (s : State) (cause : StartCause) : State :=
  let countersLost := s.store.rows.countersRow.isNone
  let read := (s.readCounters cause).readSet
  let logged := (read.readAuditLog cause).writeVerified countersLost
    (read.store.rows.imageTest read.store.counters.epoch)
  let repair := logged.store.rows.repair logged.store.counters
  let flagged := logged.store.counters.sessionOpen
  let raised := (logged.loseSession).raiseBoot cause
  let queued := raised.queueStartUp repair (!repair.isEmpty || flagged || cause != .engineRestart)
  queued.startBlocks (queued.store.rows.putRows repair)

/-! The exchange memory after a reset (R118, R119). -/

/-- The header, but for the journal's fields (R100, R118, R119). -/
def State.writeHeader (s : State) (cause : StartCause) : State :=
  let identified := (s.writeLong hdrIdent ident).writeLong hdrBoot s.store.counters.bootCount
  let caused := identified.writeWord hdrCause (BitVec.ofNat 16 cause.code)
  let timed := (caused.writeWord hdrClockSet (BitVec.ofNat 16 (bit s.time.isSet))).writeLong hdrTime s.time.time
  let linked := (timed.writeLong hdrCadence s.link.cadence).writeWord hdrLink (BitVec.ofNat 16 s.link.state.code)
  let session := linked.writeWord hdrSession (BitVec.ofNat 16 s.session.state.code)
  let counted := (session.writeLong hdrEpoch s.store.counters.epoch).writeLong hdrTicket s.store.counters.lastTicket
  let visited := (counted.writeWord hdrVisits (BitVec.ofNat 16 s.visitCount)).writeWord hdrSweep
    (BitVec.ofNat 16 s.intake.position.val)
  (visited.writeWord hdrStoreFault (BitVec.ofNat 16 (bit s.store.latch))).writeWord hdrRefused 0xFFFF

/-- The STARTUP record (R160, 12.7). -/
def State.startUpRecord (s : State) (cause : StartCause) : Record :=
  { kind := .startup
    key := 0
    content :=
      u16 cause.code ++ u16 (bit s.store.latch) ++ bytes32 s.store.counters.bootCount ++ bytes32 ident
        ++ bytes32 s.metro.epoch ++ bytes32 s.store.counters.lastTicket ++ u16 s.visitCount
        ++ u16 (bit s.time.isSet) ++ bytes32 s.time.time }

/-- The records that a start-up has held are offered in the order they arose (R160). -/
def State.releaseHeld (s : State) : State :=
  s.journal.held.foldl State.offer
    ({ s with journal := { s.journal with holding := false, held := [] } } : State)

/-- A SITE_DEFAULTED notice follows where the site row did not give the settings (R116). -/
def State.noticeSite (s : State) : State :=
  if s.store.rows.siteSettings.isNone then s.notice .siteDefaulted 0 0 0 [] else s

/-- The part as power-on and pin reset find it: nothing volatile left, no cause set and no latch (R118, R183). The
pins, the traverse clock and the retained rows stand as they were. -/
def State.cleared (s : State) (p : Power) : State :=
  { s with
    power := p
    link := Link.start s.clock
    back := ⟨[], []⟩
    cells := List.replicate 24 Cell.start
    metro := ⟨manufactureSet, 0, false⟩
    chain := Chain.start
    monitor := Monitor.start manufactureSet false
    tracker := Tracker.start s.pins.strips s.clock []
    lane := Lane.start
    mem := []
    regs := Registers.start
    intake := Intake.start
    site := defaultSite
    time := EngineClock.start
    capture := none
    visits := Visits.start
    tickets := Tickets.start
    journal := Journal.start
    session := Session.start
    sealLine := Seal.start
    store :=
      { rows := s.store.rows
        counters := manufactureCounters
        queue := []
        waiting := []
        retry := false
        latch := false }
    audit := Audit.start
    unfinished := [] }

/-- A journal that holds what arises (R160). -/
def State.holdRecords (s : State) : State :=
  { s with journal := { s.journal with holding := true, held := [] } }

/-- The whole start-up after power-on or pin reset (R118, R183, R160): RESTART reads 0 after it. The held records
follow the STARTUP record, and a SITE_DEFAULTED notice follows them (assumption 51). -/
def State.startPart (s : State) (cause : StartCause) : State :=
  let verified := ((s.cleared .on).holdRecords).verify cause
  let initialised := (({ verified with mem := [] } : State).writeHeader cause).writeBoard
  ((initialised.offer (initialised.startUpRecord cause)).releaseHeld).noticeSite

/-! Engine restart (R119, R161). -/

/-- The journal's work at an engine restart, up to the STARTUP record (R161, steps 1 to 5). -/
def State.restartJournal (s : State) : State :=
  let ended := s.endReservation
  let published :=
    match ended.journal.current with
    | some p => if ended.pageCount p = 0 then ended else ended.publish
    | none => ended
  let noted := (published.journal.outbox.foldl State.dropRecord published).setOutbox []
  { noted with journal := { noted.journal with owed := true, owedRestart := true, attention := 0 } }

/-- Steps 1 to 4 of R119. -/
def State.abandonOrders (s : State) (finish : RowFinish) : State :=
  let begun : State := { s with regs := { s.regs with restart := true, run := false } }
  let finished := begun.finishStore finish
  let emptied := finished.clearRun 0x400 0x800
  { emptied with
    intake := Intake.start
    capture := none
    regs := { emptied.regs with cause := 0, refused := none } }

/-- The whole engine restart (R119, R183, R161): RESTART reads 0 after it. The start-up begins with it, so the records
that the finished row brings about are held too (R160, assumption 36). -/
def State.restartEngine (s : State) (finish : RowFinish) : State :=
  let verified := ((s.holdRecords).abandonOrders finish).verify .engineRestart
  let initialised := (verified.writeHeader .engineRestart).refreshBoard
  let turned := initialised.restartJournal
  let placed := (turned.offer (turned.startUpRecord .engineRestart)).drain
  let released := (placed.releaseHeld).noticeSite
  { released with regs := { released.regs with restart := false } }

/-! Power (R118, R179). -/

/-- Power goes: everything volatile is lost, and the row being written is cut short (POWER_LOSS). The traverse clock
stands at 0 when power returns (assumption 6). -/
def State.losePower (s : State) (left : Residue) : State :=
  let cut := if s.power = .on then s.cutStore left else s
  ({ cut with clock := 0 } : State).cleared .off

/-- Power is applied (POWER_ON); power that was not seen to go has gone first (assumption 7). -/
def State.applyPower (s : State) (hold : Bool) (left : Residue) : State :=
  let off := if s.power = .off then s else s.losePower left
  if hold then off.cleared (.held .powerOn) else off.startPart .powerOn

/-- The reset input (PIN_RESET): applied and released, or applied and held. A reset that is held ends with the
cause it began with (assumption 7). -/
def State.resetPin (s : State) (hold : Bool) (left : Residue) : State :=
  match s.power with
  | .off => s
  | .held cause => if hold then s else s.startPart cause
  | .on =>
    let cut := s.cutStore left
    if hold then cut.cleared (.held .pin) else cut.startPart .pin

end Sys2Proof.Machine
end

