-- ==== Sys2Proof/Machine/PowerCommands.lean ====
section
/-! DEFINITION. The commands that begin and end a run: POWER_ON, PIN_RESET, RESTART and POWER_LOSS; and the two
frames every other command's meaning has: what a part without power does, and what the passing of time does. -/

namespace Sys2Proof.Machine

/-- A command that a part without power, or held in a reset, does not take: it changes nothing then (R99, R118). A
cadence event that has stopped at an event of its own is finished first (assumption 4). -/
def State.whenOn (s : State) (f : State → State) : State :=
  if s.power = .on then f s.finish else s

/-- The row of an event at which the cadence event has stopped (assumption 4). -/
def State.takeStopped (s : State) (e : Own) : State :=
  if s.power = .on then s.onOwn e id true else s

/-- The row of the completion of warm-up or of a resumption: the rest of the cadence event follows the row's own
plan. -/
def State.takeChange (s : State) (e : Own) (st : LinkState) (plan : Plan) : State :=
  if s.power = .on then s.onOwn e (fun _ => eventPieces true [.enter st] plan) plan.apart else s

/-- The state in which a command finds the part, whether or not it is taken: a part that runs has finished its cadence
event (assumption 4). -/
def State.settled (s : State) : State :=
  if s.power = .on then s.finish else s

/-- A stamped command: the traverse clock advances first, with the debounce holds that end meanwhile (assumption 6). -/
def State.stamped (s : State) (dt : W32) (f : State → State) : State :=
  s.whenOn fun t => f (t.advance dt)

/-- POWER_ON (R118, R183). -/
def execPowerOn (hold : Bool) (left : Residue) (s : State) : Result :=
  .next (s.settled.applyPower hold left)

/-- PIN_RESET (R118, R183). -/
def execPinReset (hold : Bool) (left : Residue) (s : State) : Result :=
  .next (s.settled.resetPin hold left)

/-- RESTART (R113, R119): writing RESTART as 1 while it reads 1 has no effect. -/
def execRestart (finish : RowFinish) (s : State) : Result :=
  .next (s.whenOn fun t => if t.regs.restart then t else t.restartEngine finish)

/-- POWER_LOSS (R179). -/
def execPowerLoss (left : Residue) (s : State) : Result :=
  .next (s.settled.losePower left)

end Sys2Proof.Machine
end

