-- ==== Sys2Proof/Machine/BridgeCommands.lean ====
section
/-! DEFINITION. The commands of the strip lines, the traverse tracker, the lane signals and the seal line. -/

namespace Sys2Proof.Machine

/-- The input of a strip line takes a level. -/
def State.setStrip (s : State) (l : Line) (pressed : Bool) : State :=
  { s with pins := { s.pins with strips := s.pins.strips.set l pressed } }

/-- The seal loop takes a level. -/
def State.setSealInput (s : State) (level : SealLevel) : State :=
  { s with pins := { s.pins with sealInput := level } }

/-- A line's input has changed (R61): while no hold runs, a level other than the accepted one is an edge. -/
def State.stripChanged (s : State) (l : Line) (pressed : Bool) : State :=
  let x := s.tracker.lines.get l
  if x.hold.isNone && x.pressed != pressed then s.acceptEdge l pressed s.clock else s

/-- A hold that ends at this moment (R61). -/
def State.holdEnds (s : State) (l : Line) : State :=
  if (s.tracker.lines.get l).hold = some s.clock then s.endHold l s.clock else s

/-- STRIP_EDGE (R61, R62). The pin follows its loop whether or not the part has power. -/
def execStripEdge (dt : W32) (line : Line) (pressed : Bool) (s : State) : Result :=
  .next (((s.stamped dt fun t => t).setStrip line pressed).whenOn fun t => t.stripChanged line pressed)

/-- DEBOUNCE_HOLD_END (R61). -/
def execDebounceHoldEnd (dt : W32) (line : Line) (s : State) : Result :=
  .next (s.stamped dt fun t => t.holdEnds line)

/-- SETTLE_WINDOW_END (R72), where a cadence event has stopped at it. -/
def execSettleWindowEnd (s : State) : Result :=
  .next (s.takeStopped .windowEnd)

/-- CROSSING_ABANDONED (R66), where a cadence event has stopped at it. -/
def execCrossingAbandoned (bridgeEnd : BridgeEnd) (s : State) : Result :=
  .next (s.takeStopped (.crossing bridgeEnd))

/-- STRIP_STUCK (R64), where a cadence event has stopped at it. -/
def execStripStuck (line : Line) (s : State) : Result :=
  .next (s.takeStopped (.stuck line))

/-- CLOSING_TIMEOUT (R76), where a cadence event has stopped at it. -/
def execClosingTimeout (s : State) : Result :=
  .next (s.takeStopped .closing)

/-- HORN_TOGGLE (R95), where a cadence event has stopped at it. -/
def execHornToggle (s : State) : Result :=
  .next (s.takeStopped .toggle)

/-- BURST_END (R96), where a cadence event has stopped at it. -/
def execBurstEnd (s : State) : Result :=
  .next (s.takeStopped .burstEnd)

/-- SEAL_CHANGE (R162). -/
def execSealChange (level : SealLevel) (s : State) : Result :=
  .next ((s.settled.setSealInput level).whenOn fun t => t.changeSeal level)

/-- SEAL_INITIAL (R162). -/
def execSealInitial (level : SealLevel) (s : State) : Result :=
  .next ((s.settled.setSealInput level).whenOn fun t => t.initialSeal level)

end Sys2Proof.Machine
end

