-- ==== Sys2Proof/Machine/HostCommands.lean ====
section
/-! DEFINITION. The commands of the host bus: writes of the exchange memory and of the registers. -/

namespace Sys2Proof.Machine

/-- The word address of a byte offset (section 6.1). -/
def wordAt (x : Nat) : WordAddr :=
  BitVec.ofNat 14 (x / 2)

/-- What a stored write does: the write of RETURNED to a page reaches the journal (R104, R155), and every other one
stores its word. -/
def State.storeWrite (s : State) (x : Nat) (v : W16) : State :=
  match regionOf x with
  | .page p _ => s.returnPage p
  | _ => s.writeWord x v

/-- A host write of one word, stored whole, discarded whole, or refused (R99, R102 to R105). -/
def State.hostWrite (s : State) (a : WordAddr) (v : W16) : State :=
  match s.judgeWrite (2 * a.toNat) v with
  | .stored => s.storeWrite (2 * a.toNat) v
  | .discarded => s
  | .refused => s.refuseWrite a

/-- SLOT_POSTED (R102). -/
def execSlotPosted (slot : SlotId) (s : State) : Result :=
  .next (s.whenOn fun t => t.hostWrite (wordAt (slotBase slot)) slotPosted)

/-- SLOT_WITHDRAW (R102). -/
def execSlotWithdraw (slot : SlotId) (s : State) : Result :=
  .next (s.whenOn fun t => t.hostWrite (wordAt (slotBase slot)) slotWithdraw)

/-- SLOT_EMPTIED (R102). -/
def execSlotEmptied (slot : SlotId) (s : State) : Result :=
  .next (s.whenOn fun t => t.hostWrite (wordAt (slotBase slot)) slotEmpty)

/-- PAGE_RETURN (R104, R155). -/
def execPageReturn (page : PageId) (s : State) : Result :=
  .next (s.whenOn fun t => t.hostWrite (wordAt (pageBase page)) pageReturned)

/-- HOST_MEMORY_WRITE (R99, R102 to R105). -/
def execHostMemoryWrite (addr : WordAddr) (value : W16) (s : State) : Result :=
  .next (s.whenOn fun t => t.hostWrite addr value)

/-- CLEAR_ANSWER (R112). -/
def execClearAnswer (s : State) : Result :=
  .next (s.whenOn fun t => t.clearCause causeAnswer)

/-- CLEAR_JOURNAL (R112, R154): the count of published pages starts again. -/
def execClearJournal (s : State) : Result :=
  .next
    (s.whenOn fun t =>
      let cleared := t.clearCause causeJournal
      { cleared with journal := { cleared.journal with attention := 0 } })

/-- CLEAR_CONDITION (R112). -/
def execClearCondition (s : State) : Result :=
  .next (s.whenOn fun t => t.clearCause causeCondition)

/-- CLEAR_PROTOCOL (R105, R112): the refused-address latch is emptied, and the header shows that. -/
def execClearProtocol (s : State) : Result :=
  .next
    (s.whenOn fun t =>
      let cleared := t.clearCause causeProtocol
      ({ cleared with regs := { cleared.regs with refused := none } } : State).writeWord hdrRefused 0xFFFF)

/-- CLEAR_STORE (R112): the store-fault latch stays. -/
def execClearStore (s : State) : Result :=
  .next (s.whenOn fun t => t.clearCause causeStore)

/-- The bits of ATTN_ENABLE that a cause stands behind (12.3, assumption 16). -/
def enableMask : W16 := 0x1F

/-- ATTN_ENABLE_WRITE (R113). -/
def execAttnEnableWrite (value : W16) (s : State) : Result :=
  .next (s.whenOn fun t => { t with regs := { t.regs with enable := value &&& enableMask } })

/-- RUN (R111, R113): ignored while RESTART reads 1. -/
def execRun (value : Bool) (s : State) : Result :=
  .next (s.whenOn fun t => if t.regs.restart then t else { t with regs := { t.regs with run := value } })

/-- REGISTER_WRITE (R113): a write of IDENT is ignored. -/
def execRegisterWrite (_high : Bool) (_value : W16) (s : State) : Result :=
  .next s.settled

end Sys2Proof.Machine
end

