-- ==== Sys2Proof/Machine/LinkCommands.lean ====
section
/-! DEFINITION. The commands of the converter link: frames, the tick timer, the frame timer, the link's transitions,
cell events and the back-channel; and the events of the measurement that have rows of their own. -/

namespace Sys2Proof.Machine

/-- FRAME_RECEIVED (R1, R2, R4 to R9). -/
def execFrameReceived (dt : W32) (bytes : List Byte) (plan : Plan) (s : State) : Result :=
  .next (s.stamped dt fun t => t.receiveFrame bytes plan)

/-- FRAME_ABANDONED (R1): the partial frame is discarded and counts as not having arrived. -/
def execFrameAbandoned (dt : W32) (_bytes : List Byte) (s : State) : Result :=
  .next (s.stamped dt fun t => t)

/-- TICK_TIMER_EVENT (R3). -/
def execTickTimerEvent (dt : W32) (plan : Plan) (s : State) : Result :=
  .next (s.stamped dt fun t => t.tick plan)

/-- FRAME_TIMER_EXPIRY (R4, R7). -/
def execFrameTimerExpiry (dt : W32) (plan : Plan) (s : State) : Result :=
  .next (s.stamped dt fun t => t.frameTimerExpires plan)

/-- LINK_NO_START (R5, R7), where a cadence event has stopped at it. -/
def execLinkNoStart (s : State) : Result :=
  .next (s.takeStopped .noStart)

/-- WARM_UP_COMPLETE (R5, R11), where a frame has stopped at it. -/
def execWarmUpComplete (plan : Plan) (s : State) : Result :=
  .next (s.takeChange .warmUp .live plan)

/-- LINK_RESUMED (R8), where a frame has stopped at it. -/
def execLinkResumed (plan : Plan) (s : State) : Result :=
  .next (s.takeChange .resumed .resumed plan)

/-- CELL_FAULT (R14), where a cadence event has stopped at it. -/
def execCellFault (cell : CellId) (s : State) : Result :=
  .next (s.takeStopped (.cellFault cell))

/-- CELL_RECOVERED (R16), where a cadence event has stopped at it. -/
def execCellRecovered (cell : CellId) (s : State) : Result :=
  .next (s.takeStopped (.cellRecovered cell))

/-- RESTART_DUE (R15), where a cadence event has stopped at it. -/
def execRestartDue (cell : CellId) (s : State) : Result :=
  .next (s.takeStopped (.restartDue cell))

/-- CHANNEL_RESTART (R15). -/
def execChannelRestart (s : State) : Result :=
  .next (s.whenOn State.sendRestart)

/-- BACK_CHANNEL_SEND_END (R15, R21). -/
def execBackChannelSendEnd (s : State) : Result :=
  .next (s.whenOn State.endSend)

/-- FILTER_FILLED (R31), where a cadence event has stopped at it. -/
def execFilterFilled (deck : DeckId) (s : State) : Result :=
  .next (s.takeStopped (.filterFilled deck))

/-- ZERO_WATCH_EXPIRED (R50), where a cadence event has stopped at it. -/
def execZeroWatchExpired (deck : DeckId) (s : State) : Result :=
  .next (s.takeStopped (.watchExpired deck))

/-- TRACKING_EXAMINATION (R55, R56), where a cadence event has stopped at it. -/
def execTrackingExamination (s : State) : Result :=
  .next (s.takeStopped .tracking)

end Sys2Proof.Machine
end

