-- ==== Sys2Proof/Machine/OrderCommands.lean ====
section
/-! DEFINITION. The orders: each is the take of a POSTED slot that holds an order of its kind (R106, R107,
assumption 5), with what its owner does in the sweep that takes it. -/

namespace Sys2Proof.Machine

/-- CLEAR_LINK (R10). -/
def execClearLink (slot : SlotId) (s : State) : Result :=
  .next (s.whenOn fun t => t.takePosted slot .clearLink State.clearLinkOrder)

/-- CLEAR_CELL (R18). -/
def execClearCell (slot : SlotId) (s : State) : Result :=
  .next (s.whenOn fun t => t.takePosted slot .clearCell State.clearCellOrder)

/-- ZERO (R52, R53). -/
def execZero (slot : SlotId) (s : State) : Result :=
  .next (s.whenOn fun t => t.takePosted slot .zero State.zeroOrder)

/-- ARM_CLASS (R83). -/
def execArmClass (slot : SlotId) (s : State) : Result :=
  .next (s.whenOn fun t => t.takePosted slot .armClass State.armOrder)

/-- LOAD_CLASSES (R82). -/
def execLoadClasses (slot : SlotId) (s : State) : Result :=
  .next (s.whenOn fun t => t.takePosted slot .loadClasses State.loadClassesOrder)

/-- SET_SIGNALS (R91). -/
def execSetSignals (slot : SlotId) (s : State) : Result :=
  .next (s.whenOn fun t => t.takePosted slot .setSignals State.setSignalsOrder)

/-- SET_SITE (R114). -/
def execSetSite (slot : SlotId) (s : State) : Result :=
  .next (s.whenOn fun t => t.takePosted slot .setSite State.setSiteOrder)

/-- READ_SITE (R115). -/
def execReadSite (slot : SlotId) (s : State) : Result :=
  .next (s.whenOn fun t => t.takePosted slot .readSite State.readSiteOrder)

/-- SET_CLOCK (R117). -/
def execSetClock (slot : SlotId) (s : State) : Result :=
  .next (s.whenOn fun t => t.takePosted slot .setClock State.setClockOrder)

/-- FIRST_WEIGH (R121, R123). -/
def execFirstWeigh (slot : SlotId) (s : State) : Result :=
  .next (s.whenOn fun t => t.takePosted slot .firstWeigh State.firstWeighOrder)

/-- SECOND_WEIGH (R122, R123). -/
def execSecondWeigh (slot : SlotId) (s : State) : Result :=
  .next (s.whenOn fun t => t.takePosted slot .secondWeigh State.secondWeighOrder)

/-- VOID_VISIT (R133). -/
def execVoidVisit (slot : SlotId) (s : State) : Result :=
  .next (s.whenOn fun t => t.takePosted slot .voidVisit State.voidOrder)

/-- FIND_VISIT (R134). -/
def execFindVisit (slot : SlotId) (s : State) : Result :=
  .next (s.whenOn fun t => t.takePosted slot .findVisit State.findOrder)

/-- RECALL_TICKET (R146). -/
def execRecallTicket (slot : SlotId) (s : State) : Result :=
  .next (s.whenOn fun t => t.takePosted slot .recallTicket State.recallOrder)

/-- PUBLISH_NOW (R153). -/
def execPublishNow (slot : SlotId) (s : State) : Result :=
  .next (s.whenOn fun t => t.takePosted slot .publishNow State.publishOrder)

/-- OPEN_SESSION (R164). -/
def execOpenSession (slot : SlotId) (s : State) : Result :=
  .next (s.whenOn fun t => t.takePosted slot .openSession State.openSessionOrder)

/-- STAGE_PARAMS (R167). -/
def execStageParams (slot : SlotId) (s : State) : Result :=
  .next (s.whenOn fun t => t.takePosted slot .stageParams State.stageOrder)

/-- ZERO_CAL (R169). -/
def execZeroCal (slot : SlotId) (s : State) : Result :=
  .next (s.whenOn fun t => t.takePosted slot .zeroCal State.zeroCalOrder)

/-- SPAN_CAL (R170). -/
def execSpanCal (slot : SlotId) (s : State) : Result :=
  .next (s.whenOn fun t => t.takePosted slot .spanCal State.spanCalOrder)

/-- CORNER_READ (R171). -/
def execCornerRead (slot : SlotId) (s : State) : Result :=
  .next (s.whenOn fun t => t.takePosted slot .cornerRead State.cornerReadOrder)

/-- TEST_LOAD (R172). -/
def execTestLoad (slot : SlotId) (s : State) : Result :=
  .next (s.whenOn fun t => t.takePosted slot .testLoad State.testLoadOrder)

/-- COMMIT_SESSION (R173). -/
def execCommitSession (slot : SlotId) (s : State) : Result :=
  .next (s.whenOn fun t => t.takePosted slot .commitSession State.commitOrder)

/-- ABORT_SESSION (R176). -/
def execAbortSession (slot : SlotId) (s : State) : Result :=
  .next (s.whenOn fun t => t.takePosted slot .abortSession State.abortOrder)

/-- READ_METROLOGY (R182). -/
def execReadMetrology (slot : SlotId) (s : State) : Result :=
  .next (s.whenOn fun t => t.takePosted slot .readMetrology State.readMetrologyOrder)

/-- READ_AUDIT (R185). -/
def execReadAudit (slot : SlotId) (s : State) : Result :=
  .next (s.whenOn fun t => t.takePosted slot .readAudit State.readAudit)

end Sys2Proof.Machine
end

