-- ==== Sys2Proof/Machine/StoreCommands.lean ====
section
/-! DEFINITION. The commands of the retained store, and the events of the engine clock, the capture unit, the
session and the journal that have rows of their own. -/

namespace Sys2Proof.Machine

/-- STORE_JOB_ENTER (R179). -/
def execStoreJobEnter (s : State) : Result :=
  .next (s.whenOn fun t => { t with store := t.store.enter })

/-- STORE_ROW_WRITTEN (R179, R180). -/
def execStoreRowWritten (matched : Bool) (left : Residue) (s : State) : Result :=
  .next (s.whenOn fun t => t.rowWritten matched left)

/-- ENGINE_TIME_ADVANCE (R117, R135), where a cadence event has stopped at it. -/
def execEngineTimeAdvance (s : State) : Result :=
  .next (s.takeStopped .time)

/-- CAPTURE_DEADLINE (R124), where a cadence event has stopped at it. -/
def execCaptureDeadline (s : State) : Result :=
  .next (s.takeStopped .deadline)

/-- SESSION_INSTALL (R175), where a cadence event has stopped at it. -/
def execSessionInstall (s : State) : Result :=
  .next (s.takeStopped .install)

/-- SESSION_EXPIRED (R177), where a cadence event has stopped at it. -/
def execSessionExpired (s : State) : Result :=
  .next (s.takeStopped .expire)

/-- PUBLISH_DELAY (R153), where a cadence event has stopped at it. -/
def execPublishDelay (s : State) : Result :=
  .next (s.takeStopped .publishDelay)

end Sys2Proof.Machine
end

