-- ==== Sys2Proof/Machine/Dispatch.lean ====
section
/-! DEFINITION. The meaning of every command, one arm each. -/

namespace Sys2Proof.Machine

/-- The effect of a command on everything but the queue. -/
def exec (i : Instr) (s : State) : Host.Outcome State Fault Refusal :=
  match i with
  | .powerOn hold left => Sys2Proof.Machine.execPowerOn hold left s
  | .pinReset hold left => Sys2Proof.Machine.execPinReset hold left s
  | .frameReceived dt bytes plan => Sys2Proof.Machine.execFrameReceived dt bytes plan s
  | .frameAbandoned dt bytes => Sys2Proof.Machine.execFrameAbandoned dt bytes s
  | .tickTimerEvent dt plan => Sys2Proof.Machine.execTickTimerEvent dt plan s
  | .frameTimerExpiry dt plan => Sys2Proof.Machine.execFrameTimerExpiry dt plan s
  | .linkNoStart => Sys2Proof.Machine.execLinkNoStart s
  | .warmUpComplete plan => Sys2Proof.Machine.execWarmUpComplete plan s
  | .linkResumed plan => Sys2Proof.Machine.execLinkResumed plan s
  | .cellFault cell => Sys2Proof.Machine.execCellFault cell s
  | .cellRecovered cell => Sys2Proof.Machine.execCellRecovered cell s
  | .restartDue cell => Sys2Proof.Machine.execRestartDue cell s
  | .channelRestart => Sys2Proof.Machine.execChannelRestart s
  | .filterFilled deck => Sys2Proof.Machine.execFilterFilled deck s
  | .zeroWatchExpired deck => Sys2Proof.Machine.execZeroWatchExpired deck s
  | .trackingExamination => Sys2Proof.Machine.execTrackingExamination s
  | .stripEdge dt line pressed => Sys2Proof.Machine.execStripEdge dt line pressed s
  | .debounceHoldEnd dt line => Sys2Proof.Machine.execDebounceHoldEnd dt line s
  | .settleWindowEnd => Sys2Proof.Machine.execSettleWindowEnd s
  | .crossingAbandoned bridgeEnd => Sys2Proof.Machine.execCrossingAbandoned bridgeEnd s
  | .stripStuck line => Sys2Proof.Machine.execStripStuck line s
  | .closingTimeout => Sys2Proof.Machine.execClosingTimeout s
  | .hornToggle => Sys2Proof.Machine.execHornToggle s
  | .burstEnd => Sys2Proof.Machine.execBurstEnd s
  | .slotPosted slot => Sys2Proof.Machine.execSlotPosted slot s
  | .slotWithdraw slot => Sys2Proof.Machine.execSlotWithdraw slot s
  | .slotEmptied slot => Sys2Proof.Machine.execSlotEmptied slot s
  | .pageReturn page => Sys2Proof.Machine.execPageReturn page s
  | .hostMemoryWrite addr value => Sys2Proof.Machine.execHostMemoryWrite addr value s
  | .clearAnswer => Sys2Proof.Machine.execClearAnswer s
  | .clearJournal => Sys2Proof.Machine.execClearJournal s
  | .clearCondition => Sys2Proof.Machine.execClearCondition s
  | .clearProtocol => Sys2Proof.Machine.execClearProtocol s
  | .clearStore => Sys2Proof.Machine.execClearStore s
  | .attnEnableWrite value => Sys2Proof.Machine.execAttnEnableWrite value s
  | .run value => Sys2Proof.Machine.execRun value s
  | .restart finish => Sys2Proof.Machine.execRestart finish s
  | .registerWrite high value => Sys2Proof.Machine.execRegisterWrite high value s
  | .engineTimeAdvance => Sys2Proof.Machine.execEngineTimeAdvance s
  | .clearLink slot => Sys2Proof.Machine.execClearLink slot s
  | .clearCell slot => Sys2Proof.Machine.execClearCell slot s
  | .zero slot => Sys2Proof.Machine.execZero slot s
  | .armClass slot => Sys2Proof.Machine.execArmClass slot s
  | .loadClasses slot => Sys2Proof.Machine.execLoadClasses slot s
  | .setSignals slot => Sys2Proof.Machine.execSetSignals slot s
  | .setSite slot => Sys2Proof.Machine.execSetSite slot s
  | .readSite slot => Sys2Proof.Machine.execReadSite slot s
  | .setClock slot => Sys2Proof.Machine.execSetClock slot s
  | .firstWeigh slot => Sys2Proof.Machine.execFirstWeigh slot s
  | .secondWeigh slot => Sys2Proof.Machine.execSecondWeigh slot s
  | .captureDeadline => Sys2Proof.Machine.execCaptureDeadline s
  | .voidVisit slot => Sys2Proof.Machine.execVoidVisit slot s
  | .findVisit slot => Sys2Proof.Machine.execFindVisit slot s
  | .recallTicket slot => Sys2Proof.Machine.execRecallTicket slot s
  | .publishNow slot => Sys2Proof.Machine.execPublishNow slot s
  | .openSession slot => Sys2Proof.Machine.execOpenSession slot s
  | .stageParams slot => Sys2Proof.Machine.execStageParams slot s
  | .zeroCal slot => Sys2Proof.Machine.execZeroCal slot s
  | .spanCal slot => Sys2Proof.Machine.execSpanCal slot s
  | .cornerRead slot => Sys2Proof.Machine.execCornerRead slot s
  | .testLoad slot => Sys2Proof.Machine.execTestLoad slot s
  | .commitSession slot => Sys2Proof.Machine.execCommitSession slot s
  | .abortSession slot => Sys2Proof.Machine.execAbortSession slot s
  | .readMetrology slot => Sys2Proof.Machine.execReadMetrology slot s
  | .readAudit slot => Sys2Proof.Machine.execReadAudit slot s
  | .sessionInstall => Sys2Proof.Machine.execSessionInstall s
  | .sessionExpired => Sys2Proof.Machine.execSessionExpired s
  | .sealChange level => Sys2Proof.Machine.execSealChange level s
  | .sealInitial level => Sys2Proof.Machine.execSealInitial level s
  | .storeJobEnter => Sys2Proof.Machine.execStoreJobEnter s
  | .storeRowWritten matched left => Sys2Proof.Machine.execStoreRowWritten matched left s
  | .publishDelay => Sys2Proof.Machine.execPublishDelay s
  | .backChannelSendEnd => Sys2Proof.Machine.execBackChannelSendEnd s
  | .powerLoss left => Sys2Proof.Machine.execPowerLoss left s

end Sys2Proof.Machine
end

