-- ==== Sys2Proof/Safety.lean ====
section
/-! DEFINITION. What holds of the part at every moment, in the terms claims use. -/

namespace Sys2Proof.Machine

/-- The heads show RED with source OVERRIDE while an owner's cause is marked (R93). -/
def Lane.redWhileMarked (l : Lane) : Prop :=
  l.causes.any = true → l.appliedA = .red ∧ l.appliedB = .red ∧ l.overriding = true

/-- No capture is in flight while the session is OPEN or COMMITTING (R120, R163). -/
def State.captureOrSession (s : State) : Prop :=
  s.capture.isSome = true → s.session.state = .closed

/-- The queues are no longer than the manual gives them: the edge queue (R62), the outbox (R156), the working audit
log (R184), the store queue (R179). -/
structure State.Bounded (s : State) : Prop where
  edges : s.tracker.queue.length ≤ 64
  outbox : s.journal.outbox.length ≤ 24
  entries : s.audit.entries.length ≤ 128
  rows : s.store.queued ≤ 16

/-- Only the five causes and their enables are ever set (12.3). -/
def Registers.fiveBits (r : Registers) : Prop :=
  r.cause &&& ~~~(0x1F : W16) = 0 ∧ r.enable &&& ~~~(0x1F : W16) = 0

/-- Both lines of one head are never active together (R89). -/
def State.headsExclusive (s : State) : Prop :=
  ¬(s.lineARed = true ∧ s.lineAGreen = true) ∧ ¬(s.lineBRed = true ∧ s.lineBGreen = true)

/-- A cadence event has stopped, if at all, in a part that runs, at an event with a row of its own that is due
(assumption 4). -/
def State.stopsAtDue (s : State) : Prop :=
  ∀ p ps, s.unfinished = p :: ps → s.power = .on ∧ ∃ e, p = .own e ∧ s.ownDue e = true

/-- What every step keeps. -/
structure State.Inv (s : State) : Prop where
  memory : s.mem.wf = true
  red : s.lane.redWhileMarked
  exclusive : s.captureOrSession
  bounded : s.Bounded
  bits : s.regs.fiveBits
  steady : s.journal.holding = false
  stops : s.stopsAtDue

/-! The words of the claims about orders, records and memory. -/

/-- Two memories read alike at every offset but some. -/
def Memory.SameBut (changed : Nat → Prop) (m n : Memory) : Prop :=
  ∀ x, ¬changed x → n.readByte x = m.readByte x

/-- The bytes that taking and answering a slot's order writes: the state word, the answer code and length, the answer
body (R107, R110), and the header's sweep position (R106). -/
def answerBytes (k : SlotId) (x : Nat) : Prop :=
  (slotBase k ≤ x ∧ x < slotBase k + 2) ∨ (slotBase k + 6 ≤ x ∧ x < slotBase k + 10)
    ∨ (slotBase k + 0x40 ≤ x ∧ x < slotBase k + 0x80) ∨ (hdrSweep ≤ x ∧ x < hdrSweep + 2)

/-- The bytes that only taking a slot's order writes. -/
def takeBytes (k : SlotId) (x : Nat) : Prop :=
  (slotBase k ≤ x ∧ x < slotBase k + 2) ∨ (hdrSweep ≤ x ∧ x < hdrSweep + 2)

/-- The journal's bytes: its header fields and the pages (section 6.1, 12.4). -/
def journalBytes (x : Nat) : Prop :=
  (hdrLastPage ≤ x ∧ x < hdrStoreFault) ∨ 0x1C00 ≤ x

/-- `n` bytes from an offset on. -/
def bytesFrom (a n x : Nat) : Prop :=
  a ≤ x ∧ x < a + n

/-- The part runs, and no cadence event has stopped at an event with a row of its own. -/
structure State.Ready (s : State) : Prop where
  power : s.power = .on
  whole : s.unfinished = []

/-- A cadence event has stopped at an event with a row of its own, which is due, with `rest` after it (assumption 4). -/
structure State.StoppedAt (s : State) (e : Own) (rest : List Piece) : Prop where
  power : s.power = .on
  first : s.unfinished = .own e :: rest
  due : s.ownDue e = true

/-- No cadence event has stopped at an event, in a part that runs, where it is due. -/
def State.NotStoppedAt (s : State) (e : Own) : Prop :=
  ∀ rest, ¬s.StoppedAt e rest

/-- The part runs, and its intake finds an order of a kind POSTED in a slot (R106, R107). -/
structure State.Posted (s : State) (k : SlotId) (kind : OrderKind) : Prop where
  memory : s.mem.wf = true
  power : s.power = .on
  whole : s.unfinished = []
  run : s.regs.run = true
  posted : s.slotState k = slotPosted
  kind : OrderKind.ofCode (s.slotKind k) = some kind

/-- What the host finds of an order that has been taken and answered (R106, R107, R110), and that the order is no
longer in flight and holds no claim (R108). -/
structure Answered (k : SlotId) (code : AnswerCode) (body : List Byte) (s t : State) : Prop where
  state : t.slotState k = slotAnswered
  code : t.mem.read16 (slotBase k + 6) = code.code
  length : t.mem.read16 (slotBase k + 8) = BitVec.ofNat 16 body.length
  body : t.mem.readBytes (slotBase k + 0x40) 64 = padTo 64 body
  sweep : t.mem.read16 hdrSweep = BitVec.ofNat 16 k.val
  intake :
    t.intake =
      { position := k
        flight := s.intake.flight.filter fun f => f.slot != k
        claim := if s.intake.claim = some k then none else s.intake.claim }
  attention : t.regs.cause &&& causeAnswer = causeAnswer

/-- An order has been taken and answered in the same sweep, and beside its slot, the intake and the ANSWER cause the
state is `u`. -/
structure AnsweredAs (k : SlotId) (code : AnswerCode) (body : List Byte) (s u t : State) : Prop where
  answered : Answered k code body s t
  rest :
    t =
      { u with
        mem := t.mem
        intake := t.intake
        regs := { s.regs with cause := s.regs.cause ||| causeAnswer } }
  memory : Memory.SameBut (answerBytes k) s.mem t.mem

/-- The bytes that answering a slot's order writes. -/
def slotAnswerBytes (k : SlotId) (x : Nat) : Prop :=
  (slotBase k ≤ x ∧ x < slotBase k + 2) ∨ (slotBase k + 6 ≤ x ∧ x < slotBase k + 10)
    ∨ (slotBase k + 0x40 ≤ x ∧ x < slotBase k + 0x80)

/-- The answer of an order that was in flight has been written (R110): what the host finds, and that the order is no
longer in flight and holds no claim. -/
structure AnswerWritten (k : SlotId) (code : AnswerCode) (body : List Byte) (s t : State) : Prop where
  state : t.slotState k = slotAnswered
  code : t.mem.read16 (slotBase k + 6) = code.code
  length : t.mem.read16 (slotBase k + 8) = BitVec.ofNat 16 body.length
  body : t.mem.readBytes (slotBase k + 0x40) 64 = padTo 64 body
  intake :
    t.intake =
      { s.intake with
        flight := s.intake.flight.filter fun f => f.slot != k
        claim := if s.intake.claim = some k then none else s.intake.claim }
  attention : t.regs.cause &&& causeAnswer = causeAnswer

/-- What the host finds of an order that has been taken and waits for its owner (R107). -/
structure InFlight (k : SlotId) (kind : OrderKind) (s t : State) : Prop where
  state : t.slotState k = slotTaken
  sweep : t.mem.read16 hdrSweep = BitVec.ofNat 16 k.val
  position : t.intake.position = k
  flight :
    t.intake.flight = s.intake.flight ++ [{ slot := k, kind := kind, owner := kind.owner, withdrawn := false }]

/-- Causes have been added to the attention register, none beyond `extra`, and the registers are the same
otherwise. -/
def Registers.Raised (extra : W16) (r q : Registers) : Prop :=
  ∃ c, c &&& ~~~extra = 0 ∧ q = { r with cause := r.cause ||| c }

/-- An audit entry has been written (R184). -/
structure Audited (kind : AuditKind) (detail : List Byte) (s t : State) : Prop where
  entries :
    t.audit.entries =
      joinEntries s.audit.entries
        { serial := nextSerial s.audit.last
          epoch := s.store.counters.epoch
          time := s.time.time
          clockSet := s.time.isSet
          kind := kind
          detail := detail }
  last : t.audit.last = nextSerial s.audit.last

/-- A session has ended without an installation (R163, R176): CLOSED is shown, what it held is discarded, IN_TEST
leaves the decks, the SESSION cause ends, the end is audited, and the flag-clearing row is requested unless the latch
is set. -/
structure SessionEnded (kind : AuditKind) (s t : State) : Prop where
  session :
    t.session =
      { s.session with
        state := .closed
        staged := none
        revision := 0
        tests := []
        provisional := []
        idle := 0
        commit := none
        stored := false }
  shown : t.mem.read16 hdrSession = BitVec.ofNat 16 SessionState.closed.code
  lane : t.lane = s.lane.unmark .session
  decks :
    ∀ d,
      t.monitor.decks.get d =
        { s.monitor.decks.get d with
          flags := { s.flagsOf d with inTest := !s.metro.active.isEnabled d && (s.flagsOf d).inTest } }
  audited : Audited kind [] s t
  job :
    s.store.latch = false → t.store.waiting.getLast? = some ⟨.closeSession, [.counters (.session false)]⟩

/-- A store job has been requested after those that waited (R179). -/
def Requested (kind : JobKind) (rows : List RowWrite) (s t : State) : Prop :=
  t.store = { s.store with waiting := s.store.waiting ++ [⟨kind, rows⟩] }

/-- The command that is the take of an order of a kind from a slot (assumption 5). -/
def orderCommand (k : SlotId) : OrderKind → Instr
  | .clearLink => .clearLink k
  | .clearCell => .clearCell k
  | .zero => .zero k
  | .armClass => .armClass k
  | .loadClasses => .loadClasses k
  | .setSignals => .setSignals k
  | .setSite => .setSite k
  | .readSite => .readSite k
  | .setClock => .setClock k
  | .firstWeigh => .firstWeigh k
  | .secondWeigh => .secondWeigh k
  | .voidVisit => .voidVisit k
  | .findVisit => .findVisit k
  | .recallTicket => .recallTicket k
  | .publishNow => .publishNow k
  | .openSession => .openSession k
  | .stageParams => .stageParams k
  | .zeroCal => .zeroCal k
  | .spanCal => .spanCal k
  | .cornerRead => .cornerRead k
  | .testLoad => .testLoad k
  | .commitSession => .commitSession k
  | .abortSession => .abortSession k
  | .readMetrology => .readMetrology k
  | .readAudit => .readAudit k

/-- The command that is the row of an event at which a cadence event can stop (assumption 4); two of the rows carry
the plan of what follows. -/
def ownCommand (plan : Plan) : Own → Instr
  | .noStart => .linkNoStart
  | .warmUp => .warmUpComplete plan
  | .resumed => .linkResumed plan
  | .cellFault c => .cellFault c
  | .cellRecovered c => .cellRecovered c
  | .restartDue c => .restartDue c
  | .filterFilled d => .filterFilled d
  | .watchExpired d => .zeroWatchExpired d
  | .tracking => .trackingExamination
  | .windowEnd => .settleWindowEnd
  | .crossing side => .crossingAbandoned side
  | .stuck l => .stripStuck l
  | .closing => .closingTimeout
  | .install => .sessionInstall
  | .expire => .sessionExpired
  | .time => .engineTimeAdvance
  | .deadline => .captureDeadline
  | .burstEnd => .burstEnd
  | .toggle => .hornToggle
  | .publishDelay => .publishDelay

/-- No debounce hold runs on a strip line (R61): then only the clock moves as time passes. -/
def State.noHolds (s : State) : Prop :=
  ∀ l, (s.tracker.lines.get l).hold = none

/-- No debounce hold has ended before the moment some ticks later (R61): those that run then still run. -/
def State.holdsRun (s : State) (dt : W32) : Prop :=
  ∀ l h, (s.tracker.lines.get l).hold = some h →
    ticksFrom h (s.clock + dt) = 0 ∨ 2147483648 ≤ ticksFrom h (s.clock + dt)

/-- The state some ticks later, while no debounce hold runs. -/
def State.later (s : State) (dt : W32) : State :=
  { s with clock := s.clock + dt }

/-- What a refused host write does (R105): PROTOCOL, and the first refused address is latched and shown. -/
def State.refused (s : State) (a : WordAddr) : State :=
  { s with
    regs := { s.regs with cause := s.regs.cause ||| causeProtocol, refused := some (s.regs.refused.getD a) }
    mem := if s.regs.refused = none then s.mem.write16 hdrRefused (a.setWidth 16) else s.mem }

/-- The tracker after it has accepted an edge, with room in the queue (R61, R62, R64). -/
def edgeAccepted (s : State) (l : Line) (pressed : Bool) (stamp : W32) : Tracker :=
  let x := s.tracker.lines.get l
  { s.tracker with
    lines :=
      s.tracker.lines.set l
        { x with
          pressed := pressed
          hold := some (stamp + BitVec.ofNat 32 (s.site.debounce * 10))
          pressedAt := if pressed then stamp else x.pressedAt
          stuck := if pressed then x.stuck else false }
    queue :=
      s.tracker.queue
        ++ [{ line := l
              on := pressed
              stamp := stamp
              latch := if pressed then some s.monitor.snapshot.fine else none }] }

/-- The tracker after it has accepted an edge and discarded it from the full queue: the line is as for any accepted
edge, and the open traverse has EDGE_OVERRUN, or the next one is to have it (R62). -/
def edgeDiscarded (s : State) (l : Line) (pressed : Bool) (stamp : W32) : Tracker :=
  let accepted := { edgeAccepted s l pressed stamp with queue := s.tracker.queue }
  match s.tracker.traverse with
  | some tr => { accepted with traverse := some { tr with reasons := { tr.reasons with edgeOverrun := true } } }
  | none => { accepted with overrun := true }

/-- The tracker after it has accepted an edge: it joins the queue where there is room, and is discarded otherwise. -/
def edgeTaken (s : State) (l : Line) (pressed : Bool) (stamp : W32) : Tracker :=
  if s.tracker.queue.length < 64 then edgeAccepted s l pressed stamp else edgeDiscarded s l pressed stamp

/-- The state in which an order handed to an OPEN session finds it: with the idle count 0 (R177). -/
def idleReset (s : State) : State :=
  { s with session := { s.session with idle := 0 } }

/-- The counters that a start reads: those of the row, or 0 with the higher epoch of the images where no place of the
row checks (R183, step 1). -/
def Rows.countersAtStart (r : Rows) : Counters :=
  match r.countersRow with
  | some x => x.counters
  | none => { manufactureCounters with epoch := r.lostEpoch }

/-- The rows as the ticket repair leaves them in the working state (R143, R183, steps 4 and 7). -/
def Rows.repaired (r : Rows) : Rows :=
  r.putRows (r.repair r.countersAtStart)

/-! What a row of the store has room for (R178, assumption 9). -/

/-- A number that an s32 field holds. -/
def Fits32 (n : Int) : Prop :=
  -2147483648 ≤ n ∧ n < 2147483648

/-- A summary whose numbers fit a ticket: up to 12 groups (R88, 12.7). -/
def Summary.retainable (m : Summary) : Prop :=
  m.groups.length ≤ 12 ∧ ∀ g ∈ m.groups, g.axles < 256 ∧ Fits32 g.load ∧ Fits32 g.limit

/-- A visit entry whose fields fit its rows. -/
def VisitEntry.retainable (e : VisitEntry) : Prop :=
  e.vehicle.length = 12 ∧ Fits32 e.weight ∧ e.bound ≠ some 0 ∧ ∀ m, e.summary = some m → m.retainable

/-- A recent-ticket copy whose fields fit its rows. -/
def TicketCopy.retainable (c : TicketCopy) : Prop :=
  let t := c.ticket
  t.visit.retainable ∧ Fits32 t.weight2 ∧ Fits32 t.gross ∧ Fits32 t.tare ∧ Fits32 t.net ∧ 0 ≤ t.e ∧ t.e < 4294967296
    ∧ c.recalls < 65536

/-- An audit entry whose detail fits its row: a COMMIT entry lists up to 40 of the 137 parameters in ascending order
(12.7). -/
def AuditEntry.retainable (e : AuditEntry) : Prop :=
  if e.kind = .commit then
    ∃ (oldCrc newCrc : W32) (count : W16) (listed : Option (List Nat)) (restored : Bool),
      e.detail = commitDetail oldCrc newCrc count listed restored
        ∧ ∀ ns, listed = some ns → ns.length ≤ 40 ∧ ns.Pairwise (· < ·) ∧ ∀ n ∈ ns, n < 137
  else e.detail.length ≤ 46

/-- What every start finds and leaves (R118, R119, R25, R90, R106, R120, R163): the blocks at their start values, the
active set read from the image of the epoch, or the manufacture set standing in for one that does not check (R181,
R23), the cells that this set gives (R12), the working state handed over from the rows as repaired (R183, R131, R137,
R81, R116), and the header that shows them. -/
structure Started (cause : StartCause) (s t : State) : Prop where
  power : t.power = .on
  pins : t.pins = s.pins
  run : t.regs.run = false
  restart : t.regs.restart = false
  link : t.link = Link.start t.clock
  back : t.back = ⟨[], []⟩
  validSet :
    ∀ i, t.store.rows.image (placeOfEpoch t.store.rows.countersAtStart.epoch) = some i →
      i.epoch = t.store.rows.countersAtStart.epoch → i.set.valid = true → t.metro = ⟨i.set, i.epoch, false⟩
  standInSet :
    (∀ i, t.store.rows.image (placeOfEpoch t.store.rows.countersAtStart.epoch) = some i →
      i.epoch = t.store.rows.countersAtStart.epoch → i.set.valid = false) →
      t.metro = ⟨manufactureSet, t.store.rows.countersAtStart.epoch, true⟩
  cells : t.cells = allCells.map (startCell t.metro)
  chain : t.chain = Chain.start
  monitor : t.monitor = Monitor.start t.metro.active t.metro.standIn
  lane : t.lane = Lane.start
  intake : t.intake = Intake.start
  capture : t.capture = none
  session : t.session = Session.start
  whole : t.unfinished = []
  visits : t.visits = { Visits.start with places := t.store.rows.repaired.visitTable }
  tickets :
    t.tickets =
      { Tickets.start with places := t.store.rows.repaired.ticketTable t.store.rows.countersAtStart.lastTicket }
  tracker : t.tracker = Tracker.start t.pins.strips t.clock t.store.rows.repaired.classTable
  site : t.site = t.store.rows.repaired.siteSettings.getD defaultSite
  sealLine : t.sealLine = Seal.start
  shownIdent : t.mem.read32 hdrIdent = ident
  shownBoot : t.mem.read32 hdrBoot = t.store.counters.bootCount
  shownTicket : t.mem.read32 hdrTicket = t.store.rows.countersAtStart.lastTicket
  shownEpoch : t.mem.read32 hdrEpoch = t.store.rows.countersAtStart.epoch
  shownFault : t.mem.read16 hdrStoreFault = BitVec.ofNat 16 (bit t.store.latch)
  shownVisits : t.mem.read16 hdrVisits = BitVec.ofNat 16 t.visitCount
  shownCause : t.mem.read16 hdrCause = BitVec.ofNat 16 cause.code
  shownTime : t.mem.read32 hdrTime = t.time.time
  shownClockSet : t.mem.read16 hdrClockSet = BitVec.ofNat 16 (bit t.time.isSet)
  shownCadence : t.mem.read32 hdrCadence = 0
  shownLink : t.mem.read16 hdrLink = BitVec.ofNat 16 LinkState.waiting.code
  shownSession : t.mem.read16 hdrSession = BitVec.ofNat 16 SessionState.closed.code
  shownSweep : t.mem.read16 hdrSweep = 15
  shownRefused : t.mem.read16 hdrRefused = 0xFFFF
  slots : ∀ x, bytesFrom 0x400 0x800 x → t.mem.readByte x = 0

/-- The STARTUP record of a start (R160, 12.7): its cause, and the values that the part stands at. -/
def startUpContent (cause : StartCause) (t : State) : List Byte :=
  u16 cause.code ++ u16 (bit t.store.latch) ++ bytes32 t.store.counters.bootCount ++ bytes32 ident
    ++ bytes32 t.metro.epoch ++ bytes32 t.store.counters.lastTicket ++ u16 t.visitCount ++ u16 (bit t.time.isSet)
    ++ bytes32 t.time.time

/-- What follows a STARTUP record (R160): the records held during the start are offered in the order they arose, and a
SITE_DEFAULTED notice comes after them where the site row gave no settings (R116, assumption 51). -/
def followed (s : State) : State :=
  let offered :=
    s.journal.held.foldl State.offer ({ s with journal := { s.journal with holding := false, held := [] } } : State)
  if offered.store.rows.siteSettings.isNone then offered.notice .siteDefaulted 0 0 0 [] else offered

/-- What power-on and pin reset make of the journal (R118, R160), from the state `u` in which the memory is initialised:
every page FREE, nothing placed, queued, noted or owed, and the AUDIT records of the start held. STARTUP is then the
first record of page 0, with record serial 1, and the others follow. -/
structure JournalBegun (cause : StartCause) (u t : State) : Prop where
  journal : u.journal = { Journal.start with holding := true, held := u.journal.held }
  held : ∀ r ∈ u.journal.held, r.kind = .audit
  pages : ∀ x, 0x1C00 ≤ x → u.mem.readByte x = 0
  free : ∀ p, u.pageState p = pageFree
  shownPage : u.mem.read16 hdrLastPage = 0
  shownSequence : u.mem.read32 hdrLastSequence = 0
  shownFill : u.mem.read16 hdrNextFill = 0
  shownOutbox : u.mem.read16 hdrOutbox = 0
  shownBlocked : u.mem.read16 hdrBlocked = 0
  opened : (u.offer ⟨.startup, 0, startUpContent cause t⟩).journal.current = some 0
  filling : (u.offer ⟨.startup, 0, startUpContent cause t⟩).pageState 0 = pageFilling
  count : (u.offer ⟨.startup, 0, startUpContent cause t⟩).pageCount 0 = 1
  first :
    (u.offer ⟨.startup, 0, startUpContent cause t⟩).mem.readBytes (pageBody 0) 36 =
      u16 1 ++ u16 9 ++ bytes32 1 ++ startUpContent cause t
  rest : t = followed (u.offer ⟨.startup, 0, startUpContent cause t⟩)
  staging : ∀ x, bytesFrom stagingBase 0x1000 x → t.mem.readByte x = 0

/-- What the host and the lane see of a part without power or held in a reset (R99, R21): every read returns 0 and
every line is inactive. -/
structure Silent (t : State) : Prop where
  memory : ∀ a, t.hostRead a = 0
  registers : ∀ r third, t.hostReadRegister r third = 0
  aRed : t.lineARed = false
  aGreen : t.lineAGreen = false
  bRed : t.lineBRed = false
  bGreen : t.lineBGreen = false
  horn : t.lineHorn = false

end Sys2Proof.Machine
end

