-- ==== Sys2Proof/Certificates/Slice0/Obligations.lean ====
section
/-! DEFINITION. The statements about the model, for the provers: the queue and the power events, the converter link,
the measurement, the lane and the traverses, the host's bus, the orders, the session, the store and the journal. -/

open Sys2Proof Sys2Proof.Machine

/-! The queue, the interface and the invariant. -/

/-- A step takes the command at the front of the queue and answers what its meaning answers on the state with the
queue's rest; on an empty queue the block idles (the model's choice, assumption 1). -/
def Obligations.StepRunsTheFrontCommand : Prop :=
  (∀ (c : Instr) (rest : List Instr) (s : State),
    step { s with pending := c :: rest } = exec c { s with pending := rest }) ∧
  ∀ s : State, s.pending = [] → step s = .next s

/-- Every command has an effect in every state: none ends in a fault or a refusal, and none touches the queue. -/
def Obligations.EveryCommandAnswersANextState : Prop :=
  ∀ (c : Instr) (s : State), ∃ t : State, exec c s = .next t ∧ t.pending = s.pending

/-- The part after reset has the invariant. -/
def Obligations.ResetHasTheInvariant : Prop :=
  State.reset.Inv

/-- Every step keeps the invariant: the exchange memory in canonical form, both heads RED with source OVERRIDE while
an override cause is marked, no capture in flight while a session is OPEN or COMMITTING, the bounds of the edge queue,
the outbox, the working audit log and the store queue, no bit beyond the five causes in the attention registers, no
record held back by a start-up, and a cadence event that has stopped, if at all, at an event that is due in a part that
runs. -/
def Obligations.StepKeepsTheInvariant : Prop :=
  ∀ s t : State, s.Inv → step s = .next t → t.Inv

/-- A command that is no power event and no change of an input pin changes nothing in a part without power or held in
a reset; that the pins alone follow then is the model's choice (assumption 7). -/
def Obligations.UnpoweredPartTakesNoCommand : Prop :=
  ∀ (c : Instr) (s : State), s.power ≠ .on →
    match c with
    | .powerOn _ _ => True
    | .pinReset _ _ => True
    | .powerLoss _ => True
    | .stripEdge _ l pressed => exec c s = .next { s with pins := { s.pins with strips := s.pins.strips.set l pressed } }
    | .sealChange level => exec c s = .next { s with pins := { s.pins with sealInput := level } }
    | .sealInitial level => exec c s = .next { s with pins := { s.pins with sealInput := level } }
    | _ => exec c s = .next s

/-! Power, reset and restart. -/

/-- POWER_ON starts the part: every block at its start values, the active set that of the image of the epoch, or the
manufacture set standing in where that image does not check, with the cells ACTIVE that a valid set maps to an enabled
deck, the clock unset, the boot count raised, the retained rows as they were, the audit log rebuilt from them where the
start writes no entry, and the job of the start requested with the rows of the ticket repair. The journal begins with
every page FREE, nothing owed and the staging area 0; STARTUP with its cause is the first record of page 0, and the
records held meanwhile follow it. That repair frees the place of a visit that a ticket has closed, and discards the
copy of the next ticket number, whose visit it writes back if the table does not hold it. The model's choices: the
lowest-numbered free place and the one freeing row after the visit's rows (assumption 24), no visit written back where
no place is free (assumption 58), the rebuilt log (assumption 23), a command being sent on the back-channel ended
(assumption 30), the place of SITE_DEFAULTED (assumption 51), and POWER_ON with the reset still held, or in a part whose power has not been seen to go
(assumption 7). POWER_LOSS leaves a silent part with its pins, and with its rows where none was being written. -/
def Obligations.PowerOnAndPowerLoss : Prop :=
  (∀ (s : State) (left : Residue), s.power = .off →
    ∃ t : State, exec (.powerOn false left) s = .next t ∧ Started .powerOn s t ∧ t.clock = s.clock ∧ t.time = EngineClock.start
      ∧ t.regs.enable = 0 ∧ t.store.rows = s.store.rows ∧ (∃ u : State, JournalBegun .powerOn u t)
      ∧ ∀ x, s.store.rows.countersRow = some x →
        t.store.counters.bootCount = x.counters.bootCount + 1
          ∧ ⟨.startUp, s.store.rows.repair x.counters ++ [.counters .asTheyStand]⟩ ∈ t.store.waiting
          ∧ (s.store.rows.imageTest x.counters.epoch = none → x.counters.sessionOpen = false →
            let log := rebuiltAudit s.store.rows.audit x.counters.auditSerial
            (∃ e ∈ log.entries, e.kind = .commit ∧ e.epoch = x.counters.epoch) ∨ x.counters.epoch = 0 →
            t.audit.entries = log.entries ∧ t.audit.last = log.last)) ∧
  (∀ (m : Metrology) (c : CellId),
    let x := startCell m c
    let mapped := m.standIn = false ∧ ∃ d, m.active.deckOf c = some d ∧ m.active.isEnabled d = true
    (x.state = .active ↔ mapped) ∧ (x.state = .unfitted ↔ ¬mapped) ∧ x.faultRun = 0 ∧ x.recovery = 0
      ∧ x.restarts = 0 ∧ x.lastGood = none) ∧
  (∀ (r : Rows) (c : Counters) (i : Nat) (e : VisitEntry), i < 64 → r.visitAt i = some e → e.number = c.closedVisit →
    (∀ j x, j < i → r.visitAt j = some x → x.number ≠ c.closedVisit) → r.repairRemoval c = [.freeVisit i]) ∧
  (∀ (r : Rows) (c : Counters), (∀ i x, i < 64 → r.visitAt i = some x → x.number ≠ c.closedVisit) →
    r.repairRemoval c = []) ∧
  (∀ (r : Rows) (c : Counters) (i : Nat) (x : TicketCopy), i < 16 → r.ticketAt i = some x →
    x.ticket.number = c.lastTicket + 1 →
    (∀ j y, j < i → r.ticketAt j = some y → y.ticket.number ≠ c.lastTicket + 1) →
    ((∃ j e, j < 64 ∧ r.visitAt j = some e ∧ e.number = x.ticket.visit.number) →
      r.repairCopy c = [.freeTicket i]) ∧
    ((∀ j e, j < 64 → r.visitAt j = some e → e.number ≠ x.ticket.visit.number) →
      ∀ j, j < 64 → r.visitAt j = none → (∀ m, m < j → r.visitAt m ≠ none) →
        r.repairCopy c = visitRows j x.ticket.visit ++ [.freeTicket i]) ∧
    ((∀ j, j < 64 → r.visitAt j ≠ none) → r.repairCopy c = [.freeTicket i])) ∧
  (∀ (r : Rows) (c : Counters), (∀ i x, i < 16 → r.ticketAt i = some x → x.ticket.number ≠ c.lastTicket + 1) →
    r.repairCopy c = []) ∧
  (∀ (s : State) (left : Residue), s.power = .off →
    ∃ t : State, exec (.powerOn true left) s = .next t ∧ t.power = .held .powerOn ∧ Silent t ∧ t.pins = s.pins
      ∧ t.store.rows = s.store.rows) ∧
  (∀ (s u : State) (hold : Bool) (left : Residue), s.power ≠ .off → exec (.powerLoss left) s = .next u →
    exec (.powerOn hold left) s = exec (.powerOn hold left) u) ∧
  ∀ (s : State) (left : Residue), (s.power = .on → s.unfinished = []) →
    ∃ t : State, exec (.powerLoss left) s = .next t ∧ t.power = .off ∧ Silent t
      ∧ t.pins = s.pins ∧ t.capture = none ∧ t.intake = Intake.start ∧ t.time = EngineClock.start
      ∧ (s.store.queue = [] → s.store.waiting = [] → t.store.rows = s.store.rows)

/-- PIN_RESET starts a part that runs, or ends a hold with the cause it began with; held, it leaves the part silent;
without power it does nothing. The rows stand unless one was being written, and the journal begins as at power-on, with
a STARTUP record of its own cause. The holds (assumption 7), that the start ends a command being sent on the
back-channel (assumption 30), and the place of SITE_DEFAULTED (assumption 51) are the model's choices. -/
def Obligations.PinResetStartsThePart : Prop :=
  (∀ (s : State) (left : Residue), s.Ready →
    ∃ t : State, exec (.pinReset false left) s = .next t ∧ Started .pin s t ∧ t.clock = s.clock ∧ t.time = EngineClock.start
      ∧ t.regs.enable = 0 ∧ (∃ u : State, JournalBegun .pin u t)
      ∧ (s.store.queue = [] → s.store.waiting = [] → t.store.rows = s.store.rows
        ∧ ∀ x, s.store.rows.countersRow = some x → t.store.counters.bootCount = x.counters.bootCount + 1)) ∧
  (∀ (s : State) (left : Residue), s.Ready →
    ∃ t : State, exec (.pinReset true left) s = .next t ∧ t.power = .held .pin ∧ Silent t ∧ t.pins = s.pins) ∧
  (∀ (s : State) (left : Residue) (cause : StartCause), s.power = .held cause →
    ∃ t : State, exec (.pinReset false left) s = .next t ∧ Started cause s t ∧ ∃ u : State, JournalBegun cause u t) ∧
  ∀ (s : State) (hold : Bool) (left : Residue), s.power = .off → exec (.pinReset hold left) s = .next s

/-- RESTART restarts the engine: the blocks at their start values and every slot empty, with ATTN_ENABLE, the engine
clock, the staging area and the boot count kept, and the audit entries where the store writes nothing. The row being
written is finished, with its retry if needed: a job it completes acts as at any other time, and one it fails sets the
latch; every other queued row and waiting job is discarded. The journal discards its reservation and publishes a current
page that holds a record; the records of the outbox are noted as lost and it is emptied, a SUMMARY is owed, and the
attention count is 0. STARTUP is then offered: on a journal that is not blocked it is placed and the SUMMARY follows it
at once; on a blocked one it joins the empty outbox. The records held during the start follow. Written while RESTART
reads 1, it does nothing. The model's choices: a command being sent on the back-channel is ended (assumption 30), the
boot count is kept also where the counters row does not check (assumption 23), the records of the row that is finished
are held too (assumption 36), and the place of SITE_DEFAULTED (assumption 51). -/
def Obligations.RestartKeepsEnableClockAndBootCount : Prop :=
  (∀ (s : State) (finish : RowFinish), s.mem.wf = true → s.Ready → s.regs.restart = false →
    let matched := finish.first = true ∨ (s.store.retry = false ∧ finish.second = true)
    let finished : State :=
      ({ s with
        regs := { s.regs with restart := true, run := false }
        journal := { s.journal with holding := true, held := [] } } : State).finishStore finish
    ∃ t : State, exec (.restart finish) s = .next t ∧ Started .engineRestart s t ∧ t.clock = s.clock ∧ t.time = s.time
      ∧ t.regs.enable = s.regs.enable ∧ t.regs.refused = none
      ∧ t.store.counters.bootCount = s.store.counters.bootCount
      ∧ t.store.queue = []
      ∧ (∀ j ∈ t.store.waiting, j.kind = .startUp ∨ ∃ n, j.kind = .auditRow n)
      ∧ (s.store.queue = [] → s.store.waiting = [] →
        t.store.rows = s.store.rows
          ∧ ∀ x, s.store.rows.countersRow = some x → s.store.rows.imageTest x.counters.epoch = none →
            x.counters.sessionOpen = false → x.counters.epoch = 0 →
            t.audit.entries = s.audit.entries ∧ t.audit.last = s.audit.last)
      ∧ (∀ kind w rest jobs, s.store.waiting = [] → s.store.queue = ⟨kind, w :: rest⟩ :: jobs →
        (matched → t.store.rows = (s.writeRow w).store.rows)
          ∧ (¬matched → t.store.rows = (s.leaveRow w finish.left).store.rows ∧ t.store.latch = true))
      ∧ Memory.SameBut (fun x => journalBytes x ∨ x < 0xC00) s.mem t.mem
      ∧ ∃ u : State, u.journal = { finished.journal with held := u.journal.held }
        ∧ (∀ x, journalBytes x → u.mem.readByte x = finished.mem.readByte x)
        ∧ (let last := followed (u.restartJournal.offer ⟨.startup, 0, startUpContent .engineRestart t⟩).drain
          t = { last with regs := { last.regs with restart := false } })) ∧
  (∀ s : State,
    let j := s.journal
    let ended : State := { s with journal := { j with reservation := none, due := false } }
    let turned := fun u : State =>
      { u with
        journal :=
          { u.journal with
            outbox := []
            owed := true
            owedRestart := true
            attention := 0
            notes := j.outbox.foldl Notes.drop j.notes }
        mem := u.mem.write16 hdrOutbox 0 }
    (∀ p, j.current = some p → s.pageCount p ≠ 0 → s.restartJournal = turned ended.publish) ∧
    ((∀ p, j.current = some p → s.pageCount p = 0) → s.restartJournal = turned ended)) ∧
  (∀ (s : State) (content : List Byte),
    let j := s.journal
    let r : Record := ⟨.startup, 0, content⟩
    let noted := fun u : State =>
      { u with journal := { u.journal with notes := Notes.start, owed := false, owedRestart := false } }
    j.reservation = none → j.outbox = [] → j.owed = true → s.cells.length = 24 → content.length = 28 →
    (∀ p, j.blocked = false → j.current = some p → s.pageUsed p = 0 → s.mem.wf = true →
      let placed := s.placeOn p r
      (s.offer r).drain = (noted (placed.placeOn p placed.summaryRecord)).judgePage) ∧
    (j.blocked = true →
      (s.offer r).drain =
        { s with journal := { j with outbox := [r] }, mem := s.mem.write16 hdrOutbox 1 })) ∧
  (∀ (s : State) (finish : RowFinish), s.store.queue = [] → s.store.waiting = [] →
    s.finishStore finish = { s with store := { s.store with retry := false } }) ∧
  (∀ (s : State) (finish : RowFinish) (kind : JobKind) (w : RowWrite) (rest : List RowWrite) (jobs : List Job),
    s.store.waiting = [] → s.store.queue = ⟨kind, w :: rest⟩ :: jobs →
    let matched := finish.first = true ∨ (s.store.retry = false ∧ finish.second = true)
    let emptied := fun u : State => { u with store := { u.store with queue := [], waiting := [], retry := false } }
    (matched → rest ≠ [] → s.finishStore finish = emptied (s.writeRow w)) ∧
    (matched → rest = [] →
      s.finishStore finish =
        emptied
          (({ s with store := { (s.writeRow w).store with queue := jobs, retry := false } } : State).jobCompleted kind)) ∧
    (¬matched → s.finishStore finish = emptied ((s.leaveRow w finish.left).failJob ⟨kind, w :: rest⟩ w))) ∧
  ∀ (s : State) (finish : RowFinish), s.Ready → s.regs.restart = true → exec (.restart finish) s = .next s

/-- The reset state of the model is what POWER_ON makes of a part new from manufacture (the model's choice,
assumption 8). -/
def Obligations.ResetIsThePowerOnOfANewPart : Prop :=
  ∀ (s u : State) (left : Residue), s.pending = [] → s.pins = Pins.start → s.store.rows = manufactureRows →
    s.power ≠ .on → exec (.powerLoss left) s = .next u → exec (.powerOn false left) u = .next State.reset


/-! The converter link and the cells. -/

/-- Bytes that are no acceptable frame (a partial frame, a failed CRC, an arrival too early) change nothing but the
clock. An accepted frame becomes the last frame, restarts the frame timer and raises the run count. In WAITING and
LOST, short of the count that ends them, that is all; in LIVE and RESUMED the frame is a cadence event. The frame with
which the count is reached completes the warm-up or the resumption: the link changes at a cadence event of that frame,
and where the plan takes events apart it stops before, at the row of that change (the model's choice, assumption 4). A
frame that arrives after the frame timer has run out is taken after that expiry, which is what FRAME_TIMER_EXPIRY does
in the fixed order of work (the model's choice, assumption 6): it then begins a new run at 1, in LOST. -/
def Obligations.FramesFeedTheLink : Prop :=
  (∀ (s : State) (dt : W32) (bytes : List Byte), s.Ready → s.noHolds →
    exec (.frameAbandoned dt bytes) s = .next (s.later dt)) ∧
  (∀ (s : State) (dt : W32) (bytes : List Byte) (plan : Plan), s.Ready → s.noHolds →
    (isFrame bytes && frameCrcOk bytes && (s.later dt).spacedOk) = false →
    exec (.frameReceived dt bytes plan) s = .next (s.later dt)) ∧
  (∀ (s : State) (dt : W32) (bytes : List Byte) (plan : Plan), s.Ready → s.noHolds →
    isFrame bytes = true → frameCrcOk bytes = true → (s.later dt).spacedOk = true →
    (s.later dt).timerOver 151 = true →
    let stopped : State := { s.later dt with link := { s.link with runCount := 0, timer := false } }
    (s.link.state = .lost →
      exec (.frameReceived dt bytes plan) s =
        .next
          { stopped with
            link :=
              { stopped.link with
                runCount := 1
                timer := true
                lastArrival := some (s.clock + dt)
                lastFrame := some (parseFrame bytes) } }) ∧
    (s.link.state ≠ .lost →
      let expired :=
        ({ stopped with link := { stopped.link with tickBase := s.clock + dt } } : State).cadenceEvent false
          [.enter .lost] plainPlan
      exec (.frameTimerExpiry dt plainPlan) s = .next expired ∧
      exec (.frameReceived dt bytes plan) s = .next ((expired.acceptFrame (parseFrame bytes)).useFrame plan))) ∧
  (∀ (s : State) (f : Frame) (plan : Plan), s.link.state = .lost → s.link.timer = false →
    (s.acceptFrame f).useFrame plan =
      { s with
        link := { s.link with runCount := 1, timer := true, lastArrival := some s.clock, lastFrame := some f } }) ∧
  ∀ (s : State) (dt : W32) (bytes : List Byte) (plan : Plan), s.Ready → s.noHolds →
    isFrame bytes = true → frameCrcOk bytes = true → (s.later dt).spacedOk = true →
    (s.later dt).timerOver 151 = false →
    let run := if s.link.timer then s.link.runCount + 1 else 1
    let accepted : State :=
      { s.later dt with
        link :=
          { s.link with
            runCount := run
            timer := true
            lastArrival := some (s.clock + dt)
            lastFrame := some (parseFrame bytes) } }
    let changing := fun (e : Own) (st : LinkState) =>
      if plan.apart then { accepted with unfinished := .own e :: eventPieces true [.enter st] plan }
      else accepted.cadenceEvent true [.enter st] plan
    (s.link.state = .waiting → run < 400 → exec (.frameReceived dt bytes plan) s = .next accepted) ∧
    (s.link.state = .lost → run < 200 → exec (.frameReceived dt bytes plan) s = .next accepted) ∧
    (s.link.state = .live ∨ s.link.state = .resumed →
      exec (.frameReceived dt bytes plan) s = .next (accepted.cadenceEvent true [] plan)) ∧
    (s.link.state = .waiting → 400 ≤ run → exec (.frameReceived dt bytes plan) s = .next (changing .warmUp .live)) ∧
    (s.link.state = .lost → 200 ≤ run → exec (.frameReceived dt bytes plan) s = .next (changing .resumed .resumed))

/-- A cadence event raises the cadence count by one, shows it in the header, ends the releases of the event before, and
then takes the pieces of each block's work exactly once, in the plan's order: the snapshot before the examinations that
read the one of this event, the link's change before the computation, and a computation either before the snapshot that
the examinations read or after them. The pieces of each work are named, the tracker's in the order of its seven steps:
the cells are examined and the chain computed at a frame only, with the session's provisional means next to the
computation (assumption 59), and a tick's event looks for restarts that are due. What
each piece does is said here or in the statement of its own function. The model's choices: that the count advances
before the link's change (assumption 50), the mark of a released cell (assumption 37), the order of cells at one frame
(assumption 53) and of lines found stuck (assumption 52), and that the closing count is not raised at the event that
enters CLOSING (assumption 19). An event with a row of its own is taken where it is
due, or the cadence event stops there, and its row takes it and goes on; at any other moment the row changes nothing,
and every other command finds the cadence event finished (the model's choices, assumptions 3 and 4). A refresh of the
live board raises its sequence by two and writes its contents between: the snapshot's values and flag words, the zero
offsets, the tracker's and the lane's reports and the cell states, each at its place (that the remaining count of a
burst shows 0 while none runs is the model's choice, assumption 49). -/
def Obligations.CadenceEventDoesEachWorkOnce : Prop :=
  (∀ (s : State) (frame : Bool) (change : List Piece) (plan : Plan), s.mem.wf = true →
    ∃ t : State, s.cadenceEvent frame change plan = t.run plan.apart (eventPieces frame change plan)
      ∧ t = { s with
        link := { s.link with cadence := s.link.cadence + 1 }
        cells := s.cells.map fun c => { c with released := false }
        mem := t.mem }
      ∧ t.mem.read32 hdrCadence = s.link.cadence + 1
      ∧ Memory.SameBut (bytesFrom hdrCadence 4) s.mem t.mem) ∧
  (∀ plan : Plan, (planWorks plan).Nodup ∧ (∀ w : Work, w ∈ planWorks plan)
    ∧ (planWorks plan).idxOf .snapshot < (planWorks plan).idxOf .zeroWatch
    ∧ (planWorks plan).idxOf .snapshot < (planWorks plan).idxOf .tracking
    ∧ (planWorks plan).idxOf .link < (planWorks plan).idxOf .compute
    ∧ ((planWorks plan).idxOf .compute < (planWorks plan).idxOf .snapshot
      ∨ ((planWorks plan).idxOf .tracking < (planWorks plan).idxOf .compute
        ∧ (planWorks plan).idxOf .zeroWatch < (planWorks plan).idxOf .compute))) ∧
  (∀ (frame : Bool) (change : List Piece) (plan : Plan),
    eventPieces frame change plan = (planWorks plan).flatMap (workPieces frame change)) ∧
  (∀ (frame : Bool) (change : List Piece),
    let pieces := workPieces frame change
    let examined := fun c : CellId =>
      [Piece.examineCell c, .own (.cellFault c), .own (.cellRecovered c), .own (.restartDue c)]
    let watched := fun d : DeckId => [Piece.examineWatch d, .own (.watchExpired d)]
    let filled := fun d : DeckId => Piece.own (.filterFilled d)
    pieces .link = change ∧
    (frame = true →
      pieces .compute =
        (List.finRange 24).flatMap examined
          ++ [.computeChain, .provisional, filled 0, filled 1, filled 2, filled 3]) ∧
    (frame = false → pieces .compute = (List.finRange 24).map fun c => .own (.restartDue c)) ∧
    pieces .snapshot = [.publishSnapshot] ∧
    pieces .zeroWatch = watched 0 ++ watched 1 ++ watched 2 ++ watched 3 ∧
    pieces .tracking = [.countTracking, .own .tracking] ∧
    pieces .tracker =
      [.consumeEdges, .countWindows, .own .windowEnd, .own (.crossing .a), .own (.crossing .b), .own (.stuck .aOut),
        .own (.stuck .aIn), .own (.stuck .bOut), .own (.stuck .bIn), .judgeBridge, .judgeClosing, .own .closing,
        .publishTrack] ∧
    pieces .signals = [.laneWork, .own .burstEnd, .own .toggle, .laneReport] ∧
    pieces .sweep = [.sweep] ∧
    pieces .capture = [.examineCapture, .own .deadline] ∧
    pieces .clock = [.countSecond, .own .time] ∧
    pieces .journal = [.countDelay, .own .publishDelay] ∧
    pieces .session = [.session, .own .install, .own .expire] ∧
    pieces .board = [.board]) ∧
  (∀ (s : State) (c : CellId) (d : DeckId),
    s.doPiece (.enter .lost) = s.enterLost ∧ s.doPiece (.enter .live) = s.enterLive ∧
    s.doPiece (.enter .resumed) = s.enterResumed ∧ s.doPiece (.enter .waiting) = s ∧
    s.doPiece (.examineCell c) = s.examineCell c ∧ s.doPiece .computeChain = s.computeChain ∧
    s.doPiece (.examineWatch d) = s.watchDeck d ∧ s.doPiece .judgeBridge = s.judgeBridge ∧
    s.doPiece .laneWork = s.workLane ∧ s.doPiece .sweep = s.sweep ∧ s.doPiece .board = s.refreshBoard ∧
    s.doPiece .countTracking = { s with monitor := { s.monitor with tracking := s.monitor.tracking + 1 } } ∧
    s.doPiece .countSecond = { s with time := { s.time with second := s.time.second + 1 } }) ∧
  (∀ s : State,
    let l := s.lane
    s.doPiece .laneReport =
      { s with
        lane :=
          { l with
            report :=
              { aspectA := l.appliedA
                aspectB := l.appliedB
                overriding := l.overriding
                causes := l.causes
                aspectPending := l.aspectPending
                horn := l.horn
                sounding := l.sounding
                burst := l.burst } } }) ∧
  (∀ s : State,
    let shown := fun d : DeckId =>
      let x := s.chain.decks.get d
      DeckSnapshot.mk x.legal x.fine x.gross x.corrected (s.flagsOf d)
    let any := fun f : DeckFlags → Bool => f (s.flagsOf 0) || f (s.flagsOf 1) || f (s.flagsOf 2) || f (s.flagsOf 3)
    s.doPiece .publishSnapshot =
      { s with
        monitor :=
          { s.monitor with
            snapshot :=
              { decks := ⟨shown 0, shown 1, shown 2, shown 3⟩
                legal := s.chain.legal
                fine := s.chain.fine
                gross := s.chain.gross
                flags :=
                  { filling := any (·.filling)
                    degraded := any (·.degraded)
                    linkFault := any (·.linkFault)
                    inTest := any (·.inTest)
                    uncalibrated := any (·.uncalibrated)
                    zeroUnset := any (·.zeroUnset)
                    overload := any (·.overload) || s.chain.overload
                    under := any (·.under)
                    motion := any (·.motion) } } } }) ∧
  (∀ s : State,
    let published := fun (state : TrackState) (on : Nat) (contained : Bool) =>
      { s with
        tracker :=
          { s.tracker with
            report := { state := state, number := s.tracker.number, axlesOn := on, contained := contained } } }
    let kept := fun tr : Traverse => { s with tracker := { s.tracker with traverse := some tr } }
    (s.tracker.traverse = none →
      s.doPiece .consumeEdges = s.consumeQueue ∧ s.doPiece .countWindows = s
        ∧ s.doPiece .publishTrack = published .empty 0 false) ∧
    ∀ tr : Traverse, s.tracker.traverse = some tr →
      s.doPiece .countWindows =
        kept { tr with axles := tr.axles.map fun a => { a with window := a.window.map fun n => n - 1 } } ∧
      (tr.closing = none →
        s.doPiece .consumeEdges = s.consumeQueue
          ∧ s.doPiece .publishTrack = published .active tr.axlesOn s.tracker.contained) ∧
      ∀ n, tr.closing = some n →
        s.doPiece .consumeEdges = (kept { tr with closing := some (n + 1) }).consumeQueue
          ∧ s.doPiece .publishTrack = published .closing tr.axlesOn false) ∧
  (∀ s : State,
    let t := s.doPiece .provisional
    t = { s with session := { s.session with provisional := t.session.provisional } } ∧
    s.doPiece .session =
      { s with
        session :=
          { s.session with
            idle := if s.session.state = .opened then s.session.idle + 1 else s.session.idle } }) ∧
  (∀ s : State,
    let f := s.monitor.snapshot.flags
    let ready :=
      f.filling = false ∧ f.degraded = false ∧ f.linkFault = false ∧ f.inTest = false ∧ f.uncalibrated = false
        ∧ f.zeroUnset = false ∧ f.overload = false ∧ f.under = false
    (s.capture = none → s.doPiece .examineCapture = s) ∧
    ∀ c : Capture, s.capture = some c →
      let missing :=
        if ¬ready then some Unmet.tradeReady
        else if s.tracker.report.contained = false then some .contained
        else if f.motion = true then some .still
        else none
      (c.takenAt = s.link.cadence ∨ c.storing = true → s.doPiece .examineCapture = s) ∧
      (c.takenAt ≠ s.link.cadence → c.storing = false →
        (missing = none → s.doPiece .examineCapture = s.takeValue c) ∧
        ∀ u, missing = some u →
          (0 < c.remaining →
            s.doPiece .examineCapture = { s with capture := some { c with remaining := c.remaining - 1 } }) ∧
          (c.remaining = 0 → s.doPiece .examineCapture = { s with capture := some { c with missed := some u } }))) ∧
  (∀ s : State,
    ((∀ p, s.journal.current = some p → s.pageCount p = 0) → s.doPiece .countDelay = s) ∧
    ∀ p, s.journal.current = some p → s.pageCount p ≠ 0 →
      s.doPiece .countDelay =
        { s with
          journal :=
            { s.journal with
              delay := if s.journal.firstAt = some s.link.cadence then s.journal.delay else s.journal.delay + 1
              firstAt := none } }) ∧
  (∀ (s : State) (apart : Bool) (e : Own) (p : Piece) (ps : List Piece),
    s.run apart [] = s ∧
    (s.ownDue e = false → s.run apart (.own e :: ps) = s.run apart ps) ∧
    (s.ownDue e = true → s.run true (.own e :: ps) = { s with unfinished := .own e :: ps }) ∧
    (s.ownDue e = true → s.run false (.own e :: ps) = (s.takeOwn e).run false ps) ∧
    ((∀ e, p ≠ .own e) → s.run apart (p :: ps) = (s.doPiece p).run apart ps)) ∧
  (∀ (s : State) (e : Own) (rest : List Piece) (plan : Plan), s.StoppedAt e rest →
    let stopped : State := { s with unfinished := [] }
    (e ≠ .warmUp → e ≠ .resumed → exec (ownCommand plan e) s = .next ((stopped.takeOwn e).run true rest)) ∧
    (e = .warmUp → exec (ownCommand plan e) s = .next (stopped.cadenceEvent true [.enter .live] plan)) ∧
    (e = .resumed → exec (ownCommand plan e) s = .next (stopped.cadenceEvent true [.enter .resumed] plan))) ∧
  (∀ (s : State) (e : Own) (plan : Plan), s.NotStoppedAt e → exec (ownCommand plan e) s = .next s) ∧
  (∀ (s : State) (c : Instr), s.power = .on → (∀ e plan, c ≠ ownCommand plan e) → exec c s = exec c s.finish) ∧
  (∀ s : State, s.finish.unfinished = [] ∧ s.finish.power = s.power ∧ (s.unfinished = [] → s.finish = s)) ∧
  (∀ s : State, s.mem.wf = true →
    let t := s.refreshBoard
    let p := s.monitor.snapshot
    let tracker := s.tracker.report
    let lane := s.lane.report
    (∀ d : DeckId,
      let x := p.decks.get d
      let m := s.monitor.decks.get d
      t.mem.read32 (0x104 + 16 * d.val) = fieldS32 x.legal ∧ t.mem.read32 (0x108 + 16 * d.val) = fieldS32 x.fine
        ∧ t.mem.read16 (0x10C + 16 * d.val) = x.flags.word
        ∧ t.mem.read32 (0x110 + 16 * d.val) = fieldS32 (m.zero - m.zeroRef)) ∧
    t.mem.read32 0x144 = fieldS32 p.legal ∧ t.mem.read32 0x148 = fieldS32 p.fine ∧ t.mem.read16 0x14C = p.flags.word ∧
    t.mem.read16 0x150 = BitVec.ofNat 16 tracker.state.code ∧ t.mem.read16 0x152 = field16 tracker.axlesOn ∧
    t.mem.read32 0x154 = tracker.number ∧ t.mem.read16 0x158 = BitVec.ofNat 16 (bit tracker.contained) ∧
    t.mem.read16 0x15A = BitVec.ofNat 16 lane.aspectA.code ∧ t.mem.read16 0x15C = BitVec.ofNat 16 lane.aspectB.code ∧
    t.mem.read16 0x15E = laneWord lane ∧
    t.mem.read16 0x160 = BitVec.ofNat 16 lane.horn.pattern.code ∧ t.mem.read16 0x162 = field16 lane.horn.period ∧
    t.mem.read16 0x164 = field16 (lane.burst.getD 0) ∧
    ∀ (i : Nat) (x : Cell), i < 24 → s.cells[i]? = some x →
      t.mem.read16 (0x170 + 2 * i) = BitVec.ofNat 16 x.state.code) ∧
  (∀ (f : DeckFlags) (r : LaneReport) (i : Nat),
    f.word.getLsbD i =
        [f.filling, f.degraded, f.linkFault, f.inTest, f.uncalibrated, f.zeroUnset, f.overload, f.under, f.motion].getD i
          false ∧
      (laneWord r).getLsbD i =
        [r.overriding, r.causes.capture, r.causes.secondVehicle, r.causes.session, r.aspectPending, r.sounding,
          r.burst.isSome].getD i false) ∧
  ∀ s : State, s.mem.wf = true →
    ∃ t : State, s.refreshBoard = t ∧ t = { s with mem := t.mem }
      ∧ t.mem.read16 boardBase = s.mem.read16 boardBase + 2
      ∧ (∀ i b, s.boardBytes[i]? = some b → boardBase + 4 + i < 0x8000 → t.mem.readByte (boardBase + 4 + i) = b)
      ∧ Memory.SameBut (fun x => bytesFrom boardBase 2 x ∨ bytesFrom (boardBase + 4) s.boardBytes.length x) s.mem t.mem

/-- The tick timer gives a cadence event 50 ticks after its last one while the link is WAITING or LOST, at which
LINK_NO_START is taken where it is due, and nothing before that or in another state. The plan gives the order of the
work at it (assumption 3). -/
def Obligations.TickTimerGivesCadenceEvents : Prop :=
  ∀ (s : State) (dt : W32) (plan : Plan), s.Ready → s.noHolds →
    let timed : State := { s.later dt with link := { s.link with tickBase := s.clock + dt } }
    ((s.link.state = .waiting ∨ s.link.state = .lost) → 50 ≤ ticksFrom s.link.tickBase (s.clock + dt) →
      exec (.tickTimerEvent dt plan) s = .next (timed.cadenceEvent false [.own .noStart] plan)) ∧
    (¬(s.link.state = .waiting ∨ s.link.state = .lost) ∨ ticksFrom s.link.tickBase (s.clock + dt) < 50 →
      exec (.tickTimerEvent dt plan) s = .next (s.later dt))

/-- The frame timer runs out 150 ticks after the last accepted frame: the run count is 0, and from any state but LOST
the link is lost at a cadence event of the tick timer, which starts again. The plan gives the order of the work at it
(assumption 3). -/
def Obligations.FrameTimerExpiryLosesTheLink : Prop :=
  ∀ (s : State) (dt : W32) (plan : Plan), s.Ready → s.noHolds →
    let stopped : State := { s.later dt with link := { s.link with runCount := 0, timer := false } }
    ((s.later dt).timerOver 150 = false → exec (.frameTimerExpiry dt plan) s = .next (s.later dt)) ∧
    ((s.later dt).timerOver 150 = true → s.link.state = .lost →
      exec (.frameTimerExpiry dt plan) s = .next stopped) ∧
    ((s.later dt).timerOver 150 = true → s.link.state ≠ .lost →
      exec (.frameTimerExpiry dt plan) s =
        .next
          (({ stopped with link := { stopped.link with tickBase := s.clock + dt } } : State).cadenceEvent false
            [.enter .lost] plan))

/-- A link that is lost: LOST is shown, every enabled deck takes LINK_FAULT, the run counts of the cells are 0,
LINK_LOST is audited with the state left and the last frame number, and CONDITION is raised; nothing else of the part
changes. LINK_NO_START does so when 200 cadence events have passed without a frame, where a cadence event has stopped at
it (assumption 4), and nothing at any other moment. -/
def Obligations.LinkNoStartLosesTheLink : Prop :=
  (∀ s : State, s.mem.wf = true →
    ∃ t : State, s.enterLost = t
      ∧ t = { s with
        link := { s.link with state := .lost }
        cells := s.cells.map fun c => { c with faultRun := 0, recovery := 0 }
        monitor := { s.monitor with decks := t.monitor.decks }
        mem := t.mem
        regs := t.regs
        journal := t.journal
        audit := t.audit
        store := { s.store with waiting := t.store.waiting } }
      ∧ (∀ d, t.monitor.decks.get d =
        { s.monitor.decks.get d with
          flags := { s.flagsOf d with linkFault := s.metro.active.isEnabled d || (s.flagsOf d).linkFault } })
      ∧ t.mem.read16 hdrLink = BitVec.ofNat 16 LinkState.lost.code
      ∧ Audited .linkLost (u16 s.link.state.code ++ u16 s.frameNumber) s t
      ∧ t.regs.cause &&& causeCondition = causeCondition
      ∧ Registers.Raised (causeJournal ||| causeCondition) s.regs t.regs
      ∧ Memory.SameBut (fun x => journalBytes x ∨ bytesFrom hdrLink 2 x) s.mem t.mem) ∧
  (∀ (s : State) (rest : List Piece), s.StoppedAt .noStart rest →
    s.link.state = .waiting ∧ s.link.lastFrame = none ∧ 200 ≤ s.link.cadence.toNat
      ∧ exec .linkNoStart s = .next (({ s with unfinished := [] } : State).enterLost.run true rest)) ∧
  ∀ s : State, s.NotStoppedAt .noStart → exec .linkNoStart s = .next s

/-- Warm-up completes at a run count of 400: the link is LIVE, LINK_FAULT leaves every enabled deck, and CONDITION is
raised. WARM_UP_COMPLETE does so at the cadence event of the frame that has stopped at it (assumption 4). -/
def Obligations.WarmUpCompleteMakesTheLinkLive : Prop :=
  (∀ s : State, s.mem.wf = true →
    ∃ t : State, s.enterLive = t
      ∧ t = { s with
        link := { s.link with state := .live }
        monitor := { s.monitor with decks := t.monitor.decks }
        mem := t.mem
        regs := t.regs
        journal := t.journal }
      ∧ (∀ d, t.monitor.decks.get d =
        { s.monitor.decks.get d with
          flags := { s.flagsOf d with linkFault := !s.metro.active.isEnabled d && (s.flagsOf d).linkFault } })
      ∧ t.mem.read16 hdrLink = BitVec.ofNat 16 LinkState.live.code
      ∧ t.regs.cause &&& causeCondition = causeCondition
      ∧ Registers.Raised (causeJournal ||| causeCondition) s.regs t.regs
      ∧ Memory.SameBut (fun x => journalBytes x ∨ bytesFrom hdrLink 2 x) s.mem t.mem) ∧
  (∀ (s : State) (rest : List Piece) (plan : Plan), s.StoppedAt .warmUp rest →
    s.link.state = .waiting ∧ 400 ≤ s.link.runCount
      ∧ exec (.warmUpComplete plan) s =
        .next (({ s with unfinished := [] } : State).cadenceEvent true [.enter .live] plan)) ∧
  ∀ (s : State) (plan : Plan), s.NotStoppedAt .warmUp → exec (.warmUpComplete plan) s = .next s

/-- A LOST link resumes at a run count of 200: RESUMED is shown, the filter and the stability window of every enabled
deck are empty with FILLING and MOTION set, and CONDITION is raised. LINK_RESUMED does so at the cadence event of the
frame that has stopped at it (assumption 4). -/
def Obligations.LinkResumedRestartsTheFilters : Prop :=
  (∀ s : State, s.mem.wf = true →
    ∃ t : State, s.enterResumed = t
      ∧ t = { s with
        link := { s.link with state := .resumed }
        chain := { s.chain with decks := t.chain.decks, cells := t.chain.cells }
        monitor := { s.monitor with decks := t.monitor.decks }
        mem := t.mem
        regs := t.regs
        journal := t.journal }
      ∧ (∀ d, s.metro.active.isEnabled d = true →
        t.chain.decks.get d = { s.chain.decks.get d with history := [], fill := 0, running := 0 }
        ∧ t.monitor.decks.get d =
          { s.monitor.decks.get d with
            window := []
            fill := 0
            flags := { s.flagsOf d with filling := true, motion := true } })
      ∧ (∀ d, s.metro.active.isEnabled d = false →
        t.chain.decks.get d = s.chain.decks.get d ∧ t.monitor.decks.get d = s.monitor.decks.get d)
      ∧ (∀ c : CellId,
        let x := s.chain.cells.getD c.val CellChain.start
        t.chain.cells.getD c.val CellChain.start =
          if (s.metro.active.fittedTo c).isSome then { x with history := [], sum := 0 } else x)
      ∧ t.mem.read16 hdrLink = BitVec.ofNat 16 LinkState.resumed.code
      ∧ t.regs.cause &&& causeCondition = causeCondition
      ∧ Registers.Raised (causeJournal ||| causeCondition) s.regs t.regs
      ∧ Memory.SameBut (fun x => journalBytes x ∨ bytesFrom hdrLink 2 x) s.mem t.mem) ∧
  (∀ (s : State) (rest : List Piece) (plan : Plan), s.StoppedAt .resumed rest →
    s.link.state = .lost ∧ 200 ≤ s.link.runCount
      ∧ exec (.linkResumed plan) s =
        .next (({ s with unfinished := [] } : State).cadenceEvent true [.enter .resumed] plan)) ∧
  ∀ (s : State) (plan : Plan), s.NotStoppedAt .resumed → exec (.linkResumed plan) s = .next s

/-- CELL_FAULT: the cell is FAULTED with its held count, its counts start again, its deck is DEGRADED, CELL_FAULT is
audited, CONDITION is raised, and a restart is requested unless the cell has had its three. CELL_RECOVERED: a FAULTED
cell with 400 good statuses is RECOVERED with its recovery count 0, and CONDITION is raised; no audit entry is written.
Each goes on with the cadence event that has stopped at it (assumption 4). The count held of a cell that CLEAR_CELL has
released is assumption 43. The examination of a cell at a frame: a good status ends the fault run of an ACTIVE cell, adds
one to the recovery count of a FAULTED one, and gives either, and a RECOVERED one, its last good count; a bad one adds one
to the fault run, sets the recovery count to 0, and is a fault run that returns a RECOVERED cell to FAULTED. -/
def Obligations.CellFaultAndRecovery : Prop :=
  (∀ (s : State) (c : CellId) (rest : List Piece), s.mem.wf = true → s.StoppedAt (.cellFault c) rest →
    let x := s.cell c
    let fresh := x.state == .active
    let held := if fresh then x.lastGood.getD 0 else x.held
    let prior := if fresh then x.lastGood.isSome else x.prior
    (x.state = .active ∧ 20 ≤ x.faultRun ∨ x.state = .recovered ∧ 1 ≤ x.faultRun) ∧
    ∃ t : State, exec (.cellFault c) s = .next (t.run true rest)
      ∧ t = { s with
        unfinished := []
        cells :=
          s.cells.set c.val
            { x with
              state := .faulted
              faultRun := 0
              recovery := 0
              held := held
              prior := prior
              restarts := if fresh then 0 else x.restarts }
        back :=
          { s.back with
            queue :=
              if (fresh || decide (x.restarts < 3)) && !s.back.queue.contains c then s.back.queue ++ [c]
              else s.back.queue }
        monitor := { s.monitor with decks := t.monitor.decks }
        mem := t.mem
        regs := t.regs
        journal := t.journal
        audit := t.audit
        store := { s.store with waiting := t.store.waiting } }
      ∧ (∀ d, t.monitor.decks.get d =
        { s.monitor.decks.get d with
          flags := { s.flagsOf d with degraded := s.metro.active.fittedTo c == some d || (s.flagsOf d).degraded } })
      ∧ Audited .cellFault
        (u8 c.val ++ u8 (deckByte (s.metro.active.fittedTo c)) ++ u8 (s.frameStatus c).code ++ u8 s.frameNumber
          ++ u8 x.state.code ++ u8 (bit prior) ++ u8 0 ++ u8 0) s t
      ∧ t.regs.cause &&& causeCondition = causeCondition
      ∧ Registers.Raised (causeJournal ||| causeCondition) s.regs t.regs
      ∧ Memory.SameBut journalBytes s.mem t.mem) ∧
  (∀ (s : State) (c : CellId), s.NotStoppedAt (.cellFault c) → exec (.cellFault c) s = .next s) ∧
  (∀ (s : State) (c : CellId) (rest : List Piece), s.mem.wf = true → s.StoppedAt (.cellRecovered c) rest →
    (s.cell c).state = .faulted ∧ 400 ≤ (s.cell c).recovery ∧
    ∃ t : State, exec (.cellRecovered c) s = .next (t.run true rest)
      ∧ t = { s with
        unfinished := []
        cells := s.cells.set c.val { s.cell c with state := .recovered, recovery := 0 }
        mem := t.mem
        regs := t.regs
        journal := t.journal }
      ∧ t.regs.cause &&& causeCondition = causeCondition
      ∧ Registers.Raised (causeJournal ||| causeCondition) s.regs t.regs
      ∧ Memory.SameBut journalBytes s.mem t.mem) ∧
  (∀ (s : State) (c : CellId), s.NotStoppedAt (.cellRecovered c) → exec (.cellRecovered c) s = .next s) ∧
  ∀ (s : State) (c : CellId) (f : Frame), s.link.lastFrame = some f →
    let x := s.cell c
    let count := (f.cells.getD c.val (0, .notFitted)).1
    let good := (f.cells.getD c.val (0, .notFitted)).2 = .good
    let kept := fun y : Cell => { s with cells := s.cells.set c.val y }
    let t := s.examineCell c
    (x.state = .unfitted → t = s) ∧
    (x.state = .active → good → t = kept { x with faultRun := 0, lastGood := some count }) ∧
    (x.state = .active → ¬good → t = kept { x with faultRun := x.faultRun + 1 }) ∧
    (x.state = .faulted → good → t = kept { x with recovery := x.recovery + 1, lastGood := some count }) ∧
    (x.state = .faulted → ¬good → t = kept { x with recovery := 0 }) ∧
    (x.state = .recovered → good → t = kept { x with lastGood := some count }) ∧
    (x.state = .recovered → ¬good → t = kept { x with faultRun := 1 }) ∧
    (c.val < s.cells.length →
      (t.ownDue (.cellFault c) = true ↔
        (x.state = .active ∧ ¬good ∧ 19 ≤ x.faultRun)
          ∨ (x.state = .recovered ∧ (¬good ∨ 1 ≤ x.faultRun))) ∧
      (t.ownDue (.cellRecovered c) = true ↔ x.state = .faulted ∧ good ∧ 399 ≤ x.recovery))

/-- Restart requests queue each cell once: a request for a cell that is queued adds nothing, and a queue without a
cell twice stays one. RESTART_DUE is due for a FAULTED cell with fewer than three restarts, 400 cadence events after its
last one, that is not queued; it joins the queue where a cadence event has stopped at it (assumption 4). The back-channel
sends the CHANNEL_RESTART of the head of the queue while it is idle and the cell is still FAULTED, which counts the
restart and takes note of the cadence count, and drops the head otherwise; its pair returns to idle when the command
has been sent. -/
def Obligations.BackChannelSendsRestarts : Prop :=
  (∀ (s : State) (c : CellId),
    let x := s.cell c
    s.ownDue (.restartDue c) = true ↔
      x.state = .faulted ∧ x.restarts < 3 ∧ (∃ n, x.lastRestart = some n ∧ s.link.cadence = n + 400)
        ∧ c ∉ s.back.queue) ∧
  (∀ (s : State) (c : CellId),
    (c ∈ s.back.queue → s.requestRestart c = s) ∧
    (c ∉ s.back.queue →
      s.requestRestart c = { s with back := { s.back with queue := s.back.queue ++ [c] } }) ∧
    (s.back.queue.Nodup → (s.requestRestart c).back.queue.Nodup)) ∧
  (∀ (s : State) (c : CellId) (rest : List Piece), s.StoppedAt (.restartDue c) rest →
    let x := s.cell c
    (x.state = .faulted ∧ x.restarts < 3 ∧ (∃ n, x.lastRestart = some n ∧ s.link.cadence = n + 400)
      ∧ c ∉ s.back.queue) ∧
    exec (.restartDue c) s =
      .next
        (({ s with unfinished := [], back := { s.back with queue := s.back.queue ++ [c] } } : State).run true rest)) ∧
  (∀ c : CellId,
    let body : List Byte := [0x01, BitVec.ofNat 8 c.val]
    restartBytes c = [0xC3] ++ body ++ [(crc16 body).extractLsb' 8 8, (crc16 body).extractLsb' 0 8]) ∧
  (∀ (s : State) (c : CellId), s.NotStoppedAt (.restartDue c) → exec (.restartDue c) s = .next s) ∧
  (∀ (s : State) (c : CellId) (rest : List CellId), s.Ready → s.back.sending = [] → s.back.queue = c :: rest →
    (s.cell c).state = .faulted →
    exec .channelRestart s =
      .next
        { s with
          back := { queue := rest, sending := restartBytes c }
          cells :=
            s.cells.set c.val
              { s.cell c with restarts := (s.cell c).restarts + 1, lastRestart := some s.link.cadence } }) ∧
  (∀ (s : State) (c : CellId) (rest : List CellId), s.Ready → s.back.sending = [] → s.back.queue = c :: rest →
    (s.cell c).state ≠ .faulted →
    exec .channelRestart s = .next { s with back := { s.back with queue := rest } }) ∧
  (∀ s : State, s.Ready → s.back.sending ≠ [] ∨ s.back.queue = [] → exec .channelRestart s = .next s) ∧
  ∀ s : State, s.Ready → exec .backChannelSendEnd s = .next { s with back := { s.back with sending := [] } }


/-! The measurement. -/

/-- The quotient of a division by a positive number is the nearest whole number, and an exact half goes away from
zero. -/
def Obligations.QuotientsRoundHalfAwayFromZero : Prop :=
  ∀ a b : Int, 0 < b →
    2 * (roundDiv a b * b - a).natAbs ≤ b ∧
    (2 * ((roundDiv a b * b - a).natAbs : Int) = b → a.natAbs < (roundDiv a b * b).natAbs)

/-- The deck sum of an enabled deck is the sum of the corrected values of the cells mapped to it, each formed from the
count that the cell's state hands the chain; a deck with no mapped cell has 0. A cell released at this cadence event is
still handed its held count (the model's choice, assumption 37). -/
def Obligations.DeckSumAddsCorrectedValues : Prop :=
  ∀ (s : State) (d : DeckId), s.metro.active.isEnabled d = true →
    let t := s.computeChain
    let a := fun c : CellId => (t.chain.cells.getD c.val CellChain.start).a
    (t.chain.decks.get d).deckSum = ((s.metro.active.cellsOf d).map a).sum ∧
    (s.metro.active.cellsOf d = [] → (t.chain.decks.get d).deckSum = 0) ∧
    ∀ c, s.metro.active.deckOf c = some d →
      ((s.cell c).state ≠ .unfitted → -8388607 ≤ a c ∧ a c ≤ 8388607) ∧
      ((s.cell c).state = .active → (s.cell c).released = false →
        a c = clamp (-8388607) 8388607 (corrected s.metro.active c ((s.cell c).lastGood.getD 0))) ∧
      ((s.cell c).state = .faulted ∨ (s.cell c).state = .recovered
          ∨ ((s.cell c).state = .active ∧ (s.cell c).released = true) →
        a c = clamp (-8388607) 8388607 (corrected s.metro.active c (s.cell c).held))

/-- The uncorrected mass of an enabled deck is its filtered sum times its gain over 65,536, rounded and kept within
±2,000,000,000 g; with the gain of the worked case it is 20 times the filtered sum. No flag marks the clamp: a
computation sets no flag but OVER, UNDER and MOTION. -/
def Obligations.MassIsTheFilteredSumTimesTheGain : Prop :=
  ∀ (s : State) (d : DeckId), s.metro.active.isEnabled d = true →
    let t := s.computeChain
    let x := t.chain.decks.get d
    let exact := roundDiv (x.filtered * s.metro.active.get 5 d.val) 65536
    (-2000000000 ≤ exact → exact ≤ 2000000000 → x.mass = exact) ∧
    (exact < -2000000000 → x.mass = -2000000000) ∧
    (2000000000 < exact → x.mass = 2000000000) ∧
    (s.metro.active.get 5 d.val = 1310720 → -2000000000 ≤ 20 * x.filtered → 20 * x.filtered ≤ 2000000000 →
      x.mass = 20 * x.filtered) ∧
    t.flagsOf d =
      { s.flagsOf d with
        overload := (t.flagsOf d).overload
        under := (t.flagsOf d).under
        motion := (t.flagsOf d).motion }

/-- The filter of a deck over any run of computations from its start: it holds the latest deck sums, as many as its
length allows, with their exact sum, and the filtered sum is their mean. A computation gives an enabled deck the next
of them. -/
def Obligations.FilterKeepsTheLatestSums : Prop :=
  (∀ (m : MetroSet) (d : DeckId) (zero : Int) (runs : List (List CellChain)), 0 < m.lengthOf d →
    let total := fun cells : List CellChain =>
      ((m.cellsOf d).map fun c => (cells.getD c.val CellChain.start).a).sum
    let x := runs.foldl (fun x cells => computeDeck m cells d zero x) DeckChain.start
    let latest := (runs.map total).drop (runs.length - m.lengthOf d)
    x.history = latest ∧ x.running = latest.sum ∧ x.fill = min runs.length (m.lengthOf d)
      ∧ (runs ≠ [] → x.filtered = roundDiv latest.sum latest.length)) ∧
  ∀ (s : State) (d : DeckId), s.metro.active.isEnabled d = true →
    s.computeChain.chain.decks.get d =
      computeDeck s.metro.active s.computeChain.chain.cells d (s.monitor.decks.get d).zero (s.chain.decks.get d)

/-- The corrected mass of a deck is its mass with the linearity correction: 0 up to mass 0 and with no points, the
straight line between neighbouring points rounded once, and the last point's y above it. The gross is the corrected
mass less the working zero; the legal and fine values are the gross rounded to e and to e/10; OVER and UNDER follow the
unrounded gross and the saturated cells. The platform's gross is the sum over the enabled decks within its range, its
values are rounded from that sum, and it carries OVER with any deck or beyond its own capacity by 9 e. The fine value
enters the stability window, and MOTION stays until the window is full with a spread of at most e. Disabled decks are
not touched. -/
def Obligations.GrossRoundingAndLimitFlags : Prop :=
  (∀ (s : State) (d : DeckId),
    let m := s.metro.active
    let t := s.computeChain
    let x := t.chain.decks.get d
    let old := s.monitor.decks.get d
    let n := m.windowOf d
    let window := if n ≤ old.window.length then old.window.drop 1 ++ [x.fine] else old.window ++ [x.fine]
    let fill := if old.fill < n then old.fill + 1 else old.fill
    (m.isEnabled d = true →
      x.corrected = x.mass + linearity (m.pointsOf d) x.mass
      ∧ x.gross = x.corrected - old.zero
      ∧ x.legal = roundDiv x.gross m.e * m.e
      ∧ x.fine = roundDiv x.gross (m.e / 10) * (m.e / 10)
      ∧ ((t.flagsOf d).overload = true ↔ m.maxOf d + 9 * m.e < x.gross
        ∨ ∃ c ∈ m.cellsOf d, (t.chain.cells.getD c.val CellChain.start).saturated = true)
      ∧ ((t.flagsOf d).under = true ↔ x.gross < -20 * m.e)
      ∧ (t.monitor.decks.get d).window = window ∧ (t.monitor.decks.get d).fill = fill
      ∧ (t.monitor.decks.get d).zeroed = false
      ∧ ((t.flagsOf d).motion = true ↔ fill < n ∨ ∃ a ∈ window, ∃ b ∈ window, m.e < a - b)) ∧
    (m.isEnabled d = false → x = s.chain.decks.get d ∧ t.monitor.decks.get d = old) ∧
    t = { s with chain := t.chain, monitor := { s.monitor with decks := t.monitor.decks } }) ∧
  (∀ s : State,
    let m := s.metro.active
    let t := s.computeChain
    let total := (m.decks.map fun d => (t.chain.decks.get d).gross).sum
    t.chain.gross = clamp (-2000000000) 2000000000 total
      ∧ t.chain.legal = roundDiv t.chain.gross m.e * m.e
      ∧ t.chain.fine = roundDiv t.chain.gross (m.e / 10) * (m.e / 10)
      ∧ (t.platformFlags.overload = true ↔
        (m.decks.map m.maxOf).sum + 9 * m.e < t.chain.gross ∨ ∃ d : DeckId, (t.flagsOf d).overload = true)) ∧
  (∀ (ps : List (Int × Int)) (v : Int), v ≤ 0 → linearity ps v = 0) ∧
  (∀ v : Int, linearity [] v = 0) ∧
  (∀ (ps : List (Int × Int)) (v : Int) (i : Nat) (p q : Int × Int), 0 < v →
    ((0, 0) :: ps).Pairwise (fun a b => a.1 < b.1) →
    ((0, 0) :: ps)[i]? = some p → ((0, 0) :: ps)[i + 1]? = some q → p.1 < v → v ≤ q.1 →
    linearity ps v = roundDiv (p.2 * (q.1 - p.1) + (q.2 - p.2) * (v - p.1)) (q.1 - p.1)) ∧
  ∀ (ps : List (Int × Int)) (v : Int) (p : Int × Int), 0 < v → ps.getLast? = some p → (∀ q ∈ ps, q.1 < v) →
    linearity ps v = p.2

/-- FILTER_FILLED takes FILLING from a deck whose filter is full, and notes the first time for the zero watch;
ZERO_WATCH_EXPIRED ends a watch whose count is 0 and leaves ZERO_UNSET. Each goes on with the cadence event that has
stopped at it (assumption 4), changes nothing else, and does nothing at any other moment. The watch starts with 2,000
examinations at the first event after the filter first filled, which examines too (assumption 17): a deck that is still,
with no LINK_FAULT, DEGRADED, OVER or UNDER and its corrected mass within 10% of Max_d of its calibration zero, takes
that mass as zero and reference and loses ZERO_UNSET; otherwise one examination fewer remains. LINK_FAULT is read in the
snapshot and as it stands, so that a link loss taken first keeps the deck from qualifying (assumption 35). -/
def Obligations.FilterFilledAndZeroWatchExpired : Prop :=
  (∀ (s : State) (d : DeckId) (rest : List Piece), s.StoppedAt (.filterFilled d) rest →
    let m := s.monitor.decks.get d
    (s.metro.active.isEnabled d = true ∧ (s.flagsOf d).filling = true
      ∧ (s.chain.decks.get d).fill = s.metro.active.lengthOf d) ∧
    exec (.filterFilled d) s =
      .next
        (({ s with
            unfinished := []
            monitor :=
              { s.monitor with
                decks :=
                  s.monitor.decks.set d
                    { m with
                      flags := { m.flags with filling := false }
                      watch :=
                        if m.watch = .notStarted none then .notStarted (some s.link.cadence) else m.watch } } } :
            State).run true rest)) ∧
  (∀ (s : State) (d : DeckId) (rest : List Piece), s.StoppedAt (.watchExpired d) rest →
    (s.monitor.decks.get d).watch = .watching 0 ∧
    exec (.zeroWatchExpired d) s =
      .next
        (({ s with
            unfinished := []
            monitor :=
              { s.monitor with
                decks := s.monitor.decks.set d { s.monitor.decks.get d with watch := .ended } } } :
            State).run true rest)) ∧
  (∀ (s : State) (d : DeckId), s.NotStoppedAt (.filterFilled d) → exec (.filterFilled d) s = .next s) ∧
  (∀ (s : State) (d : DeckId), s.NotStoppedAt (.watchExpired d) → exec (.zeroWatchExpired d) s = .next s) ∧
  ∀ (s : State) (d : DeckId), s.metro.active.isEnabled d = true →
    let x := s.monitor.decks.get d
    let n := (s.snapOf d).corrected
    let f := (s.snapOf d).flags
    let qualifies :=
      f.motion = false ∧ f.linkFault = false ∧ (s.flagsOf d).linkFault = false ∧ f.degraded = false ∧ f.overload = false ∧ f.under = false
        ∧ ((n - s.metro.active.zcalOf d).natAbs : Int) * 100 ≤ 10 * s.metro.active.maxOf d
    let kept := fun y : DeckMonitor => { s with monitor := { s.monitor with decks := s.monitor.decks.set d y } }
    (∀ left : Nat, x.watch = .watching left ∨ left = 2000 ∧ (∃ c, x.watch = .notStarted (some c) ∧ c ≠ s.link.cadence) →
      (qualifies →
        s.watchDeck d =
          kept { x with zero := n, zeroRef := n, watch := .ended, flags := { x.flags with zeroUnset := false } }) ∧
      (¬qualifies → s.watchDeck d = kept { x with watch := .watching (left - 1) })) ∧
    (x.watch = .notStarted none ∨ x.watch = .notStarted (some s.link.cadence) ∨ x.watch = .ended → s.watchDeck d = s)

/-- TRACKING_EXAMINATION sets the tracking count to 0 and judges every deck on the snapshot of that event. A deck is
eligible where tracking is enabled for it, it carries no flag (assumption 35 says which flags are read where), the
tracker is EMPTY, no capture is in flight, its gross is within e/2, and no ZERO order has changed its zero since the
latest computation. Its step is its gross clamped to ±e/4: applied where the zero stays within 2% of Max_d of the
reference, which clears the limit mark; and refused otherwise, which sets the mark and, only if the mark was clear, is
audited as ZERO_LIMIT and noticed with the deck, the offset, the step and the band (assumption 40 rounds it). The decks
are taken from D0 to D3, which is the model's choice (assumption 55). It goes on with the cadence event that has stopped at it (assumption 4), and does nothing at any other
moment. -/
def Obligations.TrackingStepsWithinTheBand : Prop :=
  (∀ (s : State) (rest : List Piece), s.StoppedAt .tracking rest →
    let start : State := { s with unfinished := [], monitor := { s.monitor with tracking := 0 } }
    let t := allDecks.foldl State.trackDeck start
    let m := s.metro.active
    let step := fun d : DeckId => clamp (-(m.e / 4)) (m.e / 4) (s.snapOf d).gross
    let judged := fun (d : DeckId) (x : DeckMonitor) =>
      if s.trackingEligible d then
        (if ((x.zero + step d - x.zeroRef).natAbs : Int) * 100 ≤ 2 * m.maxOf d then
          { x with zero := x.zero + step d, limitMark := false }
        else { x with limitMark := true })
      else x
    let told := fun d : DeckId => (s.monitor.decks.get d).limitMark = false ∧ (t.monitor.decks.get d).limitMark = true
    200 ≤ s.monitor.tracking
      ∧ exec .trackingExamination s = .next (t.run true rest)
      ∧ t.monitor.decks = s.monitor.decks.map judged
      ∧ ((∀ d, ¬told d) → t = { start with monitor := { start.monitor with decks := s.monitor.decks.map judged } })) ∧
  (∀ (s : State) (d : DeckId),
    let m := s.metro.active
    let x := s.monitor.decks.get d
    let step := clamp (-(m.e / 4)) (m.e / 4) (s.snapOf d).gross
    let within := ((x.zero + step - x.zeroRef).natAbs : Int) * 100 ≤ 2 * m.maxOf d
    let more := s32 step ++ s32 (bandOf m d)
    let offset := x.zero - x.zeroRef
    let kept := fun y : DeckMonitor => { s with monitor := { s.monitor with decks := s.monitor.decks.set d y } }
    (s.trackingEligible d = false → s.trackDeck d = s) ∧
    (s.trackingEligible d = true → within → s.trackDeck d = kept { x with zero := x.zero + step, limitMark := false }) ∧
    (s.trackingEligible d = true → ¬within → x.limitMark = true → s.trackDeck d = s) ∧
    (s.trackingEligible d = true → ¬within → x.limitMark = false →
      s.trackDeck d =
        ((kept { x with limitMark := true }).writeAudit .zeroLimit
            (u8 d.val ++ [0, 0, 0] ++ s32 offset ++ more)).notice .zeroLimit d.val 0 (fieldS32 offset) more)) ∧
  (∀ s : State, s.NotStoppedAt .tracking → exec .trackingExamination s = .next s) ∧
  (∀ (s : State) (d : DeckId),
    let now := s.flagsOf d
    let seen := (s.snapOf d).flags
    s.trackingEligible d = true ↔
      s.metro.active.isEnabled d = true ∧ s.metro.active.get 12 d.val = 1
        ∧ (seen.motion = false ∧ seen.filling = false ∧ seen.degraded = false ∧ seen.linkFault = false
          ∧ seen.overload = false ∧ seen.under = false ∧ seen.zeroUnset = false ∧ seen.uncalibrated = false
          ∧ seen.inTest = false)
        ∧ (now.filling = false ∧ now.degraded = false ∧ now.linkFault = false ∧ now.inTest = false
          ∧ now.uncalibrated = false ∧ now.zeroUnset = false)
        ∧ s.tracker.report.state = .empty ∧ s.capture = none
        ∧ 2 * ((s.snapOf d).gross.natAbs : Int) ≤ s.metro.active.e ∧ (s.monitor.decks.get d).zeroed = false) ∧
  ∀ (s : State) (d : DeckId) (detail more : List Byte) (offset : W32), s.mem.wf = true →
    ∃ t : State, (s.writeAudit .zeroLimit detail).notice .zeroLimit d.val 0 offset more = t
      ∧ t = { s with
        mem := t.mem
        regs := t.regs
        journal := t.journal
        audit := t.audit
        store := { s.store with waiting := t.store.waiting } }
      ∧ Audited .zeroLimit detail s t
      ∧ t.regs.cause &&& causeCondition = causeCondition
      ∧ Registers.Raised (causeJournal ||| causeCondition) s.regs t.regs
      ∧ Memory.SameBut journalBytes s.mem t.mem


/-! The bridge, the lane signals and the seal line. -/

/-- An edge on a line with no hold is accepted at its stamp: the accepted level, the hold, and an entry at the tail of
the queue that holds the latest fine value if the strip is pressed. A level that is the accepted one is no edge; a
full queue discards the edge and notes the overrun on the open traverse or for the next one; a stuck line that is
released loses its mark and gives a notice, also where its edge is discarded. While the line's hold runs, a change of
the input moves the pin alone. A cadence event consumes the queue, oldest entry first: a wheel-on opens a crossing at its end,
is ignored on the strip that opened it, and on the other strip closes it as an ENTRY or an EXIT with its inner edge's
stamp and value, or finds it abandoned after 90,000 ticks. -/
def Obligations.StripEdgeJoinsTheQueue : Prop :=
  (∀ (s : State) (dt : W32) (l : Line) (pressed : Bool), s.mem.wf = true → s.Ready → s.noHolds →
    let u : State := { s.later dt with pins := { s.pins with strips := s.pins.strips.set l pressed } }
    let x := s.tracker.lines.get l
    (x.pressed = pressed → exec (.stripEdge dt l pressed) s = .next u) ∧
    (x.pressed ≠ pressed → (x.stuck = false ∨ pressed = true) → s.tracker.queue.length < 64 →
      exec (.stripEdge dt l pressed) s = .next { u with tracker := edgeAccepted u l pressed u.clock }) ∧
    (x.pressed ≠ pressed → (x.stuck = false ∨ pressed = true) → 64 ≤ s.tracker.queue.length →
      s.tracker.traverse = none →
      exec (.stripEdge dt l pressed) s =
        .next
          { u with
            tracker := { edgeAccepted u l pressed u.clock with queue := s.tracker.queue, overrun := true } }) ∧
    (∀ tr : Traverse, x.pressed ≠ pressed → (x.stuck = false ∨ pressed = true) → 64 ≤ s.tracker.queue.length →
      s.tracker.traverse = some tr →
      exec (.stripEdge dt l pressed) s =
        .next
          { u with
            tracker :=
              { edgeAccepted u l pressed u.clock with
                queue := s.tracker.queue
                traverse := some { tr with reasons := { tr.reasons with edgeOverrun := true } } } }) ∧
    (x.pressed ≠ pressed → x.stuck = true → pressed = false →
      ∃ t : State, exec (.stripEdge dt l pressed) s = .next t
        ∧ t = { u with
          tracker := edgeTaken u l pressed u.clock
          mem := t.mem
          regs := t.regs
          journal := t.journal }
        ∧ t.regs.cause &&& causeCondition = causeCondition
        ∧ Registers.Raised (causeJournal ||| causeCondition) s.regs t.regs
        ∧ Memory.SameBut journalBytes s.mem t.mem)) ∧
  (∀ (s : State) (dt : W32) (l : Line) (pressed : Bool), s.Ready → s.holdsRun dt →
    (s.tracker.lines.get l).hold ≠ none →
    exec (.stripEdge dt l pressed) s =
      .next { s.later dt with pins := { s.pins with strips := s.pins.strips.set l pressed } }) ∧
  (∀ s : State,
    s.consumeQueue = s.tracker.queue.foldl State.consumeEdge { s with tracker := { s.tracker with queue := [] } }) ∧
  (∀ (s : State) (e : Edge), e.latch = none → s.consumeEdge e = s) ∧
  ∀ (s : State) (e : Edge) (v : Int), e.latch = some v →
    let side := lineEnd e.line
    let outer := lineOuter e.line
    let opened : Crossing := { outer := outer, stamp := e.stamp, latch := v }
    (s.crossing side = none → s.consumeEdge e = s.setCrossing side (some opened)) ∧
    ∀ c : Crossing, s.crossing side = some c →
      (c.outer = outer → s.consumeEdge e = s) ∧
      (c.outer ≠ outer → 90000 < ticksFrom c.stamp e.stamp →
        s.consumeEdge e = (s.abandon side).setCrossing side (some opened)) ∧
      (c.outer = true → outer = false → ticksFrom c.stamp e.stamp ≤ 90000 →
        s.consumeEdge e =
          (s.setCrossing side none).handleCrossing
            { bridgeEnd := side, entry := true, stamp := e.stamp, value := v, ticks := ticksFrom c.stamp e.stamp }) ∧
      (c.outer = false → outer = true → ticksFrom c.stamp e.stamp ≤ 90000 →
        s.consumeEdge e =
          (s.setCrossing side none).handleCrossing
            { bridgeEnd := side
              entry := false
              stamp := c.stamp
              value := c.latch
              ticks := ticksFrom c.stamp e.stamp })

/-- A hold that ends ends the debounce of its line: a level other than the accepted one is then an edge, which joins
the queue or is discarded from a full one as any accepted edge, and ends the mark of a stuck line with a notice. STRIP_STUCK
marks a line found pressed for more than 600,000 ticks and raises CONDITION, where a cadence event has stopped at it
(assumption 4), and does nothing at any other moment. The vehicle is contained while the tracker is ACTIVE with no exit,
an axle on, no strip pressed, no crossing or settle window open and no second vehicle; the static value is the gross of
the first still snapshot while it is contained, and a LINK_FAULT in the snapshot is a reason (its step is assumption
46). -/
def Obligations.HoldEndAndStuckStrip : Prop :=
  (∀ (s : State) (dt : W32) (l : Line), s.Ready → (∀ k, k ≠ l → (s.tracker.lines.get k).hold = none) →
    (s.tracker.lines.get l).hold = some (s.clock + dt) →
    let x := s.tracker.lines.get l
    (s.pins.strips.get l = x.pressed →
      exec (.debounceHoldEnd dt l) s =
        .next
          { s.later dt with
            tracker := { s.tracker with lines := s.tracker.lines.set l { x with hold := none } } }) ∧
    (s.pins.strips.get l ≠ x.pressed → (x.stuck = false ∨ s.pins.strips.get l = true) →
      exec (.debounceHoldEnd dt l) s =
        .next
          { s.later dt with
            tracker := edgeTaken (s.later dt) l (s.pins.strips.get l) (s.clock + dt) }) ∧
    (s.mem.wf = true → s.pins.strips.get l ≠ x.pressed → x.stuck = true → s.pins.strips.get l = false →
      ∃ t : State, exec (.debounceHoldEnd dt l) s = .next t
        ∧ t = { s.later dt with
          tracker := edgeTaken (s.later dt) l false (s.clock + dt)
          mem := t.mem
          regs := t.regs
          journal := t.journal }
        ∧ t.regs.cause &&& causeCondition = causeCondition
        ∧ Registers.Raised (causeJournal ||| causeCondition) s.regs t.regs
        ∧ Memory.SameBut journalBytes s.mem t.mem)) ∧
  (∀ (s : State) (l : Line) (pressed : Bool) (stamp : W32),
    let accepted := edgeAccepted s l pressed stamp
    let kept : Tracker := { accepted with queue := s.tracker.queue }
    (s.tracker.queue.length < 64 → edgeTaken s l pressed stamp = accepted) ∧
    (64 ≤ s.tracker.queue.length → s.tracker.traverse = none →
      edgeTaken s l pressed stamp = { kept with overrun := true }) ∧
    ∀ tr : Traverse, 64 ≤ s.tracker.queue.length → s.tracker.traverse = some tr →
      edgeTaken s l pressed stamp =
        { kept with traverse := some { tr with reasons := { tr.reasons with edgeOverrun := true } } }) ∧
  (∀ (s : State) (dt : W32) (l : Line), s.Ready → s.noHolds →
    exec (.debounceHoldEnd dt l) s = .next (s.later dt)) ∧
  (∀ (s : State) (l : Line) (rest : List Piece), s.mem.wf = true → s.StoppedAt (.stuck l) rest →
    let x := s.tracker.lines.get l
    (x.pressed = true ∧ x.stuck = false ∧ 600000 < ticksFrom x.pressedAt s.clock) ∧
    ∃ t : State, exec (.stripStuck l) s = .next (t.run true rest)
      ∧ t = { s with
        unfinished := []
        tracker := { s.tracker with lines := s.tracker.lines.set l { x with stuck := true } }
        mem := t.mem
        regs := t.regs
        journal := t.journal }
      ∧ t.regs.cause &&& causeCondition = causeCondition
      ∧ Registers.Raised (causeJournal ||| causeCondition) s.regs t.regs
      ∧ Memory.SameBut journalBytes s.mem t.mem) ∧
  (∀ (s : State) (l : Line), s.NotStoppedAt (.stuck l) → exec (.stripStuck l) s = .next s) ∧
  (∀ s : State,
    s.judgeContained = true ↔
      ∃ tr, s.tracker.traverse = some tr ∧ tr.closing = none ∧ tr.exits = 0 ∧ 1 ≤ tr.axlesOn
        ∧ (∀ l, (s.tracker.lines.get l).pressed = false) ∧ s.tracker.crossA = none ∧ s.tracker.crossB = none
        ∧ (∀ a ∈ tr.axles, a.window = none) ∧ tr.reasons.secondVehicle = false) ∧
  (∀ s : State, s.tracker.traverse = none →
    s.judgeBridge = { s with tracker := { s.tracker with contained := false } }) ∧
  ∀ (s : State) (tr : Traverse), s.tracker.traverse = some tr →
    let p := s.monitor.snapshot
    let taken :=
      if tr.static = none ∧ s.judgeContained = true ∧ p.flags.motion = false then some p.gross else tr.static
    s.judgeBridge =
      { s with
        tracker :=
          { s.tracker with
            contained := s.judgeContained
            traverse :=
              some
                { tr with
                  static := taken
                  reasons := { tr.reasons with linkFault := tr.reasons.linkFault || p.flags.linkFault } } } }

/-- SETTLE_WINDOW_END gives every axle whose window has run out its post value and its estimate, 0 and SHORT where it
is negative. CROSSING_ABANDONED empties the crossing that is overdue, and a crossing that INNER opened sets CROSSING_LOST
on the open traverse. Each goes on with the cadence event that has stopped at it (assumption 4). A closed crossing does
what the tracker's state lays down: an ENTRY opens a traverse on an EMPTY bridge (the flags read at the opening are
assumption 45), is the next axle at the entry end and a second vehicle at the far end, and reports a CLOSING traverse
(with the static value that it held, the model's choice, assumption 64) and opens the next; an EXIT counts off, and with
the last axle the traverse is CLOSING. -/
def Obligations.WindowEndsAndAbandonedCrossings : Prop :=
  (∀ (s : State) (rest : List Piece), s.StoppedAt .windowEnd rest →
    ∃ tr, s.tracker.traverse = some tr ∧ (∃ a ∈ tr.axles, a.window = some 0) ∧
      let fine := s.monitor.snapshot.fine
      let axles :=
        tr.axles.map fun a =>
          if a.window = some 0 then
            { a with
              post := some fine
              estimate := max 0 (fine - a.pre)
              short := decide (fine < a.pre)
              window := none }
          else a
      exec .settleWindowEnd s =
        .next
          (({ s with
              unfinished := []
              tracker :=
                { s.tracker with
                  traverse :=
                    some
                      { tr with
                        axles := axles
                        reasons := { tr.reasons with short := tr.reasons.short || axles.any (·.short) } } } } :
              State).run true rest)) ∧
  (∀ s : State, s.NotStoppedAt .windowEnd → exec .settleWindowEnd s = .next s) ∧
  (∀ (s : State) (side : BridgeEnd) (rest : List Piece), s.StoppedAt (.crossing side) rest →
    ∃ c, s.crossing side = some c ∧ 90000 < ticksFrom c.stamp s.clock ∧
      let emptied := ({ s with unfinished := [] } : State).setCrossing side none
      (c.outer = true ∨ s.tracker.traverse = none →
        exec (.crossingAbandoned side) s = .next (emptied.run true rest)) ∧
      ∀ tr : Traverse, c.outer = false → s.tracker.traverse = some tr →
        exec (.crossingAbandoned side) s =
          .next
            (({ emptied with
                tracker :=
                  { emptied.tracker with
                    traverse := some { tr with reasons := { tr.reasons with crossingLost := true } } } } :
                State).run true rest)) ∧
  (∀ (s : State) (side : BridgeEnd), s.NotStoppedAt (.crossing side) →
    exec (.crossingAbandoned side) s = .next s) ∧
  (∀ (s : State) (c : Closed) (axles : List Axle),
    let v := (roundDiv (s.site.spacing * 10000) (if c.ticks = 0 then 1 else c.ticks)).toNat
    let a := s.newAxle c axles
    a = { a with
      stamp := c.stamp
      speed := v
      overspeed := decide ((roundDiv (s.site.maxSpeed * 1000000) 3600).toNat < v)
      slow := decide (v < 56)
      pre := c.value
      post := none
      estimate := 0
      short := false
      window := some (roundDiv s.site.settle 5).toNat } ∧
    (axles = [] → a.spacing = .first) ∧
    ∀ b, axles.getLast? = some b →
      (a.slow = true ∨ b.slow = true → a.spacing = .unknown) ∧
      (a.slow = false → b.slow = false →
        a.spacing = .mm (roundDiv (roundDiv (v + b.speed) 2 * ticksFrom b.stamp c.stamp) 10000).toNat)) ∧
  (∀ (s : State) (c : Closed), s.tracker.traverse = none →
    let number := nextSerial s.tracker.number
    let class_ := s.tracker.armed.getD 0
    let a := s.newAxle c []
    (c.entry = false → s.handleCrossing c = s) ∧
    (c.entry = true →
      s.handleCrossing c =
        { s with
          tracker :=
            { s.tracker with
              number := number
              armed := none
              overrun := false
              traverse :=
                some
                  { number := number
                    entryEnd := c.bridgeEnd
                    classNumber := class_
                    classEntry := s.tracker.classes.getD class_ manufactureClass
                    lenient := s.site.policy == 1
                    entries := 1
                    exits := 0
                    axlesOn := 1
                    axles := [a]
                    reasons :=
                      { Reasons.none with
                        degraded := s.anyDegraded
                        linkFault := s.monitor.snapshot.flags.linkFault
                        edgeOverrun := s.tracker.overrun
                        overspeed := a.overspeed
                        slow := a.slow }
                    static := none
                    binding := none
                    closing := none } } })) ∧
  (∀ (s : State) (c : Closed) (tr : Traverse), s.tracker.traverse = some tr → tr.closing = none →
    let axles :=
      tr.axles.map fun a =>
        if a.window = none then a
        else { a with post := some c.value, estimate := max 0 (c.value - a.pre), short := true, window := none }
    let early : Traverse :=
      { tr with axles := axles, reasons := { tr.reasons with short := tr.reasons.short || axles.any (·.short) } }
    let entered : Traverse := { early with entries := tr.entries + 1, axlesOn := tr.axlesOn + 1, static := none }
    let a := s.newAxle c axles
    let recorded : Traverse :=
      { entered with
        axles := axles ++ [a]
        reasons :=
          { early.reasons with
            overspeed := early.reasons.overspeed || a.overspeed
            slow := early.reasons.slow || a.slow } }
    (c.entry = true → c.bridgeEnd = tr.entryEnd →
      (32 ≤ tr.axles.length →
        s.handleCrossing c =
          s.setTraverse (some { entered with reasons := { early.reasons with edgeOverrun := true } })) ∧
      (tr.axles.length < 32 → ∀ n, a.spacing = .mm n → s.site.vehicleGap < n →
        s.handleCrossing c = (s.setTraverse (some recorded)).setSecondVehicle) ∧
      (tr.axles.length < 32 → (∀ n, a.spacing = .mm n → n ≤ s.site.vehicleGap) →
        s.handleCrossing c = s.setTraverse (some recorded))) ∧
    (c.entry = true → c.bridgeEnd ≠ tr.entryEnd →
      s.handleCrossing c = (s.setTraverse (some entered)).setSecondVehicle) ∧
    (c.entry = false →
      s.handleCrossing c =
        s.setTraverse
          (some
            { early with
              exits := tr.exits + 1
              axlesOn := tr.axlesOn - 1
              reasons := { early.reasons with reversed := early.reasons.reversed || c.bridgeEnd == tr.entryEnd }
              closing := if tr.axlesOn - 1 = 0 then some 0 else none }))) ∧
  (∀ (s : State) (c : Closed) (tr : Traverse) (n : Nat), s.tracker.traverse = some tr → tr.closing = some n →
    (c.entry = true → s.handleCrossing c = s.reportTraverse.openTraverse c) ∧
    (c.entry = false →
      s.handleCrossing c =
        s.setTraverse (some { tr with reasons := { tr.reasons with crossingLost := true } }))) ∧
  ∀ (s : State) (tr : Traverse), s.tracker.traverse = some tr →
    (tr.reasons.secondVehicle = true → s.setSecondVehicle = s) ∧
    (tr.reasons.secondVehicle = false →
      s.setSecondVehicle =
        { s with
          tracker := { s.tracker with traverse := some { tr with reasons := { tr.reasons with secondVehicle := true } } }
          lane := (s.lane.burstCall s.link.cadence).mark .secondVehicle })

/-- Closing ends. A cadence event whose snapshot shows a still bridge within 20e of zero reports a closing traverse as
its timeout does, and CLOSING_TIMEOUT reports the traverse: the AXLE_REPORT record reaches the journal, the tracker is EMPTY, the override
of a second vehicle ends, a burst sounds for a NON_COMPLIANT report, and the bound visit gets the summary: a HELD entry
takes it and requests its rows unless the latch is set, an ADDING one keeps it, and any other drops it. It goes on with
the cadence event that has stopped at it (assumption 4). The verdict is INDETERMINATE for six of the reasons, and for
DEGRADED under STRICT; else NON_COMPLIANT for a group or a gross that is OVER, else COMPLIANT. The quality is CONFIRMED
where the comparison agreed and ROLLING_ONLY where none was made, with none of five reasons set, and else INDICATIVE. -/
def Obligations.ClosingTimeoutReportsTheTraverse : Prop :=
  (∀ (s : State) (rest : List Piece), s.mem.wf = true → s.StoppedAt .closing rest →
    ∃ (tr : Traverse) (n : Nat), s.tracker.traverse = some tr ∧ tr.closing = some n ∧ 2000 ≤ n ∧
      let r := tr.report s.site.groupGap s.metro.active.e
      let summary : Summary := ⟨r.verdict, r.quality, r.groups.map Group.toSummaryGroup⟩
      let placed := ({ s with unfinished := [] } : State).record (tr.axleReport r)
      let sounded := if r.verdict = .nonCompliant then s.lane.burstCall s.link.cadence else s.lane
      ∃ t : State, exec .closingTimeout s = .next (t.run true rest)
        ∧ t = { placed with
          tracker := { s.tracker with traverse := none }
          lane := if tr.reasons.secondVehicle then sounded.unmark .secondVehicle else sounded
          visits := t.visits
          store := t.store }
        ∧ (tr.binding = none → t.visits = s.visits ∧ t.store = s.store)
        ∧ (∀ v, tr.binding = some v →
          t.visits = (s.handSummary v summary).visits ∧ t.store = (s.handSummary v summary).store)
        ∧ t = { s with
          unfinished := []
          tracker := t.tracker
          lane := t.lane
          visits := t.visits
          store := { s.store with waiting := t.store.waiting }
          mem := t.mem
          regs := t.regs
          journal := t.journal }
        ∧ Registers.Raised causeJournal s.regs t.regs
        ∧ Memory.SameBut journalBytes s.mem t.mem) ∧
  (∀ s : State, s.NotStoppedAt .closing → exec .closingTimeout s = .next s) ∧
  (∀ s : State,
    let closing := ∃ tr n, s.tracker.traverse = some tr ∧ tr.closing = some n
    let settled :=
      (s.monitor.snapshot.gross.natAbs : Int) ≤ 20 * s.metro.active.e ∧ s.monitor.snapshot.flags.motion = false
    (closing → settled → s.doPiece .judgeClosing = s.takeOwn .closing) ∧
    (¬closing ∨ ¬settled → s.doPiece .judgeClosing = s)) ∧
  (∀ (s : State) (n : W32) (m : Summary), s.placeOf n = none → s.handSummary n m = s) ∧
  (∀ (s : State) (n : W32) (m : Summary) (i : Nat) (v : Visit), s.placeOf n = some i → s.place i = some v →
    let e : VisitEntry := { v.entry with summary := some m }
    let put := fun x : Visit => { s with visits := { s.visits with places := s.visits.places.set i (some x) } }
    let written := put { v with entry := e, kept := none }
    (v.status = .held → s.store.latch = true → s.handSummary n m = written) ∧
    (v.status = .held → s.store.latch = false →
      s.handSummary n m =
        { written with store := { s.store with waiting := s.store.waiting ++ [⟨.summary e.number, visitRows i e⟩] } }) ∧
    (v.status = .adding → s.handSummary n m = put { v with kept := some m }) ∧
    (v.status = .closing ∨ v.status = .removing → s.handSummary n m = s)) ∧
  ∀ (tr : Traverse) (gap : Nat) (e : Int),
    let r := tr.report gap e
    let q := r.reasons
    let spoiled :=
      q.edgeOverrun = true ∨ q.reversed = true ∨ q.secondVehicle = true ∨ q.crossingLost = true ∨ q.overlong = true
        ∨ q.linkFault = true ∨ (q.degraded = true ∧ tr.lenient = false)
    let excess :=
      (∃ g ∈ r.groups, g.overload = true) ∨ overLimit r.gross tr.classEntry.gross tr.classEntry.tolerance e = true
    let plain :=
      q.short = false ∧ q.overspeed = false ∧ q.slow = false ∧ q.degraded = false ∧ q.linkFault = false
    (spoiled → r.verdict = .indeterminate) ∧
    (¬spoiled → excess → r.verdict = .nonCompliant) ∧
    (¬spoiled → ¬excess → r.verdict = .compliant) ∧
    (plain → r.fromStatic = true → r.quality = .confirmed) ∧
    (plain → tr.static = none → r.quality = .rollingOnly) ∧
    (¬plain ∨ tr.static ≠ none ∧ r.fromStatic = false → r.quality = .indicative)

/-- The sum of the estimates over every recorded axle is compared with a static value where one is held, and the gross
judged is the static value where they agree and the sum otherwise; a disagreement sets DISAGREE. -/
def Obligations.StaticComparisonFixesTheGross : Prop :=
  ∀ (tr : Traverse) (gap : Nat) (e : Int),
    let total := (tr.axles.map (·.estimate)).sum
    let r := tr.report gap e
    (tr.static = none → r.gross = total ∧ r.fromStatic = false ∧ r.reasons.disagree = tr.reasons.disagree) ∧
    ∀ v, tr.static = some v →
      (((total - v).natAbs : Int) ≤ max (roundDiv (2 * (v.natAbs : Int)) 100) (10 * e) →
        r.gross = v ∧ r.fromStatic = true ∧ r.reasons.disagree = tr.reasons.disagree) ∧
      (max (roundDiv (2 * (v.natAbs : Int)) 100) (10 * e) < ((total - v).natAbs : Int) →
        r.gross = total ∧ r.fromStatic = false ∧ r.reasons.disagree = true)

/-- The recorded axles are divided into groups in entry order, a new one at the first axle and at every axle whose
spacing is unknown or above the group gap, the site setting at the report; a group has its type by its number of axles.
R80: "A group of five or more axles is typed OVERLONG, keeps all its axles and sets the OVERLONG reason. At most 12
groups are formed." Axles of a later group set EDGE_OVERRUN, and count in the sum of estimates as every recorded axle
does; no window is open then, since the EXIT that begins CLOSING closes it. Each group of a report is judged against the
class entry: its limit by place and type, its threshold, OVER where its load, the sum of its estimates, exceeds the
threshold or the limit is 0; the gross is judged in the same way. The report gives the load rounded to e. -/
def Obligations.GroupsAreJudgedByTheirThreshold : Prop :=
  (∀ (gap : Nat) (axles : List Axle),
    let begins := fun a : Axle => a.spacing = .first ∨ a.spacing = .unknown ∨ ∃ n, a.spacing = .mm n ∧ gap < n
    (groupAxles gap axles).flatten = axles ∧
    ∀ (i : Nat) (g : List Axle), (groupAxles gap axles)[i]? = some g →
      g ≠ [] ∧ (∀ a, 0 < i → g[0]? = some a → begins a) ∧ ∀ (j : Nat) (a : Axle), 0 < j → g[j]? = some a → ¬begins a) ∧
  (∀ (tr : Traverse) (gap : Nat) (e : Int),
    let r := tr.report gap e
    (r.reasons.edgeOverrun = true ↔ tr.reasons.edgeOverrun = true ∨ 12 < (groupAxles gap tr.axles).length) ∧
    (r.reasons.overlong = true ↔ tr.reasons.overlong = true ∨ ∃ g ∈ r.groups, 5 ≤ g.axles) ∧
    (r.fromStatic = false → r.gross = (tr.axles.map (·.estimate)).sum)) ∧
  (∀ (s : State) (tr : Traverse), s.tracker.traverse = some tr →
    (s.takeOwn .closing).journal =
      (s.record (tr.axleReport (tr.report s.site.groupGap s.metro.active.e))).journal) ∧
  (∀ (s : State) (c : Closed) (tr later : Traverse), s.tracker.traverse = some tr → tr.closing = none →
    c.entry = false → (s.handleCrossing c).tracker.traverse = some later → ∀ a ∈ later.axles, a.window = none) ∧
  ∀ (c : ClassEntry) (e : Int) (first : Bool) (axles : List Axle),
    let g := judgeGroup c e first axles
    let load := (axles.map (·.estimate)).sum
    g.axles = axles.length ∧
    (axles.length = 1 → g.kind = .single) ∧ (axles.length = 2 → g.kind = .tandem) ∧ (axles.length = 3 → g.kind = .tri) ∧
    (axles.length = 4 → g.kind = .quad) ∧ (5 ≤ axles.length → g.kind = .overlong) ∧
    (g.kind = .single → g.limit = if first then c.steer else c.single) ∧
    (g.kind = .tandem → g.limit = c.tandem) ∧
    (g.kind = .tri → g.limit = c.tri) ∧
    (g.kind = .quad ∨ g.kind = .overlong → g.limit = c.quad) ∧
    g.threshold = g.limit + roundDiv (g.limit * c.tolerance) (1000 * e) * e ∧
    (g.overload = true ↔ g.threshold < load ∨ g.limit = 0) ∧
    g.load = roundDiv load e * e ∧
    (∀ gross : Int, overLimit gross c.gross c.tolerance e = true ↔
      c.gross + roundDiv (c.gross * c.tolerance) (1000 * e) * e < gross ∨ c.gross = 0) ∧
    (∀ (tr : Traverse) (gap : Nat), tr.classEntry = c →
      (tr.report gap e).groups = judgeGroups c e ((groupAxles gap tr.axles).take 12)) ∧
    (∀ rest : List (List Axle), judgeGroups c e (axles :: rest) = judgeGroup c e true axles :: rest.map (judgeGroup c e false))

/-- An owner that marks a cause turns both heads RED with source OVERRIDE at once if no other was marked, and changes
nothing on the lines otherwise; what is staged and the pending marks stay, and the report to the board shows the heads.
Clearing the last cause sets the aspect pending mark and leaves the heads. A cadence event applies a staged horn pattern
that is pending, starting it unless it is the one in force or a burst runs, and then the pending aspects, unless a cause
is marked. -/
def Obligations.MarkingACauseTurnsTheHeadsRed : Prop :=
  (∀ (l : Lane) (k : Cause), l.causes.any = false →
    let causes := l.causes.put k true
    l.mark k =
      { l with
        causes := causes
        appliedA := .red
        appliedB := .red
        overriding := true
        report := { l.report with aspectA := .red, aspectB := .red, overriding := true, causes := causes } }) ∧
  (∀ (l : Lane) (k : Cause), l.causes.any = true →
    let causes := l.causes.put k true
    l.mark k =
      { l with
        causes := causes
        report :=
          { l.report with aspectA := l.appliedA, aspectB := l.appliedB, overriding := l.overriding, causes := causes } }) ∧
  (∀ (s : State) (k : Cause), s.power = .on → s.lane.redWhileMarked →
    (s.markCause k).lineARed = true ∧ (s.markCause k).lineBRed = true ∧ (s.markCause k).lineAGreen = false
      ∧ (s.markCause k).lineBGreen = false) ∧
  (∀ (l : Lane) (k : Cause),
    let left := l.causes.put k false
    (l.causes.any = true → left.any = false → l.unmark k = { l with causes := left, aspectPending := true }) ∧
    (l.causes.any = false ∨ left.any = true → l.unmark k = { l with causes := left })) ∧
  (∀ l : Lane,
    (l.aspectPending = true → l.causes.any = false →
      l.applyAspects =
        { l with appliedA := l.stagedA, appliedB := l.stagedB, overriding := false, aspectPending := false }) ∧
    (l.aspectPending = false ∨ l.causes.any = true → l.applyAspects = l)) ∧
  (∀ (l : Lane) (now : W32),
    let taken : Lane := { l with hornPending := false, horn := l.stagedHorn }
    (l.hornPending = false → l.applyHorn now = l) ∧
    (l.hornPending = true → l.stagedHorn = l.horn ∨ l.burst ≠ none → l.applyHorn now = taken) ∧
    (l.hornPending = true → l.stagedHorn ≠ l.horn → l.burst = none → l.applyHorn now = taken.startPattern now)) ∧
  (∀ s : State,
    s.workLane = { s with lane := ((s.lane.applyHorn s.link.cadence).applyAspects).count s.link.cadence }) ∧
  ∀ s : State, s.headsExclusive

/-- HORN_TOGGLE changes the level of the line and starts the half period again; BURST_END returns the line to the
applied pattern, which starts afresh with SOUNDING. A burst that ends goes before a toggle. Each goes on with the cadence
event that has stopped at it (assumption 4), which then hands the live board the report, and does nothing at any other
moment. The counts fall by one at each cadence event but the one that started or renewed them (assumption 20), and a
burst sounds at a half period of 50 events for 600. -/
def Obligations.HornToggleAndBurstEnd : Prop :=
  (∀ (s : State) (rest : List Piece), s.StoppedAt .toggle rest →
    s.lane.toggle = 0 ∧ s.lane.half ≠ 0 ∧ s.lane.burst ≠ some 0 ∧
    exec .hornToggle s =
      .next
        (({ s with
            unfinished := []
            lane := { s.lane with sounding := !s.lane.sounding, toggle := s.lane.half } } : State).run true rest)) ∧
  (∀ (s : State) (rest : List Piece), s.StoppedAt .burstEnd rest →
    let ended : Lane := { s.lane with burst := none, patternAt := some s.link.cadence }
    let after := fun l : Lane => (({ s with unfinished := [], lane := l } : State).run true rest)
    let h := halfPeriod s.lane.horn.period
    s.lane.burst = some 0 ∧
    (s.lane.horn.pattern = .off →
      exec .burstEnd s = .next (after { ended with sounding := false, half := 0, toggle := 0 })) ∧
    (s.lane.horn.pattern = .steady →
      exec .burstEnd s = .next (after { ended with sounding := true, half := 0, toggle := 0 })) ∧
    (s.lane.horn.pattern = .pulse →
      exec .burstEnd s = .next (after { ended with sounding := true, half := h, toggle := h }))) ∧
  (∀ s : State, s.NotStoppedAt .toggle → exec .hornToggle s = .next s) ∧
  (∀ s : State, s.NotStoppedAt .burstEnd → exec .burstEnd s = .next s) ∧
  (∀ (l : Lane) (now : W32),
    let later : Lane := { l with patternAt := none, burstStart := none, burstAt := none }
    (∀ n, l.burst = some n →
      l.count now =
        { later with
          burst := some (if l.burstAt = some now then n else n - 1)
          toggle := if l.burstStart = some now then l.toggle else l.toggle - 1 }) ∧
    (l.burst = none → l.half = 0 ∨ l.patternAt = some now → l.count now = later) ∧
    (l.burst = none → l.half ≠ 0 → l.patternAt ≠ some now →
      l.count now = { later with toggle := l.toggle - 1 })) ∧
  ∀ (l : Lane) (now : W32),
    (l.burst = none →
      l.burstCall now =
        { l with
          sounding := true
          half := 50
          toggle := 50
          burst := some 600
          burstStart := some now
          burstAt := some now }) ∧
    (l.burst ≠ none → l.burstCall now = { l with burst := some 600, burstAt := some now })

/-- The first four samples fix the seal state, and an OPEN seal is audited without a notice. Four later samples of the
other level change it: the change is audited and noticed, and SEALED breaks an OPEN session. -/
def Obligations.SealSamplesFixAndChangeTheSeal : Prop :=
  (∀ (s : State) (level : SealLevel), s.mem.wf = true → s.Ready → s.sealLine.settled = false →
    let detail := u8 s.session.state.code ++ u8 1 ++ u8 0 ++ u8 0
    let fixed : State :=
      { s with
        pins := { s.pins with sealInput := level }
        sealLine := { state := level, settled := true } }
    (level = .sealed → exec (.sealInitial level) s = .next fixed) ∧
    (level = .opened →
      ∃ t : State, exec (.sealInitial level) s = .next t
        ∧ t = fixed.writeAudit .sealOpened detail
        ∧ t = { fixed with
          mem := t.mem
          regs := t.regs
          journal := t.journal
          audit := t.audit
          store := { s.store with waiting := t.store.waiting } }
        ∧ Audited .sealOpened detail s t
        ∧ Registers.Raised causeJournal s.regs t.regs
        ∧ Memory.SameBut journalBytes s.mem t.mem)) ∧
  (∀ (s : State) (level : SealLevel), s.mem.wf = true → s.Ready → s.sealLine.settled = true →
    s.sealLine.state ≠ level → (level = .opened ∨ s.session.state ≠ .opened) →
    let kind := if level = .opened then AuditKind.sealOpened else .sealClosed
    let detail := u8 s.session.state.code ++ u8 0 ++ u8 0 ++ u8 0
    let changed : State :=
      { s with
        pins := { s.pins with sealInput := level }
        sealLine := { s.sealLine with state := level } }
    ∃ t : State, exec (.sealChange level) s = .next t
      ∧ t = (changed.writeAudit kind detail).notice .sealLine 0 (sealCode level) 0 []
      ∧ t = { changed with
        mem := t.mem
        regs := t.regs
        journal := t.journal
        audit := t.audit
        store := { s.store with waiting := t.store.waiting } }
      ∧ Audited kind detail s t
      ∧ t.regs.cause &&& causeCondition = causeCondition
      ∧ Registers.Raised (causeJournal ||| causeCondition) s.regs t.regs
      ∧ Memory.SameBut journalBytes s.mem t.mem) ∧
  (∀ s : State, s.mem.wf = true → s.Ready → s.sealLine.settled = true → s.sealLine.state = .opened →
    s.session.state = .opened →
    ∃ t : State, exec (.sealChange .sealed) s = .next t
      ∧ t.sealLine = { s.sealLine with state := .sealed } ∧ t.session.state = .closed
      ∧ t.lane.causes.session = false ∧ t.mem.read16 hdrSession = BitVec.ofNat 16 SessionState.closed.code
      ∧ (t.audit.entries.getLast?.map fun e => (e.serial, e.kind)) =
        some (nextSerial (nextSerial s.audit.last), .sessionBroken)) ∧
  (∀ (s : State) (level : SealLevel), s.Ready → s.sealLine.settled = true →
    exec (.sealInitial level) s = .next { s with pins := { s.pins with sealInput := level } }) ∧
  ∀ (s : State) (level : SealLevel), s.Ready → s.sealLine.settled = false ∨ s.sealLine.state = level →
    exec (.sealChange level) s = .next { s with pins := { s.pins with sealInput := level } }


/-! The host's bus: writes of the exchange memory and of the registers. -/

/-- A host write of a slot's state word is judged by the slot's state: the four transitions are stored, a late
WITHDRAW is discarded, and every other write is refused. SLOT_POSTED, SLOT_WITHDRAW and SLOT_EMPTIED are the three
transitions that change the word. -/
def Obligations.SlotStateWordTransitions : Prop :=
  (∀ (s : State) (k : SlotId) (v : W16), s.Ready →
    let a := wordAt (slotBase k)
    let accepted :=
      (s.slotState k = slotEmpty ∧ v = slotPosted) ∨ (s.slotState k = slotEmpty ∧ v = slotEmpty)
        ∨ (s.slotState k = slotAnswered ∧ v = slotEmpty) ∨ (s.slotState k = slotTaken ∧ v = slotWithdraw)
    let late := v = slotWithdraw ∧ (s.slotState k = slotWithdraw ∨ s.slotState k = slotAnswered)
    (accepted → exec (.hostMemoryWrite a v) s = .next { s with mem := s.mem.write16 (slotBase k) v }) ∧
    (late → exec (.hostMemoryWrite a v) s = .next s) ∧
    (¬accepted → ¬late → exec (.hostMemoryWrite a v) s = .next (s.refused a))) ∧
  ∀ (s : State) (k : SlotId), s.mem.wf = true → s.Ready →
    (s.slotState k = slotEmpty →
      ∃ t : State, exec (.slotPosted k) s = .next t ∧ t = { s with mem := t.mem } ∧ t.slotState k = slotPosted
        ∧ Memory.SameBut (bytesFrom (slotBase k) 2) s.mem t.mem) ∧
    (s.slotState k = slotTaken →
      ∃ t : State, exec (.slotWithdraw k) s = .next t ∧ t = { s with mem := t.mem } ∧ t.slotState k = slotWithdraw
        ∧ Memory.SameBut (bytesFrom (slotBase k) 2) s.mem t.mem) ∧
    (s.slotState k = slotAnswered →
      ∃ t : State, exec (.slotEmptied k) s = .next t ∧ t = { s with mem := t.mem } ∧ t.slotState k = slotEmpty
        ∧ Memory.SameBut (bytesFrom (slotBase k) 2) s.mem t.mem) ∧
    (s.slotState k ≠ slotEmpty → exec (.slotPosted k) s = .next (s.refused (wordAt (slotBase k)))) ∧
    (s.slotState k = slotEmpty ∨ s.slotState k = slotPosted →
      exec (.slotWithdraw k) s = .next (s.refused (wordAt (slotBase k)))) ∧
    (s.slotState k ≠ slotEmpty → s.slotState k ≠ slotAnswered →
      exec (.slotEmptied k) s = .next (s.refused (wordAt (slotBase k))))

/-- The head words and the order body of a slot are the host's while it is EMPTY, and refused in every other state;
the answer body is always refused. An answer overwrites the answer code and length, and no host write changes the
order of a slot that is not EMPTY. -/
def Obligations.TheRestOfASlotIsWrittenWhileEmpty : Prop :=
  (∀ (s : State) (k : SlotId) (a : WordAddr) (v : W16) (o : Nat), s.Ready → 2 * a.toNat = slotBase k + o →
    (0 < o → o < 64 → s.slotState k = slotEmpty →
      exec (.hostMemoryWrite a v) s = .next { s with mem := s.mem.write16 (slotBase k + o) v }) ∧
    (0 < o → o < 64 → s.slotState k ≠ slotEmpty → exec (.hostMemoryWrite a v) s = .next (s.refused a)) ∧
    (64 ≤ o → o < 128 → exec (.hostMemoryWrite a v) s = .next (s.refused a))) ∧
  (∀ (s : State) (k : SlotId) (code : AnswerCode) (body : List Byte), s.mem.wf = true → body.length ≤ 64 →
    (s.answer k code body).mem.read16 (slotBase k + 6) = code.code
      ∧ (s.answer k code body).mem.read16 (slotBase k + 8) = BitVec.ofNat 16 body.length) ∧
  ∀ (s t : State) (k : SlotId) (a : WordAddr) (v : W16), s.mem.wf = true → s.Ready →
    s.slotState k ≠ slotEmpty → exec (.hostMemoryWrite a v) s = .next t →
    ∀ x, bytesFrom (slotBase k + 2) 62 x → t.mem.readByte x = s.mem.readByte x

/-- Outside the slots, the header, the board and the pages refuse every host write but RETURNED to a PUBLISHED page,
which becomes RETURNED and is otherwise the journal's affair; the staging area takes writes while no order claims it.
-/
def Obligations.HostWritesOutsideTheSlots : Prop :=
  (∀ (s : State) (a : WordAddr) (v : W16), s.Ready →
    (2 * a.toNat < 0x400 → exec (.hostMemoryWrite a v) s = .next (s.refused a)) ∧
    (0xC00 ≤ 2 * a.toNat → 2 * a.toNat < 0x1C00 → s.intake.claim = none →
      exec (.hostMemoryWrite a v) s = .next { s with mem := s.mem.write16 (2 * a.toNat) v }) ∧
    (0xC00 ≤ 2 * a.toNat → 2 * a.toNat < 0x1C00 → s.intake.claim ≠ none →
      exec (.hostMemoryWrite a v) s = .next (s.refused a))) ∧
  (∀ (s : State) (p : PageId) (a : WordAddr) (v : W16) (o : Nat), s.Ready → 2 * a.toNat = pageBase p + o →
    o < 256 → ¬(o = 0 ∧ s.pageState p = pagePublished ∧ v = pageReturned) →
    exec (.hostMemoryWrite a v) s = .next (s.refused a)) ∧
  (∀ (s : State) (p : PageId), s.Ready → s.pageState p = pagePublished →
    ¬(s.journal.blocked = true ∧ s.journal.nextFill = p) →
    exec (.hostMemoryWrite (wordAt (pageBase p)) pageReturned) s =
      .next { s with mem := s.mem.write16 (pageBase p) pageReturned }) ∧
  (∀ (s : State) (p : PageId), s.Ready → s.pageState p = pagePublished →
    s.journal.blocked = true → s.journal.nextFill = p →
    exec (.hostMemoryWrite (wordAt (pageBase p)) pageReturned) s =
      .next (({ s with mem := s.mem.write16 (pageBase p) pageReturned } : State).openPage.drain)) ∧
  (∀ (s : State) (p : PageId), s.mem.wf = true → s.Ready → s.pageState p = pagePublished →
    ∃ t : State, exec (.pageReturn p) s = .next t
      ∧ exec (.hostMemoryWrite (wordAt (pageBase p)) pageReturned) s = .next t
      ∧ t = { s with mem := t.mem, regs := t.regs, journal := t.journal }
      ∧ Registers.Raised causeJournal s.regs t.regs
      ∧ Memory.SameBut journalBytes s.mem t.mem) ∧
  ∀ (s : State) (p : PageId), s.Ready → s.pageState p ≠ pagePublished →
    exec (.pageReturn p) s = .next (s.refused (wordAt (pageBase p)))

/-- The host clears each cause by its own write and no other; clearing JOURNAL starts the count of pages again, and
clearing PROTOCOL empties the latch. ATTN_ENABLE takes the five enables (which bits it keeps is the model's choice,
assumption 16), RUN is taken while RESTART reads 0, IDENT takes nothing, and ATTN_N is asserted while an enabled cause
is set. -/
def Obligations.RegisterWritesAndAttention : Prop :=
  ∀ s : State, s.Ready →
    let without := fun c : W16 => { s.regs with cause := s.regs.cause &&& ~~~c }
    exec .clearAnswer s = .next { s with regs := without causeAnswer } ∧
    exec .clearCondition s = .next { s with regs := without causeCondition } ∧
    exec .clearStore s = .next { s with regs := without causeStore } ∧
    exec .clearJournal s =
      .next { s with regs := without causeJournal, journal := { s.journal with attention := 0 } } ∧
    exec .clearProtocol s =
      .next
        { s with
          regs := { without causeProtocol with refused := none }
          mem := s.mem.write16 hdrRefused 0xFFFF } ∧
    (∀ v : W16, exec (.attnEnableWrite v) s = .next { s with regs := { s.regs with enable := v &&& 0x1F } }) ∧
    (∀ b : Bool, s.regs.restart = false → exec (.run b) s = .next { s with regs := { s.regs with run := b } }) ∧
    (∀ b : Bool, s.regs.restart = true → exec (.run b) s = .next s) ∧
    (∀ (high : Bool) (v : W16), exec (.registerWrite high v) s = .next s) ∧
    (s.attention = true ↔ ∃ i : Nat, s.regs.cause.getLsbD i = true ∧ s.regs.enable.getLsbD i = true)

/-! The orders: the take, the answers, and what each owner does. -/

/-- An order is taken only while RUN is 1 and its slot is POSTED with its kind; the first parameter out of range is
answered BAD_PARAM with its number, a claimed staging area STAGING_BUSY, and an unknown kind BAD_ORDER, with nothing
else changed. The command takes the slot as the sweep does (assumption 5). A sweep examines each slot once, beginning
after the sweep position and ending with it: a POSTED slot is taken, a withdrawal not yet handed is handed to the owner,
and the position becomes the last slot taken. -/
def Obligations.TakingAnOrder : Prop :=
  (∀ (s : State) (k : SlotId) (kind : OrderKind), s.Ready →
    ¬(s.regs.run = true ∧ s.slotState k = slotPosted ∧ OrderKind.ofCode (s.slotKind k) = some kind) →
    exec (orderCommand k kind) s = .next s) ∧
  (∀ (s : State) (k : SlotId) (kind : OrderKind), s.Posted k kind →
    exec (orderCommand k kind) s = .next ((s.takeSlot k).setPosition k)) ∧
  (∀ (s : State) (k : SlotId) (kind : OrderKind) (n : Nat), s.Posted k kind → s.badOrderParam k kind = some n →
    ∃ t : State, exec (orderCommand k kind) s = .next t ∧ AnsweredAs k .badParam (u16 n) s s t) ∧
  (∀ (s : State) (k : SlotId) (kind : OrderKind), s.Posted k kind → kind.claimsStaging = true →
    s.intake.claim ≠ none →
    ∃ t : State, exec (orderCommand k kind) s = .next t ∧ AnsweredAs k .stagingBusy [] s s t) ∧
  (∀ (s : State) (k : SlotId), s.mem.wf = true → OrderKind.ofCode (s.slotKind k) = none →
    AnsweredAs k .badOrder [] s s ((s.takeSlot k).setPosition k)) ∧
  (∀ s : State, s.regs.run = false → s.sweep = s) ∧
  (∀ (s t : State) (last : Option SlotId), s.regs.run = true →
    (rotation s.intake.position).foldl examineSlot (s, none) = (t, last) →
    (last = none → s.sweep = t) ∧ ∀ k, last = some k → s.sweep = t.setPosition k) ∧
  (∀ p : SlotId, (rotation p).Nodup ∧ (∀ k : SlotId, k ∈ rotation p) ∧ (rotation p).getLast? = some p
    ∧ ∀ i : Nat, i < 16 → (rotation p)[i]? = some (Fin.ofNat 16 (p.val + 1 + i))) ∧
  (∀ (s : State) (last : Option SlotId) (k : SlotId),
    (s.slotState k = slotPosted → examineSlot (s, last) k = (s.takeSlot k, some k)) ∧
    (∀ f, s.slotState k = slotWithdraw → s.flightOf k = some f → f.withdrawn = false →
      examineSlot (s, last) k = (s.handWithdrawal k, last)) ∧
    (s.slotState k ≠ slotPosted →
      (s.slotState k ≠ slotWithdraw ∨ s.flightOf k = none ∨ ∃ f, s.flightOf k = some f ∧ f.withdrawn = true) →
      examineSlot (s, last) k = (s, last))) ∧
  (∀ (s : State) (k : SlotId),
    let word := fun x : Nat => (s.order16 k x).toNat
    let reference := (s.order32 k 2).toInt
    let vehicle := s.orderVehicle k
    let characters := vehicle.length = 12 ∧ (∀ b ∈ vehicle, 0x20 ≤ b.toNat ∧ b.toNat ≤ 0x7E) ∧ vehicle.headD 0x20 ≠ 0x20
    let mask := ∃ d : DeckId, (s.order16 k 0).getLsbD d.val = true
    (s.badOrderParam k .clearCell = none ↔ word 0 ≤ 23) ∧
    (s.badOrderParam k .armClass = none ↔ word 0 ≤ 15) ∧
    (s.badOrderParam k .zero = none ↔
      mask ∧ word 0 ≤ 15 ∧ ∀ d : DeckId, (s.order16 k 0).getLsbD d.val = true → s.metro.active.isEnabled d = true) ∧
    (s.badOrderParam k .setSignals = none ↔
      word 0 ≤ 2 ∧ word 2 ≤ 2 ∧ word 4 ≤ 2 ∧ (word 4 = 2 → 100 ≤ word 6 ∧ word 6 ≤ 2000)) ∧
    (s.badOrderParam k .firstWeigh = none ↔ characters ∧ word 16 ≤ 1) ∧
    (s.badOrderParam k .secondWeigh = none ↔ characters) ∧
    (s.badOrderParam k .voidVisit = none ↔ characters) ∧
    (s.badOrderParam k .zeroCal = none ↔ mask ∧ word 0 ≤ 15) ∧
    (s.badOrderParam k .spanCal = none ↔ 1000000 ≤ reference ∧ reference ≤ 200000000) ∧
    (s.badOrderParam k .cornerRead = none ↔ word 0 ≤ 3 ∧ word 2 ≤ 23) ∧
    (s.badOrderParam k .testLoad = none ↔
      (mask ∧ word 0 ≤ 15) ∧ 0 ≤ reference ∧ reference ≤ 800000000 ∧ word 6 ≤ 2) ∧
    (s.badOrderParam k .readAudit = none ↔ 1 ≤ word 4 ∧ word 4 ≤ 16)) ∧
  (∀ (s : State) (k : SlotId),
    let word := fun x : Nat => (s.order16 k x).toNat
    (∀ (kind : OrderKind) (n : Nat),
      kind = .clearCell ∨ kind = .armClass ∨ kind = .zero ∨ kind = .secondWeigh ∨ kind = .voidVisit
        ∨ kind = .zeroCal → s.badOrderParam k kind = some n → n = 0) ∧
    (2 < word 0 → s.badOrderParam k .setSignals = some 0) ∧
    (word 0 ≤ 2 → 2 < word 2 → s.badOrderParam k .setSignals = some 1) ∧
    (word 0 ≤ 2 → word 2 ≤ 2 → 2 < word 4 → s.badOrderParam k .setSignals = some 2) ∧
    (word 0 ≤ 2 → word 2 ≤ 2 → word 4 = 2 → word 6 < 100 ∨ 2000 < word 6 →
      s.badOrderParam k .setSignals = some 3) ∧
    (s.badOrderParam k .secondWeigh ≠ none → s.badOrderParam k .firstWeigh = some 0) ∧
    (s.badOrderParam k .secondWeigh = none → 1 < word 16 → s.badOrderParam k .firstWeigh = some 2) ∧
    (3 < word 0 → s.badOrderParam k .cornerRead = some 0) ∧
    ((s.order32 k 2).toInt < 1000000 ∨ 200000000 < (s.order32 k 2).toInt → s.badOrderParam k .spanCal = some 1) ∧
    (word 0 ≤ 3 → 23 < word 2 → s.badOrderParam k .cornerRead = some 1) ∧
    (s.badOrderParam k .zeroCal ≠ none → s.badOrderParam k .testLoad = some 0) ∧
    (s.badOrderParam k .zeroCal = none → (s.order32 k 2).toInt < 0 ∨ 800000000 < (s.order32 k 2).toInt →
      s.badOrderParam k .testLoad = some 1) ∧
    (s.badOrderParam k .zeroCal = none → 0 ≤ (s.order32 k 2).toInt → (s.order32 k 2).toInt ≤ 800000000 → 2 < word 6 →
      s.badOrderParam k .testLoad = some 2) ∧
    (word 4 < 1 ∨ 16 < word 4 → s.badOrderParam k .readAudit = some 1)) ∧
  ∀ (s : State) (k : SlotId) (kind : OrderKind),
    kind = .clearLink ∨ kind = .loadClasses ∨ kind = .setSite ∨ kind = .readSite ∨ kind = .setClock
      ∨ kind = .findVisit ∨ kind = .recallTicket ∨ kind = .publishNow ∨ kind = .openSession ∨ kind = .stageParams ∨ kind = .commitSession
      ∨ kind = .abortSession ∨ kind = .readMetrology →
    s.badOrderParam k kind = none

/-- SET_SIGNALS stages both aspects and the horn pattern, sets both pending marks, and answers with the causes that
stand. ARM_CLASS arms the class for the next traverse while the bridge is EMPTY and is otherwise refused. ZERO is
refused PLATFORM_BUSY, SESSION_OPEN or PLATFORM_OCCUPIED, then NOT_READY, NOT_STILL or OUT_OF_RANGE with the lowest deck
that failed, each step for every deck it names before the next; it makes the corrected mass of each deck the working
zero once every deck passes, and ends the zero watch of a deck that had ZERO_UNSET. Which flags are read from the
snapshot and which as they stand is the model's choice (assumption 35). -/
def Obligations.SetSignalsArmClassAndZero : Prop :=
  (∀ (s : State) (k : SlotId), s.Posted k .setSignals → s.badOrderParam k .setSignals = none →
    ∃ t : State, exec (.setSignals k) s = .next t
      ∧ AnsweredAs k .done (bytes16 (causeBits s.lane.causes)) s
        { s with
          lane :=
            { s.lane with
              stagedA := Aspect.ofCode (s.order16 k 0).toNat
              stagedB := Aspect.ofCode (s.order16 k 2).toNat
              stagedHorn := stagedHornOf (s.order16 k 4).toNat (s.order16 k 6).toNat
              aspectPending := true
              hornPending := true } } t) ∧
  (∀ (s : State) (k : SlotId), s.Posted k .armClass → s.badOrderParam k .armClass = none →
    (s.tracker.traverse = none →
      ∃ t : State, exec (.armClass k) s = .next t
        ∧ AnsweredAs k .done [] s { s with tracker := { s.tracker with armed := some (s.order16 k 0).toNat } } t) ∧
    (s.tracker.traverse ≠ none →
      ∃ t : State, exec (.armClass k) s = .next t ∧ AnsweredAs k .platformOccupied [] s s t)) ∧
  ∀ (s : State) (k : SlotId), s.Posted k .zero → s.badOrderParam k .zero = none →
    let ds := maskDecks (s.order16 k 0)
    (s.capture = none → s.session.state = .closed → s.tracker.report.state = .empty →
      (∀ d ∈ ds, zeroNotReady (s.zeroFlags d) = false ∧ (s.snapOf d).flags.motion = false ∧ s.zeroInRange d = true) →
      ∃ t : State, exec (.zero k) s = .next t
        ∧ AnsweredAs k .done [] s { s with monitor := { s.monitor with decks := t.monitor.decks } } t
        ∧ ∀ d,
          let x := s.monitor.decks.get d
          let n := (s.snapOf d).corrected
          (d ∉ ds → t.monitor.decks.get d = x) ∧
          (d ∈ ds → x.flags.zeroUnset = false → t.monitor.decks.get d = { x with zero := n, zeroed := true }) ∧
          (d ∈ ds → x.flags.zeroUnset = true →
            t.monitor.decks.get d =
              { x with
                zero := n
                zeroRef := n
                zeroed := true
                watch := .ended
                flags := { x.flags with zeroUnset := false } })) ∧
    (s.capture ≠ none ∨ s.session.state = .committing →
      ∃ t : State, exec (.zero k) s = .next t ∧ AnsweredAs k .platformBusy [] s s t) ∧
    (s.capture = none → s.session.state = .opened →
      ∃ t : State, exec (.zero k) s = .next t ∧ AnsweredAs k .sessionOpen [] s s t) ∧
    (s.capture = none → s.session.state = .closed → s.tracker.report.state ≠ .empty →
      ∃ t : State, exec (.zero k) s = .next t ∧ AnsweredAs k .platformOccupied [] s s t) ∧
    (s.capture = none → s.session.state = .closed → s.tracker.report.state = .empty →
      let m := s.metro.active
      let unready := fun d : DeckId =>
        let seen := (s.snapOf d).flags
        let now := s.flagsOf d
        seen.linkFault = true ∨ now.linkFault = true ∨ seen.degraded = true ∨ now.degraded = true ∨ seen.filling = true
          ∨ now.filling = true ∨ seen.uncalibrated = true ∨ now.uncalibrated = true ∨ seen.overload = true
          ∨ seen.under = true
      let moving := fun d : DeckId => (s.snapOf d).flags.motion = true
      let far := fun d : DeckId =>
        let n := (s.snapOf d).corrected
        if (s.flagsOf d).zeroUnset = true then 10 * m.maxOf d < ((n - m.zcalOf d).natAbs : Int) * 100
        else 2 * m.maxOf d < ((n - (s.monitor.decks.get d).zeroRef).natAbs : Int) * 100
      ∀ d ∈ ds,
        (unready d → (∀ c ∈ ds, c < d → ¬unready c) →
          ∃ t : State, exec (.zero k) s = .next t ∧ AnsweredAs k .notReady (u16 d.val) s s t) ∧
        ((∀ c ∈ ds, ¬unready c) → moving d → (∀ c ∈ ds, c < d → ¬moving c) →
          ∃ t : State, exec (.zero k) s = .next t ∧ AnsweredAs k .notStill (u16 d.val) s s t) ∧
        ((∀ c ∈ ds, ¬unready c ∧ ¬moving c) → far d → (∀ c ∈ ds, c < d → ¬far c) →
          ∃ t : State, exec (.zero k) s = .next t ∧ AnsweredAs k .outOfRange (u16 d.val) s s t))

/-- READ_SITE claims the free staging area, writes the eleven settings there in the layout of the site image, and is
answered DONE at its take, which releases the claim; the rest of the staging area keeps what it held. -/
def Obligations.ReadSiteCopiesTheSettings : Prop :=
  ∀ (s : State) (k : SlotId), s.Posted k .readSite → s.intake.claim = none →
    ∃ t : State, exec (.readSite k) s = .next t
      ∧ Answered k .done [] s t
      ∧ t.intake.claim = none
      ∧ (∀ n, n < 11 → t.mem.read16 (stagingBase + 2 * n) = field16 (s.site.fields.getD n 0))
      ∧ t = { s with
        mem := t.mem
        intake := t.intake
        regs := { s.regs with cause := s.regs.cause ||| causeAnswer } }
      ∧ Memory.SameBut (fun x => answerBytes k x ∨ bytesFrom stagingBase 22 x) s.mem t.mem

/-- READ_METROLOGY claims the free staging area and writes the active set's image there without its CRC; the answer
gives the epoch, the CRC-32 and the stand-in mark, whatever the session state and the latch, and an OPEN session's
idle count is 0. What image and CRC-32 a set standing in has is the model's choice (assumption 33), and so is that the
bytes of the staging area beyond the image keep what they held (assumption 66). -/
def Obligations.ReadMetrologyCopiesTheActiveSet : Prop :=
  ∀ (s : State) (k : SlotId), s.Posted k .readMetrology → s.intake.claim = none →
    let image : MetroImage := ⟨s.metro.active, s.metro.epoch⟩
    ∃ t : State, exec (.readMetrology k) s = .next t
      ∧ Answered k .done (bytes32 s.metro.epoch ++ bytes32 image.crc ++ u16 (bit s.metro.standIn)) s t
      ∧ t.intake.claim = none
      ∧ t.mem.readBytes stagingBase 552 = image.bytes
      ∧ t = { s with
        mem := t.mem
        intake := t.intake
        regs := { s.regs with cause := s.regs.cause ||| causeAnswer }
        session := { s.session with idle := if s.session.state = .opened then 0 else s.session.idle } }
      ∧ Memory.SameBut (fun x => answerBytes k x ∨ bytesFrom stagingBase 552 x) s.mem t.mem

/-- FIND_VISIT answers from the HELD entry of the vehicle: its number, lot code, first weight, time and epoch, its
bound traverse or 0, and whether an axle summary is present with its verdict, quality and group count; NO_VISIT where
no entry of the vehicle is HELD, whatever twelve bytes the reference has. Nothing else changes, and no job is requested.
That an answer without a summary has all the fields, with 0 for the verdict, the quality and the group count, is the
model's choice (assumption 57). -/
def Obligations.FindVisitAnswersFromTheHeldEntry : Prop :=
  ∀ (s : State) (k : SlotId), s.Posted k .findVisit →
    let vehicle := s.orderVehicle k
    (∀ (i : Nat) (v : Visit), i < 64 → s.visits.places[i]? = some (some v) →
      v.entry.vehicle = vehicle → v.status = .held →
      (∀ j w, s.visits.places[j]? = some (some w) → w.entry.vehicle = vehicle → w.status = .held → i ≤ j) →
      let e := v.entry
      let shown := fun tail : List Byte =>
        bytes32 e.number ++ bytes32 e.lot ++ s32 e.weight ++ bytes32 e.time ++ bytes32 e.epoch
          ++ bytes32 (orZero e.bound) ++ tail
      (e.summary = none →
        ∃ t : State, exec (.findVisit k) s = .next t
          ∧ AnsweredAs k .done (shown (u16 0 ++ u8 0 ++ u8 0 ++ u16 0)) s s t) ∧
      ∀ m, e.summary = some m →
        ∃ t : State, exec (.findVisit k) s = .next t
          ∧ AnsweredAs k .done (shown (u16 1 ++ u8 m.verdict.code ++ u8 m.quality.code ++ u16 m.groups.length)) s s t) ∧
    ((∀ i v, i < 64 → s.visits.places[i]? = some (some v) → v.entry.vehicle = vehicle → v.status ≠ .held) →
      ∃ t : State, exec (.findVisit k) s = .next t ∧ AnsweredAs k .noVisit [] s s t)

/-- SET_CLOCK sets engine time, the flag and the second count, shows them, offers a CLOCK_SET record with the times
before and after, and answers with what was before. ENGINE_TIME_ADVANCE raises engine time by one when the second count
has reached 200, shows it, and begins an expiry pass where that is a whole hour; it goes on with the cadence event that
has stopped at it (assumption 4). A pass begins only with the clock set, a maximum age and no pass running. It takes the
HELD entries older than that age, the oldest first, one removal job at a time, passes over the capture's entry, and ends
under the store-fault latch, in a blocked journal, or with no entry left; a removal that completes places a
VISIT_EXPIRED record. -/
def Obligations.EngineClock : Prop :=
  (∀ (s : State) (k : SlotId), s.Posted k .setClock →
    let now := s.order32 k 0
    let set := (s.beginOrder k .setClock).setTime { time := now, isSet := true, second := 0 }
    let body := bytes32 s.time.time ++ u16 (bit s.time.isSet)
    ∃ t : State, exec (.setClock k) s = .next t
      ∧ Answered k .done body s t
      ∧ t = ((set.record (clockRecord s.time.time now s.time.isSet)).answer k .done body).setPosition k
      ∧ t = { s with
        time := { time := now, isSet := true, second := 0 }
        mem := t.mem
        intake := t.intake
        regs := t.regs
        journal := t.journal }
      ∧ t.mem.read32 hdrTime = now ∧ t.mem.read16 hdrClockSet = 1
      ∧ Registers.Raised (causeAnswer ||| causeJournal) s.regs t.regs
      ∧ Memory.SameBut (fun x => answerBytes k x ∨ journalBytes x ∨ bytesFrom hdrTime 4 x ∨ bytesFrom hdrClockSet 2 x)
        s.mem t.mem) ∧
  (∀ (s : State) (rest : List Piece), s.mem.wf = true → s.StoppedAt .time rest →
    200 ≤ s.time.second ∧
    ∃ u : State, exec .engineTimeAdvance s = .next (u.beginExpiry.run true rest)
      ∧ u = { s with
        unfinished := []
        time := { s.time with time := s.time.time + 1, second := 0 }
        mem := u.mem }
      ∧ u.mem.read32 hdrTime = s.time.time + 1
      ∧ u.mem.read16 hdrClockSet = BitVec.ofNat 16 (bit s.time.isSet)
      ∧ Memory.SameBut (fun x => bytesFrom hdrTime 4 x ∨ bytesFrom hdrClockSet 2 x) s.mem u.mem) ∧
  (∀ s : State, s.NotStoppedAt .time → exec .engineTimeAdvance s = .next s) ∧
  (∀ s : State,
    let age := s.site.visitAge
    let begins := s.time.time.toNat % 3600 = 0 ∧ s.time.isSet = true ∧ age ≠ 0 ∧ s.visits.pass = none
    (¬begins → s.beginExpiry = s) ∧
    (begins → s.beginExpiry = s.expiryStep age ((s.expiredEntries age).map (·.number)))) ∧
  (∀ (s : State) (age : Nat) (e : VisitEntry),
    e ∈ s.expiredEntries age ↔
      ∃ v, some v ∈ s.visits.places ∧ v.status = .held ∧ v.entry = e
        ∧ e.time.toNat + age * 3600 < s.time.time.toNat) ∧
  (∀ (s : State) (age : Nat),
    (s.expiredEntries age).Pairwise fun a b =>
      a.time.toNat < b.time.toNat ∨ a.time = b.time ∧ a.number.toNat ≤ b.number.toNat) ∧
  (∀ (s : State) (age : Nat) (n : W32) (rest : List W32),
    s.expiryStep age [] = { s with visits := { s.visits with pass := none } } ∧
    (s.placeOf n = none → s.expiryStep age (n :: rest) = s.expiryStep age rest) ∧
    ∀ i v, s.placeOf n = some i → s.place i = some v →
      let due := v.status = .held ∧ s.visits.mark ≠ some n ∧ v.entry.time.toNat + age * 3600 < s.time.time.toNat
      (¬due → s.expiryStep age (n :: rest) = s.expiryStep age rest) ∧
      (due → s.store.latch = true ∨ s.journal.blocked = true →
        s.expiryStep age (n :: rest) = { s with visits := { s.visits with pass := none } }) ∧
      (due → s.store.latch = false → s.journal.blocked = false →
        s.expiryStep age (n :: rest) =
          { s with
            visits :=
              { s.visits with
                places := s.visits.places.set i (some { v with status := .removing })
                pass := some ⟨age, rest, some n⟩ }
            store := { s.store with waiting := s.store.waiting ++ [⟨.expiry n, [.freeVisit i]⟩] } })) ∧
  (∀ (s : State) (n : W32) (i : Nat) (v : Visit) (p : ExpiryPass), s.visits.pass = some p → s.placeOf n = some i →
    s.place i = some v →
    let removed := s.removeVisit n
    s.jobCompleted (.expiry n) = (removed.record (removed.expiredRecord v.entry p.maxAge)).expiryStep p.maxAge p.todo) ∧
  ∀ (s : State) (n : W32) (i : Nat) (v : Visit), s.placeOf n = some i → s.place i = some v →
    s.jobFailed (.expiry n) =
      { s with
        visits :=
          { s.visits with places := s.visits.places.set i (some { v with status := .held }), pass := none } }

/-- The journal at work. A record that is offered is placed where a page is current, no reservation is held, the outbox
is empty and it fits, and its page is published if it is a prompt record; one that does not fit publishes the page and
is placed on the next; while the journal is blocked or the outbox holds records it is queued. Under a reservation it is
placed only where it fits beside it, and a prompt one marks the page due. The outbox takes 16 records of any kind and
24 with AUDIT records; any other is dropped, noted, and owes a SUMMARY, which a drain places ahead of the outbox.
A record whose room was reserved is placed and published at its event, and a released reservation publishes a page that
is due; then the journal drains. PUBLISH_NOW publishes a page that holds a record and answers with its index and
sequence; it marks the page due while a reservation is held, and has nothing to do on an empty page or none: that the
answer then has both further fields, as 0, is the model's choice (assumption 15). PUBLISH_DELAY publishes likewise where a cadence
event has stopped at it (assumption 4). A publication numbers the page, makes it PUBLISHED, shows it in the header, moves
filling on, and sets JOURNAL for a prompt record or once the attention count reaches the attention page count. -/
def Obligations.PublishNowAndDelay : Prop :=
  (∀ (s : State) (k : SlotId), s.Posted k .publishNow →
    (∀ p, s.journal.current = some p → s.pageCount p ≠ 0 → s.journal.reservation = none →
      ∃ t : State, exec (.publishNow k) s = .next t
        ∧ Answered k .done (u16 0 ++ u16 p.val ++ bytes32 s.journal.nextSequence) s t
        ∧ t = { s with mem := t.mem, intake := t.intake, regs := t.regs, journal := t.journal }
        ∧ Registers.Raised (causeAnswer ||| causeJournal) s.regs t.regs
        ∧ t.journal.nextSequence = nextSerial s.journal.nextSequence
        ∧ t.journal.nextFill = nextPage s.journal.nextFill
        ∧ t.mem.read32 hdrLastSequence = s.journal.nextSequence
        ∧ t.mem.read16 hdrLastPage = BitVec.ofNat 16 p.val
        ∧ t.journal.attention = min 65535 (s.journal.attention + 1)
        ∧ (s.regs.cause &&& causeJournal = 0 →
          (t.regs.cause &&& causeJournal = causeJournal ↔
            s.journal.prompt = true ∨ s.site.attentionPages ≤ t.journal.attention))
        ∧ (p ≠ nextPage s.journal.nextFill → ∀ q, q = nextPage s.journal.nextFill →
          t.pageState p = pagePublished
            ∧ (s.journal.nextFill = p → s.pageState q = pagePublished →
              t.journal.blocked = true ∧ t.journal.current = none)
            ∧ (s.journal.nextFill = p → s.pageState q ≠ pagePublished →
              t.journal.blocked = false ∧ t.journal.current = some q ∧ t.pageState q = pageFilling))
        ∧ Memory.SameBut (fun x => answerBytes k x ∨ journalBytes x) s.mem t.mem) ∧
    (∀ p, s.journal.current = some p → s.pageCount p ≠ 0 → s.journal.reservation ≠ none →
      ∃ t : State, exec (.publishNow k) s = .next t
        ∧ AnsweredAs k .done (u16 1 ++ u16 0 ++ bytes32 0) s { s with journal := { s.journal with due := true } } t) ∧
    ((∀ p, s.journal.current = some p → s.pageCount p = 0) →
      ∃ t : State, exec (.publishNow k) s = .next t ∧ AnsweredAs k .done (u16 2 ++ u16 0 ++ bytes32 0) s s t)) ∧
  (∀ (s : State) (rest : List Piece), s.StoppedAt .publishDelay rest →
    let u : State := { s with unfinished := [] }
    (∃ p, s.journal.current = some p ∧ s.pageCount p ≠ 0 ∧ s.site.publishDelay ≤ s.journal.delay) ∧
    (s.journal.reservation ≠ none →
      exec .publishDelay s = .next (({ u with journal := { s.journal with due := true } } : State).run true rest)) ∧
    (s.journal.reservation = none → exec .publishDelay s = .next (u.publish.run true rest))) ∧
  (∀ s : State, s.NotStoppedAt .publishDelay → exec .publishDelay s = .next s) ∧
  (∀ (s : State) (p : PageId) (r : Record), s.mem.wf = true → s.pageUsed p + r.length ≤ 240 →
    s.pageCount p < 65535 →
    ∃ t : State, s.placeOn p r = t
      ∧ t = { s with mem := t.mem, journal := t.journal }
      ∧ t.mem.readBytes (pageBody p + s.pageUsed p) r.length = r.bytes s.journal.nextSerial
      ∧ t.pageUsed p = s.pageUsed p + r.length ∧ t.pageCount p = s.pageCount p + 1
      ∧ t.journal =
        { s.journal with
          nextSerial := nextSerial s.journal.nextSerial
          prompt := s.journal.prompt || r.kind.prompt
          firstAt := if s.pageCount p = 0 then some s.link.cadence else s.journal.firstAt }
      ∧ Memory.SameBut
        (fun x => bytesFrom (pageBody p + s.pageUsed p) r.length x ∨ bytesFrom (pageBase p + 8) 2 x
          ∨ bytesFrom (pageBase p + 2) 2 x) s.mem t.mem) ∧
  (∀ (s : State) (p : PageId) (r : Record) (res : Reservation), s.journal.current = some p →
    s.journal.reservation = some res →
    let ended : State := { s with journal := { s.journal with reservation := none, due := false } }
    s.placeReserved r = ((ended.placeOn p r).publish).drain ∧
    (s.journal.due = true → s.pageCount p ≠ 0 → s.releaseReservation = ended.publish.drain) ∧
    (s.journal.due = false ∨ s.pageCount p = 0 → s.releaseReservation = ended.drain)) ∧
  (∀ (s : State) (r : Record),
    let j := s.journal
    let placed := fun (t : State) (p : PageId) => if r.kind.prompt then (t.placeOn p r).publish else t.placeOn p r
    (j.holding = true → s.record r = { s with journal := { j with held := j.held ++ [r] } }) ∧
    (j.holding = false → s.record r = s.offer r) ∧
    (j.reservation = none → j.blocked = true ∨ j.outbox ≠ [] → s.offer r = s.queueRecord r) ∧
    (∀ p, j.reservation = none → j.blocked = false → j.outbox = [] → j.current = some p →
      (r.length ≤ s.pageLeft p → s.offer r = placed s p) ∧
      (s.pageLeft p < r.length →
        (s.publish.journal.current = none → s.offer r = s.publish.queueRecord r) ∧
        ∀ q, s.publish.journal.current = some q → s.offer r = placed s.publish q)) ∧
    (j.reservation = none → j.blocked = false → j.outbox = [] → j.current = none →
      (s.openPage.journal.current = none → s.offer r = s.openPage.queueRecord r) ∧
      ∀ p, s.openPage.journal.current = some p → r.length ≤ s.openPage.pageLeft p →
        s.offer r = placed s.openPage p) ∧
    (∀ res, j.reservation = some res →
      (∀ p, j.current = some p → r.length + res.length ≤ s.pageLeft p → j.outbox = [] →
        let t := s.placeOn p r
        s.offer r = if r.kind.prompt then { t with journal := { t.journal with due := true } } else t) ∧
      (j.current = none ∨ j.outbox ≠ [] ∨ (∀ p, j.current = some p → s.pageLeft p < r.length + res.length) →
        s.offer r = s.queueRecord r)) ∧
    (j.outbox.length < 16 ∨ (j.outbox.length < 24 ∧ r.kind = .audit) →
      s.queueRecord r =
        { s with
          journal := { j with outbox := j.outbox ++ [r] }
          mem := s.mem.write16 hdrOutbox (BitVec.ofNat 16 (j.outbox.length + 1)) }) ∧
    (16 ≤ j.outbox.length → r.kind ≠ .audit ∨ 24 ≤ j.outbox.length →
      s.queueRecord r = { s with journal := { j with owed := true, notes := j.notes.drop r } })) ∧
  (∀ (n : Notes) (r : Record),
    let up := fun count : Nat => min 65535 (count + 1)
    (r.kind = .axleReport →
      n.drop r =
        { n with
          firstTraverse := some (n.firstTraverse.getD r.key)
          lastTraverse := some r.key
          reports := up n.reports }) ∧
    (r.kind = .audit →
      n.drop r =
        { n with
          firstAudit := some (n.firstAudit.getD r.key)
          lastAudit := some r.key
          audits := up n.audits }) ∧
    (r.kind = .condition ∨ r.kind = .startup → n.drop r = { n with notices := up n.notices }) ∧
    (r.kind = .visitVoided ∨ r.kind = .visitExpired → n.drop r = { n with visits := up n.visits }) ∧
    (r.kind = .clockSet → n.drop r = { n with clocks := up n.clocks })) ∧
  ∀ s : State,
    let j := s.journal
    (j.blocked = true ∨ j.reservation ≠ none ∨ (j.owed = false ∧ j.outbox = []) → s.drain = s) ∧
    (j.blocked = false → j.reservation = none → j.owed = false → j.outbox ≠ [] →
      s.drain = (s.drainOutbox j.outbox).judgePage) ∧
    (j.blocked = false → j.reservation = none → j.owed = true →
      let first := s.placeSummary
      (first.journal.blocked = true → s.drain = first.judgePage) ∧
      (first.journal.blocked = false → s.drain = (first.drainOutbox first.journal.outbox).judgePage)) ∧
    (∀ p, j.current = some p →
      let noted := fun u : State =>
        { u with journal := { u.journal with notes := Notes.start, owed := false, owedRestart := false } }
      (s.summaryRecord.length ≤ s.pageLeft p → s.placeSummary = noted (s.placeOn p s.summaryRecord)) ∧
      (s.pageLeft p < s.summaryRecord.length →
        (s.publish.journal.current = none → s.placeSummary = s.publish) ∧
        ∀ q, s.publish.journal.current = some q →
          s.placeSummary = noted (s.publish.placeOn q s.publish.summaryRecord))) ∧
    s.drainOutbox [] = s ∧
    (∀ (p : PageId) (r : Record) (rest : List Record), j.current = some p →
      (r.length ≤ s.pageLeft p → s.drainOutbox (r :: rest) = ((s.placeOn p r).setOutbox rest).drainOutbox rest) ∧
      (s.pageLeft p < r.length →
        (s.publish.journal.current = none → s.drainOutbox (r :: rest) = s.publish) ∧
        ∀ q, s.publish.journal.current = some q →
          s.drainOutbox (r :: rest) = ((s.publish.placeOn q r).setOutbox rest).drainOutbox rest)) ∧
    ∀ p, j.current = some p →
      let full := j.prompt = true ∨ (s.pageCount p ≠ 0 ∧ s.site.publishDelay ≤ j.delay)
      (full → s.judgePage = s.publish) ∧ (¬full → s.judgePage = s)


/-- CLEAR_LINK makes a RESUMED link LIVE: shown, LINK_FAULT taken from every enabled deck, LINK_RESTORED audited and
noticed. CLEAR_CELL makes a RECOVERED cell ACTIVE with its counts 0, restarts the filter of its deck, judges DEGRADED
again, audits CELL_RESTORED and notices it. In every other state either order is answered and changes nothing. -/
def Obligations.ClearLinkAndClearCell : Prop :=
  (∀ (s : State) (k : SlotId), s.Posted k .clearLink →
    (s.link.state = .resumed →
      ∃ t : State, exec (.clearLink k) s = .next t
        ∧ Answered k .done [] s t
        ∧ t = { s with
          link := { s.link with state := .live }
          monitor := { s.monitor with decks := t.monitor.decks }
          mem := t.mem
          intake := t.intake
          regs := t.regs
          journal := t.journal
          audit := t.audit
          store := { s.store with waiting := t.store.waiting } }
        ∧ (∀ d, t.monitor.decks.get d =
          { s.monitor.decks.get d with
            flags := { s.flagsOf d with linkFault := !s.metro.active.isEnabled d && (s.flagsOf d).linkFault } })
        ∧ t.mem.read16 hdrLink = BitVec.ofNat 16 LinkState.live.code
        ∧ Audited .linkRestored (u16 s.frameNumber ++ u16 0) s t
        ∧ t.regs.cause &&& causeCondition = causeCondition
        ∧ Registers.Raised (causeAnswer ||| causeJournal ||| causeCondition) s.regs t.regs
        ∧ Memory.SameBut (fun x => answerBytes k x ∨ journalBytes x ∨ bytesFrom hdrLink 2 x) s.mem t.mem) ∧
    (s.link.state = .lost → ∃ t : State, exec (.clearLink k) s = .next t ∧ AnsweredAs k .stillLost [] s s t) ∧
    (s.link.state = .live ∨ s.link.state = .waiting →
      ∃ t : State, exec (.clearLink k) s = .next t ∧ AnsweredAs k .done [] s s t)) ∧
  ∀ (s : State) (k : SlotId), s.Posted k .clearCell → s.badOrderParam k .clearCell = none →
    let c : CellId := Fin.ofNat 24 (s.order16 k 0).toNat
    ((s.cell c).state = .recovered →
      ∃ t : State, exec (.clearCell k) s = .next t
        ∧ Answered k .done [] s t
        ∧ t = { s with
          cells :=
            s.cells.set c.val
              { s.cell c with
                state := .active
                faultRun := 0
                recovery := 0
                restarts := 0
                released := true }
          chain := { s.chain with decks := t.chain.decks, cells := t.chain.cells }
          monitor := { s.monitor with decks := t.monitor.decks }
          mem := t.mem
          intake := t.intake
          regs := t.regs
          journal := t.journal
          audit := t.audit
          store := { s.store with waiting := t.store.waiting } }
        ∧ (∀ d, s.metro.active.fittedTo c = some d →
          t.chain.decks.get d = { s.chain.decks.get d with history := [], fill := 0, running := 0 }
          ∧ t.monitor.decks.get d =
            { s.monitor.decks.get d with
              window := []
              fill := 0
              flags :=
                { s.flagsOf d with
                  filling := true
                  motion := true
                  degraded :=
                    (s.metro.active.cellsOf d).any fun e =>
                      e != c && ((s.cell e).state == .faulted || (s.cell e).state == .recovered) } })
        ∧ (∀ d, s.metro.active.fittedTo c ≠ some d →
          t.chain.decks.get d = s.chain.decks.get d ∧ t.monitor.decks.get d = s.monitor.decks.get d)
        ∧ Audited .cellRestored (u8 c.val ++ u8 (deckByte (s.metro.active.fittedTo c)) ++ u8 0 ++ u8 0) s t
        ∧ t.regs.cause &&& causeCondition = causeCondition
        ∧ Registers.Raised (causeAnswer ||| causeJournal ||| causeCondition) s.regs t.regs
        ∧ Memory.SameBut (fun x => answerBytes k x ∨ journalBytes x) s.mem t.mem) ∧
    ((s.cell c).state = .faulted →
      ∃ t : State, exec (.clearCell k) s = .next t ∧ AnsweredAs k .stillFaulted [] s s t) ∧
    ((s.cell c).state = .active ∨ (s.cell c).state = .unfitted →
      ∃ t : State, exec (.clearCell k) s = .next t ∧ AnsweredAs k .done [] s s t)

/-- LOAD_CLASSES and SET_SITE judge the image in the staging area, and with every field in range request the job that
writes it and stay in flight with the claim; VOID_VISIT makes the HELD entry REMOVING and requests its removal. Under
the store-fault latch each is answered STORE_FAULT and changes nothing. The fields of a class are a name of characters
from 0x20 to 0x7E, six limits of at most 1,000,000,000 and a tolerance of at most 100; those of the settings have the
ranges of section 6.6; the number answered is that of the first field out of range, for a class table counted from 8
times the class number. -/
def Obligations.OrdersThatRequestAJob : Prop :=
  (∀ (s : State) (k : SlotId), s.Posted k .loadClasses → s.intake.claim = none →
    let table := s.imageClasses
    (s.store.latch = false → firstBadField 0 table = none →
      ∃ t : State, exec (.loadClasses k) s = .next t
        ∧ InFlight k .loadClasses s t ∧ t.intake.claim = some k
        ∧ Requested (.classes k table) (classRows 0 table) s t
        ∧ t = { s with mem := t.mem, intake := t.intake, store := t.store }
        ∧ Memory.SameBut (takeBytes k) s.mem t.mem) ∧
    (∀ n, s.store.latch = false → firstBadField 0 table = some n →
      ∃ t : State, exec (.loadClasses k) s = .next t ∧ AnsweredAs k .badParam (u16 n) s s t) ∧
    (s.store.latch = true → ∃ t : State, exec (.loadClasses k) s = .next t ∧ AnsweredAs k .storeFault [] s s t)) ∧
  (∀ (s : State) (k : SlotId), s.Posted k .setSite → s.intake.claim = none →
    (s.store.latch = false → s.imageSite.badField = none →
      ∃ t : State, exec (.setSite k) s = .next t
        ∧ InFlight k .setSite s t ∧ t.intake.claim = some k
        ∧ Requested (.site k s.imageSite) [.site s.imageSite] s t
        ∧ t = { s with mem := t.mem, intake := t.intake, store := t.store }
        ∧ Memory.SameBut (takeBytes k) s.mem t.mem) ∧
    (∀ n, s.store.latch = false → s.imageSite.badField = some n →
      ∃ t : State, exec (.setSite k) s = .next t ∧ AnsweredAs k .badParam (u16 n) s s t) ∧
    (s.store.latch = true → ∃ t : State, exec (.setSite k) s = .next t ∧ AnsweredAs k .storeFault [] s s t)) ∧
  (∀ c : ClassEntry,
    let limits := [c.steer, c.single, c.tandem, c.tri, c.quad, c.gross]
    let right := fun p : Nat =>
      if p = 0 then ∀ b ∈ c.name, 0x20 ≤ b.toNat ∧ b.toNat ≤ 0x7E
      else if p ≤ 6 then limits.getD (p - 1) 0 ≤ 1000000000
      else c.tolerance ≤ 100
    (c.badField = none ↔ ∀ p, p < 8 → right p) ∧
    ∀ p, c.badField = some p ↔ p < 8 ∧ ¬right p ∧ ∀ q, q < p → right q) ∧
  (∀ table : List ClassEntry,
    (firstBadField 0 table = none ↔ ∀ c ∈ table, c.badField = none) ∧
    ∀ n, firstBadField 0 table = some n ↔
      ∃ i c p, table[i]? = some c ∧ c.badField = some p ∧ n = 8 * i + p
        ∧ ∀ j x, j < i → table[j]? = some x → x.badField = none) ∧
  (∀ s : State, s.imageClasses.length = 16 ∧
    ∀ i : Nat, i < 16 →
      let base := stagingBase + 64 * i
      let limit := fun n : Nat => (s.mem.read32 (base + 8 + 4 * n)).toNat
      s.imageClasses[i]? =
        some
          { name := s.mem.readBytes base 8
            steer := limit 0
            single := limit 1
            tandem := limit 2
            tri := limit 3
            quad := limit 4
            gross := limit 5
            tolerance := (s.mem.read16 (base + 32)).toNat }) ∧
  (∀ x : Site,
    let least := [2, 200, 300, 2, 1000, 6000, 0, 1, 1, 1, 0]
    let greatest := [50, 1000, 2000, 10, 3000, 20000, 1, 120, 1000, 100, 720]
    let fields :=
      [x.debounce, x.spacing, x.settle, x.maxSpeed, x.groupGap, x.vehicleGap, x.policy, x.captureTimeout, x.publishDelay,
        x.attentionPages, x.visitAge]
    let right := fun n : Nat => least.getD n 0 ≤ fields.getD n 0 ∧ fields.getD n 0 ≤ greatest.getD n 0
    (x.badField = none ↔ ∀ n, n < 11 → right n) ∧
    ∀ n, x.badField = some n ↔ n < 11 ∧ ¬right n ∧ ∀ m, m < n → right m) ∧
  (∀ s : State,
    let x := s.imageSite
    [x.debounce, x.spacing, x.settle, x.maxSpeed, x.groupGap, x.vehicleGap, x.policy, x.captureTimeout, x.publishDelay,
        x.attentionPages, x.visitAge] =
      (List.range 11).map fun n => (s.mem.read16 (stagingBase + 2 * n)).toNat) ∧
  ∀ (s : State) (k : SlotId), s.Posted k .voidVisit → s.badOrderParam k .voidVisit = none →
    (∀ (i : Nat) (v : Visit), s.store.latch = false → s.heldPlace (s.orderVehicle k) = some i → s.place i = some v →
      (s.visits.mark ≠ some v.entry.number →
        ∃ t : State, exec (.voidVisit k) s = .next t
          ∧ InFlight k .voidVisit s t
          ∧ Requested (.voidVisit k v.entry.number) [.freeVisit i] s t
          ∧ t = { s with
            visits := { s.visits with places := s.visits.places.set i (some { v with status := .removing }) }
            mem := t.mem
            intake := t.intake
            store := t.store }
          ∧ Memory.SameBut (takeBytes k) s.mem t.mem) ∧
      (s.visits.mark = some v.entry.number →
        ∃ t : State, exec (.voidVisit k) s = .next t ∧ AnsweredAs k .visitInUse [] s s t)) ∧
    (s.store.latch = false → s.heldPlace (s.orderVehicle k) = none →
      ∃ t : State, exec (.voidVisit k) s = .next t ∧ AnsweredAs k .noVisit [] s s t) ∧
    (s.store.latch = true → ∃ t : State, exec (.voidVisit k) s = .next t ∧ AnsweredAs k .storeFault [] s s t)

/-- RECALL_TICKET reserves room for a DUPLICATE record, on the page that follows where the current one has no room and
that page is FREE or RETURNED, requests the row with the raised recall count and stays in flight; READ_AUDIT offers
copies of the entries from a serial on as AUDIT records marked COPY and answers with how many and the last serial (a
count that meets a gap in the serials counts entries, which is the model's choice, assumption 60). Both
are refused while the journal has no room for their records, and answered NOT_FOUND for what is not held. An entry
written joins the log under the next serial and is offered as an AUDIT record. -/
def Obligations.RecallTicketAndReadAudit : Prop :=
  (∀ (s : State) (k : SlotId), s.Posted k .recallTicket →
    let n := s.order32 k 0
    let free := s.journal.reservation = none ∧ s.journal.blocked = false ∧ s.journal.outbox = [] ∧ s.journal.owed = false
    (∀ (i : Nat) (c : TicketCopy), s.store.latch = false → s.copyPlace n = some i → s.ticketPlace i = .held c →
      let raised := { c with recalls := raiseTo65535 c.recalls }
      (∀ p, n ∉ s.tickets.recalls → free → s.journal.current = some p → 236 ≤ s.pageLeft p →
        ∃ t : State, exec (.recallTicket k) s = .next t
          ∧ InFlight k .recallTicket s t
          ∧ Requested (.recall k i raised) [.ticket i 3 raised] s t
          ∧ t = { s with
            tickets := { s.tickets with recalls := s.tickets.recalls ++ [n] }
            journal := { s.journal with reservation := some ⟨.duplicate, 236⟩ }
            mem := t.mem
            intake := t.intake
            store := t.store }
          ∧ Memory.SameBut (takeBytes k) s.mem t.mem) ∧
      (∀ p, n ∉ s.tickets.recalls → free → s.journal.current = some p → s.pageLeft p < 236 →
        s.pageState (nextPage p) = pageFree ∨ s.pageState (nextPage p) = pageReturned →
        let moved := (s.beginOrder k .recallTicket).publish
        ∃ t : State, exec (.recallTicket k) s = .next t
          ∧ InFlight k .recallTicket s t
          ∧ Requested (.recall k i raised) [.ticket i 3 raised] s t
          ∧ t = { s with
            tickets := { s.tickets with recalls := s.tickets.recalls ++ [n] }
            journal := { moved.journal with reservation := some ⟨.duplicate, 236⟩ }
            mem := t.mem
            intake := t.intake
            regs := moved.regs
            store := t.store }
          ∧ Memory.SameBut (bytesFrom hdrSweep 2) moved.mem t.mem
          ∧ (p ≠ nextPage s.journal.nextFill → t.pageState p = pagePublished)
          ∧ Registers.Raised causeJournal s.regs t.regs
          ∧ Memory.SameBut (fun x => takeBytes k x ∨ journalBytes x) s.mem t.mem) ∧
      (n ∉ s.tickets.recalls →
        (¬free ∨ s.journal.current = none
          ∨ ∃ p, s.journal.current = some p ∧ s.pageLeft p < 236
            ∧ s.pageState (nextPage p) ≠ pageFree ∧ s.pageState (nextPage p) ≠ pageReturned) →
        ∃ t : State, exec (.recallTicket k) s = .next t ∧ AnsweredAs k .journalFull [] s s t) ∧
      (n ∈ s.tickets.recalls →
        ∃ t : State, exec (.recallTicket k) s = .next t ∧ AnsweredAs k .recallBusy [] s s t)) ∧
    (s.store.latch = false → s.copyPlace n = none →
      ∃ t : State, exec (.recallTicket k) s = .next t ∧ AnsweredAs k .notFound [] s s t) ∧
    (s.store.latch = true → ∃ t : State, exec (.recallTicket k) s = .next t ∧ AnsweredAs k .storeFault [] s s t)) ∧
  (∀ (s : State) (k : SlotId), s.Posted k .readAudit → s.badOrderParam k .readAudit = none →
    let first := s.order32 k 0
    let count := (s.order16 k 4).toNat
    ((∃ e ∈ s.audit.entries, e.serial = first) →
      s.journal.blocked = false → s.journal.outbox = [] → s.journal.reservation = none →
      let held := s.audit.entries.dropWhile fun e => e.serial != first
      let copies := held.take count
      let body := u16 copies.length ++ bytes32 ((copies.getLast?.map (·.serial)).getD first)
      ∃ t : State, exec (.readAudit k) s = .next t
        ∧ copies.length = min count held.length
        ∧ copies ≠ []
        ∧ Answered k .done body s t
        ∧ t =
          ((copies.foldl (fun u e => u.record (auditRecord e true)) (s.beginOrder k .readAudit)).answer k .done
            body).setPosition k
        ∧ t = { s with mem := t.mem, intake := t.intake, regs := t.regs, journal := t.journal }
        ∧ Registers.Raised (causeAnswer ||| causeJournal) s.regs t.regs
        ∧ Memory.SameBut (fun x => answerBytes k x ∨ journalBytes x) s.mem t.mem) ∧
    ((∃ e ∈ s.audit.entries, e.serial = first) →
      s.journal.blocked = true ∨ s.journal.outbox ≠ [] ∨ s.journal.reservation ≠ none →
      ∃ t : State, exec (.readAudit k) s = .next t ∧ AnsweredAs k .journalFull [] s s t) ∧
    ((∀ e ∈ s.audit.entries, e.serial ≠ first) →
      ∃ t : State, exec (.readAudit k) s = .next t ∧ AnsweredAs k .notFound [] s s t)) ∧
  ∀ (s : State) (kind : AuditKind) (detail : List Byte),
    let e : AuditEntry :=
      { serial := nextSerial s.audit.last
        epoch := s.store.counters.epoch
        time := s.time.time
        clockSet := s.time.isSet
        kind := kind
        detail := detail }
    let joined : State :=
      { s with audit := { s.audit with entries := joinEntries s.audit.entries e, last := nextSerial s.audit.last } }
    let t := s.writeAudit kind detail
    Audited kind detail s t
      ∧ t.journal = (joined.record (auditRecord e false)).journal
      ∧ t.mem = (joined.record (auditRecord e false)).mem
      ∧ t.regs = (joined.record (auditRecord e false)).regs

/-! Captures, visits and tickets. -/

/-- The part refuses a capture while one is in flight or a session is COMMITTING, while one is OPEN, under the
store-fault latch, and while the clock is unset, in that order; a first weighing also for a vehicle the table holds
and for a full table, a second one for a vehicle with no HELD entry. Otherwise the capture begins: both heads RED at
once, the order in flight, and, where the platform is not ready at the take, one examination counted off the time
limit. -/
def Obligations.WeighOrdersBeginACapture : Prop :=
  (∀ s : State,
    (s.capture ≠ none ∨ s.session.state = .committing → s.captureRefusal = some .platformBusy) ∧
    (s.capture = none → s.session.state = .opened → s.captureRefusal = some .sessionOpen) ∧
    (s.capture = none → s.session.state = .closed → s.store.latch = true → s.captureRefusal = some .storeFault) ∧
    (s.capture = none → s.session.state = .closed → s.store.latch = false → s.time.isSet = false →
      s.captureRefusal = some .clockUnset) ∧
    (s.capture = none → s.session.state = .closed → s.store.latch = false → s.time.isSet = true →
      s.captureRefusal = none)) ∧
  (∀ (s : State) (k : SlotId) (code : AnswerCode), s.Posted k .firstWeigh → s.badOrderParam k .firstWeigh = none →
    s.captureRefusal = some code →
    ∃ t : State, exec (.firstWeigh k) s = .next t ∧ AnsweredAs k code [] s s t) ∧
  (∀ (s : State) (k : SlotId) (code : AnswerCode), s.Posted k .secondWeigh → s.badOrderParam k .secondWeigh = none →
    s.captureRefusal = some code →
    ∃ t : State, exec (.secondWeigh k) s = .next t ∧ AnsweredAs k code [] s s t) ∧
  (∀ (s : State) (k : SlotId), s.Posted k .firstWeigh → s.badOrderParam k .firstWeigh = none →
    s.captureRefusal = none →
    (∀ i v, s.placeOfVehicle (s.orderVehicle k) = some i → s.place i = some v →
      ∃ t : State, exec (.firstWeigh k) s = .next t ∧ AnsweredAs k .visitExists (bytes32 v.entry.number) s s t) ∧
    (s.placeOfVehicle (s.orderVehicle k) = none → s.freePlace = none →
      ∃ t : State, exec (.firstWeigh k) s = .next t ∧ AnsweredAs k .visitTableFull [] s s t) ∧
    (s.placeOfVehicle (s.orderVehicle k) = none → s.freePlace ≠ none → s.firstUnmet ≠ none →
      0 < s.site.captureTimeout →
      ∃ t : State, exec (.firstWeigh k) s = .next t
        ∧ InFlight k .firstWeigh s t
        ∧ t = { s with
          capture :=
            some
              { storing := false
                first := true
                slot := k
                vehicle := s.orderVehicle k
                lot := s.order32 k 12
                bind := s.order16 k 16 == 1
                remaining := s.site.captureTimeout * 200 - 1
                value := none
                time := none
                epoch := none
                e := none
                visit := none
                bound := none
                reserved := false
                takenAt := s.link.cadence
                missed := none }
          lane := s.lane.mark .capture
          visits := { s.visits with mark := none }
          mem := t.mem
          intake := t.intake }
        ∧ (s.lane.redWhileMarked → t.lineARed = true ∧ t.lineBRed = true)
        ∧ Memory.SameBut (takeBytes k) s.mem t.mem)) ∧
  ∀ (s : State) (k : SlotId), s.Posted k .secondWeigh → s.badOrderParam k .secondWeigh = none →
    s.captureRefusal = none →
    (s.heldPlace (s.orderVehicle k) = none →
      ∃ t : State, exec (.secondWeigh k) s = .next t ∧ AnsweredAs k .noVisit [] s s t) ∧
    ∀ i v, s.heldPlace (s.orderVehicle k) = some i → s.place i = some v → s.firstUnmet ≠ none →
      0 < s.site.captureTimeout →
      ∃ t : State, exec (.secondWeigh k) s = .next t
        ∧ InFlight k .secondWeigh s t
        ∧ t = { s with
          capture :=
            some
              { storing := false
                first := false
                slot := k
                vehicle := s.orderVehicle k
                lot := 0
                bind := false
                remaining := s.site.captureTimeout * 200 - 1
                value := none
                time := none
                epoch := none
                e := none
                visit := some v.entry.number
                bound := none
                reserved := false
                takenAt := s.link.cadence
                missed := none }
          lane := s.lane.mark .capture
          visits := { s.visits with mark := some v.entry.number }
          mem := t.mem
          intake := t.intake }
        ∧ (s.lane.redWhileMarked → t.lineARed = true ∧ t.lineBRed = true)
        ∧ Memory.SameBut (takeBytes k) s.mem t.mem

/-- A weighing of a ready platform takes the platform's legal value at once. Below 20 e it is answered BELOW_MIN; with
no room reserved for its record, JOURNAL_FULL; a second one at the end of the ticket numbers, TICKET_RANGE. With room, on
the current page or on the one that follows where that is FREE or RETURNED, it enters the store phase: a first weighing
has the next visit number and its ADDING entry, with the traverse bound that it asks for and the tracker grants; a second
one has the entry CLOSING, the next ticket formed from both weighings and the place chosen for it REPLACING, each with its
store job requested. A ticket has the greater weight as gross, the second one where both are equal, the other as tare,
their difference as net, the times and epochs of both weighings, the interval of the second, CROSS_EPOCH where the epochs
differ and AXLE_INDICATIVE where it has a summary that is not CONFIRMED. A value taken at a later examination passes the
same checks, that of the store-fault latch among them. -/
def Obligations.ReadyWeighingsAreStored : Prop :=
  (∀ (s : State) (k : SlotId), s.Posted k .firstWeigh → s.badOrderParam k .firstWeigh = none →
    s.captureRefusal = none → s.placeOfVehicle (s.orderVehicle k) = none → s.firstUnmet = none →
    let value := s.monitor.snapshot.legal
    let e := s.metro.active.e
    let free := s.journal.reservation = none ∧ s.journal.blocked = false ∧ s.journal.outbox = [] ∧ s.journal.owed = false
    let ended : State := { s with lane := (s.lane.mark .capture).unmark .capture, visits := { s.visits with mark := none } }
    (s.freePlace ≠ none → value < 20 * e →
      ∃ t : State, exec (.firstWeigh k) s = .next t
        ∧ AnsweredAs k .belowMin (s32 value ++ s32 (20 * e)) s ended t) ∧
    (s.freePlace ≠ none → 20 * e ≤ value →
      (¬free ∨ s.journal.current = none
        ∨ ∃ p, s.journal.current = some p ∧ s.pageLeft p < 48
          ∧ s.pageState (nextPage p) ≠ pageFree ∧ s.pageState (nextPage p) ≠ pageReturned) →
      ∃ t : State, exec (.firstWeigh k) s = .next t ∧ AnsweredAs k .journalFull [] s ended t) ∧
    ∀ (i : Nat) (p : PageId), s.freePlace = some i → 20 * e ≤ value → free → s.journal.current = some p →
      let n := nextSerial s.store.counters.visitCounter
      let bind := s.order16 k 16 == 1
      let bound := if bind then (s.bindTraverse n).2 else none
      let moved := (s.beginOrder k .firstWeigh).publish
      let entry : VisitEntry :=
        { number := n
          vehicle := s.orderVehicle k
          lot := s.order32 k 12
          weight := value
          time := s.time.time
          epoch := s.metro.epoch
          bound := bound
          summary := none }
      let stored := fun (u t : State) =>
        InFlight k .firstWeigh s t
          ∧ Requested .firstWeigh (.counters (.visit n) :: visitRows i entry) s t
          ∧ t = { s with
            capture :=
              some
                { storing := true
                  first := true
                  slot := k
                  vehicle := s.orderVehicle k
                  lot := s.order32 k 12
                  bind := bind
                  remaining := s.site.captureTimeout * 200
                  value := some value
                  time := some s.time.time
                  epoch := some s.metro.epoch
                  e := some e
                  visit := some n
                  bound := bound
                  reserved := true
                  takenAt := s.link.cadence
                  missed := none }
            lane := s.lane.mark .capture
            visits :=
              { s.visits with
                mark := none
                places := s.visits.places.set i (some { entry := entry, status := .adding, kept := none }) }
            tracker := if bind then (s.bindTraverse n).1.tracker else s.tracker
            journal := { u.journal with reservation := some ⟨.weighRecord, 48⟩ }
            regs := u.regs
            mem := t.mem
            intake := t.intake
            store := t.store }
      (48 ≤ s.pageLeft p →
        ∃ t : State, exec (.firstWeigh k) s = .next t ∧ stored s t ∧ Memory.SameBut (takeBytes k) s.mem t.mem) ∧
      (s.pageLeft p < 48 → s.pageState (nextPage p) = pageFree ∨ s.pageState (nextPage p) = pageReturned →
        ∃ t : State, exec (.firstWeigh k) s = .next t ∧ stored moved t
          ∧ Memory.SameBut (bytesFrom hdrSweep 2) moved.mem t.mem
          ∧ (p ≠ nextPage s.journal.nextFill → t.pageState p = pagePublished)
          ∧ Registers.Raised causeJournal s.regs t.regs
          ∧ Memory.SameBut (fun x => takeBytes k x ∨ journalBytes x) s.mem t.mem)) ∧
  (∀ (s : State) (k : SlotId) (j i : Nat) (w v : Visit), s.Posted k .secondWeigh →
    s.badOrderParam k .secondWeigh = none → s.captureRefusal = none → s.firstUnmet = none →
    s.heldPlace (s.orderVehicle k) = some j → s.place j = some w →
    s.placeOf w.entry.number = some i → s.place i = some v →
    let value := s.monitor.snapshot.legal
    let e := s.metro.active.e
    let free := s.journal.reservation = none ∧ s.journal.blocked = false ∧ s.journal.outbox = [] ∧ s.journal.owed = false
    let ended : State := { s with lane := (s.lane.mark .capture).unmark .capture, visits := { s.visits with mark := none } }
    let moved := (s.beginOrder k .secondWeigh).publish
    let follows := fun p : PageId => s.pageState (nextPage p) = pageFree ∨ s.pageState (nextPage p) = pageReturned
    let place := choosePlace s.tickets.places
    let ticket :=
      formTicket (s.store.counters.lastTicket + 1) v.entry value s.time.time s.metro.epoch e
    let stored := fun (u t : State) =>
      InFlight k .secondWeigh s t
        ∧ Requested .ticket (ticketRows place ⟨ticket, 0⟩ i) s t
        ∧ t = { s with
          capture := t.capture
          lane := s.lane.mark .capture
          visits :=
            { s.visits with
              mark := some w.entry.number
              places := s.visits.places.set i (some { v with status := .closing }) }
          tickets :=
            { s.tickets with
              places := s.tickets.places.set place .replacing
              job := some (ticket, place) }
          journal := { u.journal with reservation := some ⟨.ticket, 228⟩ }
          regs := u.regs
          mem := t.mem
          intake := t.intake
          store := t.store }
        ∧ ∃ c, t.capture = some c ∧ c.storing = true ∧ c.slot = k ∧ c.value = some value ∧ c.visit = some w.entry.number
    (value < 20 * e →
      ∃ t : State, exec (.secondWeigh k) s = .next t
        ∧ AnsweredAs k .belowMin (s32 value ++ s32 (20 * e)) s ended t) ∧
    (20 * e ≤ value →
      (¬free ∨ s.journal.current = none ∨ ∃ p, s.journal.current = some p ∧ s.pageLeft p < 228 ∧ ¬follows p) →
      ∃ t : State, exec (.secondWeigh k) s = .next t ∧ AnsweredAs k .journalFull [] s ended t) ∧
    ∀ p : PageId, 20 * e ≤ value → free → s.journal.current = some p → 228 ≤ s.pageLeft p ∨ follows p →
      (s.store.counters.lastTicket = 0xFFFFFFFF →
        ∃ t : State, exec (.secondWeigh k) s = .next t
          ∧ Answered k .ticketRange [] s t
          ∧ t = { ended with mem := t.mem, intake := t.intake, regs := t.regs, journal := t.journal }
          ∧ t.journal.reservation = none
          ∧ (228 ≤ s.pageLeft p → s.journal.due = false →
            AnsweredAs k .ticketRange [] s ended t)
          ∧ Registers.Raised (causeAnswer ||| causeJournal) s.regs t.regs
          ∧ Memory.SameBut (fun x => answerBytes k x ∨ journalBytes x) s.mem t.mem) ∧
      (s.store.counters.lastTicket ≠ 0xFFFFFFFF →
        ticket.net = max value v.entry.weight - min value v.entry.weight ∧
        (228 ≤ s.pageLeft p →
          ∃ t : State, exec (.secondWeigh k) s = .next t ∧ stored s t ∧ Memory.SameBut (takeBytes k) s.mem t.mem) ∧
        (s.pageLeft p < 228 →
          ∃ t : State, exec (.secondWeigh k) s = .next t ∧ stored moved t
            ∧ Memory.SameBut (bytesFrom hdrSweep 2) moved.mem t.mem
            ∧ (p ≠ nextPage s.journal.nextFill → t.pageState p = pagePublished)
            ∧ Registers.Raised causeJournal s.regs t.regs
            ∧ Memory.SameBut (fun x => takeBytes k x ∨ journalBytes x) s.mem t.mem))) ∧
  (∀ (number : W32) (v : VisitEntry) (weight2 : Int) (time2 epoch2 : W32) (interval : Int),
    let x := formTicket number v weight2 time2 epoch2 interval
    x = { x with
        number := number
        visit := v
        weight2 := weight2
        time2 := time2
        epoch2 := epoch2
        e := interval
        net := x.gross - x.tare } ∧
    (weight2 < v.weight → x.gross = v.weight ∧ x.tare = weight2 ∧ x.grossSecond = false) ∧
    (v.weight ≤ weight2 → x.gross = weight2 ∧ x.tare = v.weight ∧ x.grossSecond = true) ∧
    (x.crossEpoch = true ↔ v.epoch ≠ epoch2) ∧
    (x.axleIndicative = true ↔ ∃ m, v.summary = some m ∧ m.quality ≠ .confirmed)) ∧
  (∀ (places : List TicketPlace) (i : Nat), places.length = 16 →
    (places[i]? = some .empty → (∀ j, j < i → places[j]? ≠ some .empty) → choosePlace places = i) ∧
    ∀ c : TicketCopy, .empty ∉ places → places[i]? = some (.held c) →
      (∀ j d, j ≠ i → places[j]? = some (.held d) → c.ticket.number < d.ticket.number) → choosePlace places = i) ∧
  (∀ (s : State) (n : W32),
    (∀ tr : Traverse, s.tracker.traverse = some tr → tr.closing = none → tr.binding = none →
      s.bindTraverse n =
        ({ s with tracker := { s.tracker with traverse := some { tr with binding := some n } } }, some tr.number)) ∧
    ((∀ tr : Traverse, s.tracker.traverse = some tr → tr.closing ≠ none ∨ tr.binding ≠ none) →
      s.bindTraverse n = (s, none))) ∧
  (∀ (s : State) (kind : RecordKind) (n : Nat),
    (kind = .weighRecord ∧ n = 48) ∨ (kind = .ticket ∧ n = 228) ∨ (kind = .duplicate ∧ n = 236) →
    let free := s.journal.reservation = none ∧ s.journal.blocked = false ∧ s.journal.outbox = [] ∧ s.journal.owed = false
    let held := fun u : State => { u with journal := { u.journal with reservation := some ⟨kind, n⟩ } }
    (¬free ∨ s.journal.current = none → s.reserve kind = none) ∧
    ∀ p : PageId, free → s.journal.current = some p →
      let follows := s.pageState (nextPage p) = pageFree ∨ s.pageState (nextPage p) = pageReturned
      (n ≤ s.pageLeft p → s.reserve kind = some (held s)) ∧
      (s.pageLeft p < n → follows → s.reserve kind = some (held s.publish)) ∧
      (s.pageLeft p < n → ¬follows → s.reserve kind = none)) ∧
  ∀ (s : State) (c : Capture),
    let value := s.monitor.snapshot.legal
    let e := s.metro.active.e
    let taken : Capture :=
      { c with value := some value, time := some s.time.time, epoch := some s.metro.epoch, e := some e }
    let room := s.reserve (if c.first then .weighRecord else .ticket)
    (value < 20 * e → s.takeValue c = s.endCapture c.slot .belowMin (s32 value ++ s32 (20 * e))) ∧
    (20 * e ≤ value → s.store.latch = true → s.takeValue c = s.endCapture c.slot .storeFault []) ∧
    (20 * e ≤ value → s.store.latch = false →
      (room = none → s.takeValue c = s.endCapture c.slot .journalFull []) ∧
      ∀ t, room = some t →
        (c.first = true → s.takeValue c = t.storeFirst taken value) ∧
        (c.first = false → s.takeValue c = t.storeSecond taken value))

/-- CAPTURE_DEADLINE answers a capture whose time has run out with the code of the condition it missed, and the
capture is over: no record, no mark, no CAPTURE cause. It goes on with the cadence event that has stopped at it
(assumption 4). A withdrawal handed to the capture unit in the wait phase ends the capture in the same way with
WITHDRAWN. -/
def Obligations.CapturesEndWithoutAWeighing : Prop :=
  (∀ (s : State) (rest : List Piece), s.mem.wf = true → s.StoppedAt .deadline rest →
    ∃ (c : Capture) (u : Unmet) (t : State), s.capture = some c ∧ c.missed = some u
      ∧ exec .captureDeadline s = .next (t.run true rest)
      ∧ AnswerWritten c.slot u.answerCode
        (bytes16 s.monitor.snapshot.flags.word ++ s32 s.monitor.snapshot.legal
          ++ u16 (bit s.tracker.report.contained)) s t
      ∧ t = { s with
        unfinished := []
        capture := none
        visits := { s.visits with mark := none }
        lane := s.lane.unmark .capture
        mem := t.mem
        intake := t.intake
        regs := { s.regs with cause := s.regs.cause ||| causeAnswer } }
      ∧ Memory.SameBut (slotAnswerBytes c.slot) s.mem t.mem) ∧
  (Unmet.tradeReady.answerCode = .notReady ∧ Unmet.contained.answerCode = .notContained
    ∧ Unmet.still.answerCode = .notStill) ∧
  (∀ s : State, s.NotStoppedAt .deadline → exec .captureDeadline s = .next s) ∧
  ∀ (s : State) (c : Capture) (f : Flight), s.mem.wf = true → s.capture = some c → c.storing = false →
    s.flightOf c.slot = some f → f.owner = .captureUnit →
    let t := s.handWithdrawal c.slot
    AnswerWritten c.slot .withdrawn [] s t
      ∧ t = { s with
        capture := none
        visits := { s.visits with mark := none }
        lane := s.lane.unmark .capture
        mem := t.mem
        intake := t.intake
        regs := { s.regs with cause := s.regs.cause ||| causeAnswer } }
      ∧ Memory.SameBut (slotAnswerBytes c.slot) s.mem t.mem

/-- A weighing completes with the last row of its job: the first one's entry is HELD and answered with its number,
weight, time, epoch and bound traverse, and takes a summary kept for it, whose rows are requested unless the latch is set;
the second one's ticket is committed, its number shown, its copy HELD and its
visit removed, and it is answered with the ticket. In the same step the reserved record is placed and its page
published, and the capture is over. A VOID_VISIT completes with its entry removed, a VISIT_VOIDED record and its number
as the answer; a RECALL_TICKET with the raised copy and its DUPLICATE record in the place reserved. -/
def Obligations.WeighingsComplete : Prop :=
  (∀ (s : State) (left : Residue) (w : RowWrite) (jobs : List Job) (c : Capture) (n : W32) (i : Nat) (v : Visit),
    s.mem.wf = true → s.Ready → s.journal.holding = false → s.store.waiting = [] →
    s.store.queue = ⟨.firstWeigh, [w]⟩ :: jobs →
    s.capture = some c → c.visit = some n → s.placeOf n = some i → s.place i = some v →
    let e := v.entry
    let record := weighRecord e (c.e.getD 0)
    let body := bytes32 e.number ++ s32 e.weight ++ bytes32 e.time ++ bytes32 e.epoch ++ bytes32 (orZero e.bound)
    let held : State :=
      { s with
        store := { (s.writeRow w).store with queue := jobs, retry := false }
        visits := { s.visits with places := s.visits.places.set i (some { v with status := .held, kept := none }) } }
    let answered := (held.showVisitCount.placeReserved record).endCapture c.slot .done body
    ∃ t : State, exec (.storeRowWritten true left) s = .next t
      ∧ AnswerWritten c.slot .done body s t
      ∧ t = { answered with visits := t.visits, store := t.store }
      ∧ t = { s with
        visits := t.visits
        store := t.store
        capture := none
        lane := s.lane.unmark .capture
        mem := t.mem
        intake := t.intake
        regs := t.regs
        journal := t.journal }
      ∧ (v.kept = none → t.visits = { held.visits with mark := none } ∧ t.store = held.store)
      ∧ (∀ m : Summary, v.kept = some m →
        let written : VisitEntry := { e with summary := some m }
        t.visits =
            { s.visits with
              mark := none
              places := s.visits.places.set i (some { v with entry := written, status := .held, kept := none }) } ∧
          (s.store.latch = true → t.store = held.store) ∧
          (s.store.latch = false →
            t.store = { held.store with waiting := [⟨.summary e.number, visitRows i written⟩] }))
      ∧ t.mem.read16 hdrVisits = BitVec.ofNat 16 t.visitCount
      ∧ t.journal.reservation = none
      ∧ (∀ p, s.journal.current = some p → s.journal.nextFill = p → s.journal.outbox = [] → s.journal.owed = false →
        s.pageUsed p + record.length ≤ 240 →
        t.pageState p = pagePublished
          ∧ t.mem.readBytes (pageBody p + s.pageUsed p) record.length = record.bytes s.journal.nextSerial
          ∧ t.mem.read16 hdrLastPage = BitVec.ofNat 16 p.val
          ∧ t.mem.read32 hdrLastSequence = s.journal.nextSequence)
      ∧ Registers.Raised (causeAnswer ||| causeJournal) s.regs t.regs
      ∧ Memory.SameBut (fun x => slotAnswerBytes c.slot x ∨ journalBytes x ∨ bytesFrom hdrVisits 2 x) s.mem t.mem) ∧
  (∀ (s : State) (left : Residue) (w : RowWrite) (jobs : List Job) (c : Capture) (ticket : Ticket) (i j : Nat),
    s.mem.wf = true → s.Ready → s.journal.holding = false → s.store.waiting = [] →
    s.store.queue = ⟨.ticket, [w]⟩ :: jobs →
    s.capture = some c → s.tickets.job = some (ticket, i) → s.placeOf ticket.visit.number = some j →
    let record := ticket.record
    ∃ t u : State, exec (.storeRowWritten true left) s = .next t
      ∧ u = { s with
        store := { (s.writeRow w).store with queue := jobs, retry := false }
        tickets := { s.tickets with places := s.tickets.places.set i (.held ⟨ticket, 0⟩), job := none }
        visits := { s.visits with places := s.visits.places.set j none }
        mem := u.mem }
      ∧ Memory.SameBut (fun x => bytesFrom hdrTicket 4 x ∨ bytesFrom hdrVisits 2 x) s.mem u.mem
      ∧ t = (u.placeReserved record).endCapture c.slot .done ticket.answerBody
      ∧ AnswerWritten c.slot .done ticket.answerBody s t
      ∧ t = { u with
        visits := { u.visits with mark := none }
        capture := none
        lane := s.lane.unmark .capture
        mem := t.mem
        intake := t.intake
        regs := t.regs
        journal := t.journal }
      ∧ t.mem.read32 hdrTicket = ticket.number
      ∧ t.mem.read16 hdrVisits = BitVec.ofNat 16 t.visitCount
      ∧ t.journal.reservation = none
      ∧ (∀ p, s.journal.current = some p → s.journal.nextFill = p → s.journal.outbox = [] → s.journal.owed = false →
        s.pageUsed p + record.length ≤ 240 →
        t.pageState p = pagePublished
          ∧ t.mem.readBytes (pageBody p + s.pageUsed p) record.length = record.bytes s.journal.nextSerial
          ∧ t.mem.read16 hdrLastPage = BitVec.ofNat 16 p.val
          ∧ t.mem.read32 hdrLastSequence = s.journal.nextSequence)
      ∧ Registers.Raised (causeAnswer ||| causeJournal) s.regs t.regs
      ∧ Memory.SameBut
        (fun x => slotAnswerBytes c.slot x ∨ journalBytes x ∨ bytesFrom hdrTicket 4 x ∨ bytesFrom hdrVisits 2 x)
        s.mem t.mem) ∧
  (∀ (s : State) (left : Residue) (w : RowWrite) (jobs : List Job) (k : SlotId) (n : W32) (i : Nat) (v : Visit),
    s.mem.wf = true → s.Ready → s.store.waiting = [] → s.store.queue = ⟨.voidVisit k n, [w]⟩ :: jobs →
    s.placeOf n = some i → s.place i = some v →
    let removed :=
      ({ s with
          store := { (s.writeRow w).store with queue := jobs, retry := false }
          visits := { s.visits with places := s.visits.places.set i none } } : State).showVisitCount
    ∃ t : State, exec (.storeRowWritten true left) s = .next t
      ∧ AnswerWritten k .done (bytes32 n) s t
      ∧ t = (removed.record (s.voidedRecord v.entry)).answer k .done (bytes32 n)
      ∧ t.mem.read16 hdrVisits = BitVec.ofNat 16 t.visitCount
      ∧ t = { removed with mem := t.mem, intake := t.intake, regs := t.regs, journal := t.journal }
      ∧ Registers.Raised (causeAnswer ||| causeJournal) s.regs t.regs
      ∧ Memory.SameBut (fun x => slotAnswerBytes k x ∨ journalBytes x ∨ bytesFrom hdrVisits 2 x) s.mem t.mem) ∧
  ∀ (s : State) (left : Residue) (w : RowWrite) (jobs : List Job) (k : SlotId) (i : Nat) (c : TicketCopy),
    s.mem.wf = true → s.Ready → s.journal.holding = false → s.store.waiting = [] →
    s.store.queue = ⟨.recall k i c, [w]⟩ :: jobs →
    let n := c.ticket.number
    let body := bytes32 n ++ u16 c.recalls
    let raised : State :=
      { s with
        store := { (s.writeRow w).store with queue := jobs, retry := false }
        tickets :=
          { s.tickets with
            recalls := s.tickets.recalls.filter fun m => m != n
            places :=
              if (s.ticketPlace i).number = some n then s.tickets.places.set i (.held c) else s.tickets.places } }
    ∃ t : State, exec (.storeRowWritten true left) s = .next t
      ∧ AnswerWritten k .done body s t
      ∧ t = (raised.placeReserved (s.duplicateRecord c)).answer k .done body
      ∧ t.journal.reservation = none
      ∧ t = { raised with mem := t.mem, intake := t.intake, regs := t.regs, journal := t.journal }
      ∧ Registers.Raised (causeAnswer ||| causeJournal) s.regs t.regs
      ∧ Memory.SameBut (fun x => slotAnswerBytes k x ∨ journalBytes x) s.mem t.mem


/-! The calibration session. -/

/-- OPEN_SESSION, refused for a SEALED seal, a capture in flight, a session that is not CLOSED and the store-fault
latch, in that order, opens the session: the staged set is the active one at revision 0 with no tests, OPEN is shown,
every enabled deck has IN_TEST, both heads are RED, SESSION_OPENED is audited with the CRC-32 of the active image, and
the row with the session-open flag is requested. SEAL_CLOSED also while a session is COMMITTING under a SEALED seal
(assumption 47), and the CRC-32 of a set that stands in (assumption 33), are the model's choices. -/
def Obligations.OpenSessionOpens : Prop :=
  ∀ (s : State) (k : SlotId), s.Posted k .openSession →
    let refused := if s.session.state = .opened then idleReset s else s
    (s.sealLine.state = .sealed →
      ∃ t : State, exec (.openSession k) s = .next t ∧ AnsweredAs k .sealClosed [] s refused t) ∧
    (s.sealLine.state = .opened → s.capture ≠ none →
      ∃ t : State, exec (.openSession k) s = .next t ∧ AnsweredAs k .platformBusy [] s refused t) ∧
    (s.sealLine.state = .opened → s.capture = none → s.session.state ≠ .closed →
      ∃ t : State, exec (.openSession k) s = .next t ∧ AnsweredAs k .sessionOpen [] s refused t) ∧
    (s.sealLine.state = .opened → s.capture = none → s.session.state = .closed → s.store.latch = true →
      ∃ t : State, exec (.openSession k) s = .next t ∧ AnsweredAs k .storeFault [] s s t) ∧
    (s.sealLine.state = .opened → s.capture = none → s.session.state = .closed → s.store.latch = false →
      ∃ t : State, exec (.openSession k) s = .next t
        ∧ InFlight k .openSession s t
        ∧ t = { s with
          session :=
            { state := .opened
              staged := some s.metro.active
              revision := 0
              tests := []
              provisional := []
              idle := 0
              commit := none
              opens := s.session.opens + 1
              stored := false }
          lane := s.lane.mark .session
          monitor := { s.monitor with decks := t.monitor.decks }
          mem := t.mem
          intake := t.intake
          regs := t.regs
          journal := t.journal
          audit := t.audit
          store := { s.store with waiting := t.store.waiting } }
        ∧ (∀ d, t.monitor.decks.get d =
          { s.monitor.decks.get d with
            flags := { s.flagsOf d with inTest := s.metro.active.isEnabled d || (s.flagsOf d).inTest } })
        ∧ t.mem.read16 hdrSession = BitVec.ofNat 16 SessionState.opened.code
        ∧ Audited .sessionOpened (bytes32 (⟨s.metro.active, s.metro.epoch⟩ : MetroImage).crc) s t
        ∧ t.store.waiting.getLast? = some ⟨.openSession k (s.session.opens + 1), [.counters (.session true)]⟩
        ∧ Registers.Raised causeJournal s.regs t.regs
        ∧ Memory.SameBut (fun x => takeBytes k x ∨ journalBytes x ∨ bytesFrom hdrSession 2 x) s.mem t.mem)

/-- STAGE_PARAMS in an OPEN session judges the entry count, then every entry, then the constraints on the copy with
the entries applied: the first failure is answered BAD_PARAM with the entry at fault and leaves the staged set and the
revision; otherwise the copy is staged and the revision rises, from 65,535 to 1. In any other state it is answered
SESSION_CLOSED. An entry has a known id, an index in its range and a value in its range, by the table of R166; its value
is read as signed for ids 2, 9 and 13. The constraints are judged in their order and decks in ascending order: a deck is
enabled, the counted x ascend strictly from 0 to at most Max_d, each counted |y| × 100 and each |Z_cal_d| × 10 is at most
Max_d; a field takes part in those of its deck that read it. -/
def Obligations.StageParamsJudgesAndStages : Prop :=
  (∀ (s : State) (k : SlotId), s.Posted k .stageParams → s.intake.claim = none →
    let n := (s.staging16 0).toNat
    let entries := (List.range n).map s.imageEntry
    (s.session.state ≠ .opened →
      ∃ t : State, exec (.stageParams k) s = .next t ∧ AnsweredAs k .sessionClosed [] s s t) ∧
    ∀ m : MetroSet, s.session.state = .opened → s.session.staged = some m →
      let copy := applyParams m entries
      let revision := if s.session.revision = 65535 then 1 else s.session.revision + 1
      (n < 1 ∨ 128 < n →
        ∃ t : State, exec (.stageParams k) s = .next t ∧ AnsweredAs k .badParam (u16 65535) s (idleReset s) t) ∧
      (∀ i : Nat, 1 ≤ n → n ≤ 128 → i < n → (s.imageEntry i).ok = false → (∀ j, j < i → (s.imageEntry j).ok = true) →
        ∃ t : State, exec (.stageParams k) s = .next t ∧ AnsweredAs k .badParam (u16 i) s (idleReset s) t) ∧
      (∀ (c : Nat) (d : DeckId) (i : Nat), 1 ≤ n → n ≤ 128 → (∀ i, i < n → (s.imageEntry i).ok = true) →
        copy.firstFailure = some (c, d) → i < n →
        takesPart copy (s.imageEntry i).id (s.imageEntry i).index c d = true →
        (∀ j, j < i → takesPart copy (s.imageEntry j).id (s.imageEntry j).index c d = false) →
        ∃ t : State, exec (.stageParams k) s = .next t ∧ AnsweredAs k .badParam (u16 i) s (idleReset s) t) ∧
      (1 ≤ n → n ≤ 128 → (∀ i, i < n → (s.imageEntry i).ok = true) → copy.firstFailure = none →
        ∃ t : State, exec (.stageParams k) s = .next t
          ∧ AnsweredAs k .done (u16 revision) s
            { s with
              session :=
                { s.session with
                  idle := 0
                  staged := some copy
                  revision := revision
                  provisional := refreshProvisional s.session.provisional m copy s.metro.active } } t)) ∧
  (∀ p : ParamEntry,
    let v := p.value
    let among := fun (id count : Nat) (low high : Int) => p.id = id ∧ p.index < count ∧ low ≤ v ∧ v ≤ high
    p.ok = true ↔
      among 1 24 0 4 ∨ among 2 24 (-8388608) 8388607 ∨ among 3 24 32768 98304 ∨ among 4 4 0 1
        ∨ among 5 4 1 4294967295 ∨ among 6 4 1000000 200000000 ∨ among 7 4 0 4 ∨ among 8 16 1 200000000
        ∨ among 9 16 (-2000000) 2000000 ∨ (among 10 4 1 128 ∧ v ∈ [(1 : Int), 2, 4, 8, 16, 32, 64, 128])
        ∨ among 11 4 20 400 ∨ among 12 4 0 1 ∨ among 13 4 (-20000000) 20000000
        ∨ (among 14 1 5000 100000 ∧ v ∈ [(5000 : Int), 10000, 20000, 50000, 100000])) ∧
  (∀ (s : State) (k : Nat),
    let e := s.imageEntry k
    let base := stagingBase + (4 + 8 * k)
    let raw := s.mem.read32 (base + 4)
    e.id = (s.mem.read16 base).toNat ∧ e.index = (s.mem.read16 (base + 2)).toNat ∧
    (e.id = 2 ∨ e.id = 9 ∨ e.id = 13 → e.value = raw.toInt) ∧
    (e.id ≠ 2 → e.id ≠ 9 → e.id ≠ 13 → e.value = (raw.toNat : Int))) ∧
  (∀ (m : MetroSet) (d : DeckId) (j : Nat), (j : Int) < m.get 7 d.val →
    (m.pointsOf d)[j]? = some (m.get 8 (d.val * 4 + j), m.get 9 (d.val * 4 + j))) ∧
  (∀ (m : MetroSet) (d : DeckId), (m.pointsOf d).length = (m.get 7 d.val).toNat) ∧
  (∀ m : MetroSet,
    let anyEnabled := ∃ d, m.isEnabled d = true
    let right := fun (c : Nat) (d : DeckId) =>
      let points := m.pointsOf d
      if c = 2 then
        ((0, 0) :: points).Pairwise (fun a b => a.1 < b.1) ∧ ∀ p, ((0, 0) :: points).getLast? = some p → p.1 ≤ m.maxOf d
      else if c = 3 then ∀ p ∈ points, (p.2.natAbs : Int) * 100 ≤ m.maxOf d
      else ((m.zcalOf d).natAbs : Int) * 10 ≤ m.maxOf d
    (m.firstFailure = none ↔ anyEnabled ∧ ∀ d, right 2 d ∧ right 3 d ∧ right 4 d) ∧
    (m.firstFailure = some (1, 0) ↔ ¬anyEnabled) ∧
    ∀ (c : Nat) (d : DeckId), c ≠ 1 →
      (m.firstFailure = some (c, d) ↔
        anyEnabled ∧ (2 ≤ c ∧ c ≤ 4) ∧ ¬right c d
          ∧ ∀ (n : Nat) (e : DeckId), 2 ≤ n → n < c ∨ (n = c ∧ e < d) → right n e)) ∧
  ∀ (m : MetroSet) (id index : Nat) (d : DeckId),
    let counted := ∃ j : Nat, j < 4 ∧ (j : Int) < m.get 7 d.val ∧ index = d.val * 4 + j
    let onDeck := index = d.val
    (takesPart m id index 1 d = true ↔ id = 4) ∧
    (takesPart m id index 2 d = true ↔ (onDeck ∧ (id = 6 ∨ id = 7)) ∨ (counted ∧ id = 8)) ∧
    (takesPart m id index 3 d = true ↔ (onDeck ∧ (id = 6 ∨ id = 7)) ∨ (counted ∧ id = 9)) ∧
    (takesPart m id index 4 d = true ↔ onDeck ∧ (id = 6 ∨ id = 13))

/-- The four measurements of an OPEN session with a staged set: each is judged by R168 first, an evaluation that
saturates a cell is answered CELL_SATURATED, and the rest does what its rule gives. Outside OPEN each is answered
SESSION_CLOSED. A deck above 3, which SPAN_CAL can name, is not enabled in the staged set: an OPEN session answers
BAD_PARAM naming the deck parameter (assumption 22). -/
def Obligations.MeasurementsAreJudgedAlike : Prop :=
  ∀ (s : State) (k : SlotId) (kind : OrderKind),
    kind = .zeroCal ∨ kind = .spanCal ∨ kind = .cornerRead ∨ kind = .testLoad →
    s.Posted k kind → s.badOrderParam k kind = none →
    let ds : List DeckId :=
      if kind = .zeroCal ∨ kind = .testLoad then maskDecks (s.order16 k 0)
      else [Fin.ofNat 4 (s.order16 k 0).toNat]
    (s.session.state ≠ .opened →
      ∃ t : State, exec (orderCommand k kind) s = .next t ∧ AnsweredAs k .sessionClosed [] s s t) ∧
    (∀ m : MetroSet, s.session.state = .opened → s.session.staged = some m → kind = .spanCal →
      3 < (s.order16 k 0).toNat →
      ∃ t : State, exec (orderCommand k kind) s = .next t ∧ AnsweredAs k .badParam (u16 0) s (idleReset s) t) ∧
    ∀ m : MetroSet, s.session.state = .opened → s.session.staged = some m →
      (kind = .spanCal → (s.order16 k 0).toNat ≤ 3) →
      ((∃ d ∈ ds, m.isEnabled d = false) →
        ∃ t : State, exec (orderCommand k kind) s = .next t ∧ AnsweredAs k .badParam (u16 0) s (idleReset s) t) ∧
      ((∀ d ∈ ds, m.isEnabled d = true) →
        ∀ d, ds.find? (s.measureNotReady m) = some d →
          ∃ t : State, exec (orderCommand k kind) s = .next t ∧ AnsweredAs k .notReady (u16 d.val) s (idleReset s) t) ∧
      ((∀ d ∈ ds, m.isEnabled d = true) → (∀ d ∈ ds, s.measureNotReady m d = false) →
        ∀ d, ds.find? s.measureNotStill = some d →
          ∃ t : State, exec (orderCommand k kind) s = .next t ∧ AnsweredAs k .notStill (u16 d.val) s (idleReset s) t) ∧
      (s.measureRefusal m ds = none → (kind = .testLoad → s.session.tests.length < 32) →
        (kind = .spanCal → (s.order32 k 2).toInt ≤ m.maxOf (Fin.ofNat 4 (s.order16 k 0).toNat)) →
        ∀ c, evaluateSaturated m (s.meansFor m) ds = some c →
          ∃ t : State, exec (orderCommand k kind) s = .next t
            ∧ AnsweredAs k .cellSaturated (u16 c.val) s (idleReset s) t)

/-- What the measurements do once the checks pass: ZERO_CAL takes the means of the masked decks' cells as their zeros
and sets those decks' zeros to 0, SPAN_CAL makes the mass of its deck, from 0 to 3, equal the reference, both raising
the revision, and answers BAD_PARAM naming the reference where it exceeds the staged Max_d or the deck carries too little
load; CORNER_READ reports and TEST_LOAD appends its entry to the test list. The means they read are the raw means of the
chain, and provisional ones for the cells that the staged set maps to an enabled deck and the active set does not: the
rounded mean of the latest GOOD counts, as many as the staged filter length, emptied by any other status and by a change
of the cell's staged deck or its length. A frame's computation and its counts' entry into the provisional histories are
one work of a cadence event, and a frame's event alone has them, so that a measurement reads one consistent set of means;
that no order comes between the two is the model's choice (assumption 59). -/
def Obligations.MeasurementsDoTheirWork : Prop :=
  (∀ (old : List Provisional) (before after active : MetroSet),
    let fresh := refreshProvisional old before after active
    (fresh.map (·.cell) = allCells.filter fun c => (after.fittedTo c).isSome && (active.fittedTo c).isNone) ∧
    ∀ p ∈ fresh,
      (∀ q, old.find? (fun x => x.cell == p.cell) = some q → before.deckOf p.cell = after.deckOf p.cell →
        stagedLength before p.cell = stagedLength after p.cell → p = q) ∧
      (old.find? (fun x => x.cell == p.cell) = none ∨ before.deckOf p.cell ≠ after.deckOf p.cell
          ∨ stagedLength before p.cell ≠ stagedLength after p.cell → p.history = [] ∧ p.sum = 0)) ∧
  (∀ (m : MetroSet) (c : CellId),
    (∀ d, m.fittedTo c = some d → stagedLength m c = (m.get 10 d.val).toNat) ∧
    (m.fittedTo c = none → stagedLength m c = 0)) ∧
  (∀ (p : Provisional) (m : MetroSet) (count : Int) (status : CellStatus),
    let n := stagedLength m p.cell
    (status ≠ .good → p.take m count status = { p with history := [], sum := 0 }) ∧
    (status = .good → 0 < n → p.history.length ≤ n → p.sum = p.history.sum →
      let latest := (p.history ++ [count]).drop (p.history.length + 1 - n)
      p.take m count status = { p with history := latest, sum := latest.sum }) ∧
    (0 < n → p.history.length = n → p.mean m = some (roundDiv p.sum n)) ∧
    (p.history.length < n → p.mean m = none)) ∧
  (∀ (change : List Piece) (frame : Bool) (w : Work),
    (Piece.provisional ∈ workPieces frame [] w ↔ frame = true ∧ w = .compute) ∧
    (frame = true →
      ∃ before after : List Piece,
        workPieces frame change .compute = before ++ [.computeChain, .provisional] ++ after)) ∧
  (∀ s : State,
    let t := s.doPiece .provisional
    (∀ f m, s.link.lastFrame = some f → s.session.staged = some m →
      t.session.provisional =
        s.session.provisional.map fun p =>
          let w := f.cells.getD p.cell.val (0, .notFitted)
          p.take m w.1 w.2) ∧
    (s.link.lastFrame = none ∨ s.session.staged = none → t.session.provisional = s.session.provisional)) ∧
  (∀ (s : State) (m : MetroSet) (c : CellId),
    (∀ p, s.session.provisional.find? (fun x => x.cell == c) = some p → s.meanOf m c = p.mean m) ∧
    (s.session.provisional.find? (fun x => x.cell == c) = none →
      s.meanOf m c = (s.chain.cells.getD c.val CellChain.start).mean) ∧
    ∀ v, s.meanOf m c = some v → s.meansFor m c = v) ∧
  ∀ (s : State) (k : SlotId) (m : MetroSet), s.session.state = .opened → s.session.staged = some m →
    let means := s.meansFor m
    let revision := if s.session.revision = 65535 then 1 else s.session.revision + 1
    let staged := fun copy : MetroSet =>
      { s with
        session :=
          { s.session with
            idle := 0
            staged := some copy
            revision := revision
            provisional := refreshProvisional s.session.provisional m copy s.metro.active } }
    (s.Posted k .zeroCal → s.badOrderParam k .zeroCal = none →
      let ds := maskDecks (s.order16 k 0)
      s.measureRefusal m ds = none → evaluateSaturated m means ds = none →
      ∃ t : State, exec (.zeroCal k) s = .next t
        ∧ AnsweredAs k .done (u16 revision) s (staged (zeroCalSet m means ds)) t) ∧
    (s.Posted k .spanCal → s.badOrderParam k .spanCal = none → (s.order16 k 0).toNat ≤ 3 →
      let d : DeckId := Fin.ofNat 4 (s.order16 k 0).toNat
      let reference := (s.order32 k 2).toInt
      let total := evaluateSum m means d
      let gain := clamp 1 4294967295 (roundDiv (reference * 65536) total)
      (s.measureRefusal m [d] = none → m.maxOf d < reference →
        ∃ t : State, exec (.spanCal k) s = .next t ∧ AnsweredAs k .badParam (u16 1) s (idleReset s) t) ∧
      (s.measureRefusal m [d] = none → reference ≤ m.maxOf d → evaluateSaturated m means [d] = none →
      (1000 ≤ total →
        ∃ t : State, exec (.spanCal k) s = .next t
          ∧ AnsweredAs k .done (s32 total ++ u32 gain ++ u16 revision) s (staged (m.put 5 d.val gain)) t) ∧
      (total < 1000 →
        ∃ t : State, exec (.spanCal k) s = .next t ∧ AnsweredAs k .badParam (u16 1) s (idleReset s) t))) ∧
    (s.Posted k .cornerRead → s.badOrderParam k .cornerRead = none →
      let d : DeckId := Fin.ofNat 4 (s.order16 k 0).toNat
      let listed := ((m.cellsOf d).filter fun c => decide ((s.order16 k 2).toNat ≤ c.val)).take 10
      s.measureRefusal m [d] = none → evaluateSaturated m means [d] = none →
      ∃ t : State, exec (.cornerRead k) s = .next t
        ∧ AnsweredAs k .done
          (u16 (m.cellsOf d).length ++ u16 s.session.revision
            ++ listed.flatMap fun c => u16 c.val ++ s32 (means c - m.get 2 c.val)) s (idleReset s) t) ∧
    (s.Posted k .testLoad → s.badOrderParam k .testLoad = none →
      let ds := maskDecks (s.order16 k 0)
      s.measureRefusal m ds = none →
      (s.session.tests.length < 32 → evaluateSaturated m means ds = none →
        let reference := (s.order32 k 2).toInt
        let shown := indication m means ds
        let mpe := if reference ≤ 500 * m.e then m.e / 2 else if reference ≤ 2000 * m.e then m.e else 3 * m.e / 2
        let entry : TestEntry :=
          { revision := s.session.revision
            mask := (s.order16 k 0).toNat
            kind := TestKind.ofCode (s.order16 k 6).toNat
            reference := reference
            indication := shown
            error := shown - reference
            mpe := mpe
            passed := decide (((shown - reference).natAbs : Int) ≤ mpe) }
        ∃ t : State, exec (.testLoad k) s = .next t
          ∧ AnsweredAs k .done (u16 s.session.tests.length ++ entry.body) s
            { s with session := { s.session with idle := 0, tests := s.session.tests ++ [entry] } } t) ∧
      (32 ≤ s.session.tests.length →
        ∃ t : State, exec (.testLoad k) s = .next t ∧ AnsweredAs k .listFull [] s (idleReset s) t))

/-- COMMIT_SESSION: SESSION_CLOSED outside OPEN; UNVERIFIED for a failed test at the revision or an untested changed
deck; with no parameter changed the session ends, audited SESSION_CLOSED, and the answer is NO_CHANGE; STORE_FAULT
under the latch; otherwise the session is COMMITTING with its commit record, and the image rows and the counters row of
the next epoch are requested. That UNVERIFIED names the first of several failed tests (assumption 48), and the old
CRC-32 of a set that stands in (assumption 33), are the model's choices. -/
def Obligations.CommitSession : Prop :=
  ∀ (s : State) (k : SlotId), s.Posted k .commitSession →
    (s.session.state ≠ .opened →
      ∃ t : State, exec (.commitSession k) s = .next t ∧ AnsweredAs k .sessionClosed [] s s t) ∧
    ∀ m : MetroSet, s.session.state = .opened → s.session.staged = some m →
      let changed := changedParams m s.metro.active
      let failed := failedTest s.session.revision 0 s.session.tests
      let untested := allDecks.find? fun d =>
        deckChanged m s.metro.active d && m.isEnabled d && !deckTested s.session.revision s.session.tests d
      (∀ i, failed = some i →
        ∃ t : State, exec (.commitSession k) s = .next t
          ∧ AnsweredAs k .unverified (u16 0 ++ u16 i) s (idleReset s) t) ∧
      (∀ d, failed = none → untested = some d →
        ∃ t : State, exec (.commitSession k) s = .next t
          ∧ AnsweredAs k .unverified (u16 1 ++ u16 d.val) s (idleReset s) t) ∧
      (failed = none → untested = none → changed = [] →
        ∃ t : State, exec (.commitSession k) s = .next t
          ∧ Answered k .done (bytes32 s.metro.epoch ++ u16 0 ++ u16 1) s t
          ∧ SessionEnded .sessionClosed s t
          ∧ t = { s with
            session := t.session
            lane := t.lane
            monitor := { s.monitor with decks := t.monitor.decks }
            mem := t.mem
            intake := t.intake
            regs := t.regs
            journal := t.journal
            audit := t.audit
            store := { s.store with waiting := t.store.waiting } }
          ∧ Registers.Raised (causeAnswer ||| causeJournal) s.regs t.regs
          ∧ Memory.SameBut (fun x => answerBytes k x ∨ journalBytes x ∨ bytesFrom hdrSession 2 x) s.mem t.mem) ∧
      (failed = none → untested = none → changed ≠ [] → s.store.latch = true →
        ∃ t : State, exec (.commitSession k) s = .next t ∧ AnsweredAs k .storeFault [] s (idleReset s) t) ∧
      (failed = none → untested = none → changed ≠ [] → s.store.latch = false →
        let epoch := s.metro.epoch + 1
        ∃ t : State, exec (.commitSession k) s = .next t
          ∧ InFlight k .commitSession s t
          ∧ t = { s with
            session :=
              { s.session with
                state := .committing
                idle := 0
                commit :=
                  some
                    { slot := k
                      changedDecks := allDecks.filter (deckChanged m s.metro.active)
                      changedCount := changed.length
                      listed := changed.take 40
                      oldCrc := (⟨s.metro.active, s.metro.epoch⟩ : MetroImage).crc
                      newCrc := (⟨m, epoch⟩ : MetroImage).crc
                      epoch := epoch } }
            mem := t.mem
            intake := t.intake
            store := t.store }
          ∧ Requested (.commit k s.session.opens) (imageRows ⟨m, epoch⟩ ++ [.counters (.commit epoch)]) s t
          ∧ t.mem.read16 hdrSession = BitVec.ofNat 16 SessionState.committing.code
          ∧ Memory.SameBut (fun x => takeBytes k x ∨ bytesFrom hdrSession 2 x) s.mem t.mem)

/-- SESSION_INSTALL: where the commit has been stored and is due, the staged set becomes the active one under the new
epoch, the epoch and CLOSED are shown, the session discards what it held, the SESSION cause ends, and COMMIT_SESSION is
answered with the epoch and the count of changed parameters. A deck enabled before and after starts its filter again;
a deck that was changed or newly enabled takes its new zero, without ZERO_UNSET, its watch ended and its limit mark
cleared; an enabled deck that the commit did not change keeps all of these, and a disabled one takes its zero. It goes on with the cadence event that has stopped at it (assumption 4). The
commit job's completion audits COMMIT with what changed and makes the installation due, and that of the opening job
answers OPEN_SESSION with the active epoch. -/
def Obligations.SessionInstallChangesTheSet : Prop :=
  (∀ (s : State) (rest : List Piece), s.mem.wf = true → s.StoppedAt .install rest →
    ∃ (m : MetroSet) (r : CommitRecord) (t : State), s.session.stored = true ∧ s.session.staged = some m
      ∧ s.session.commit = some r
      ∧ exec .sessionInstall s = .next (t.run true rest)
      ∧ AnswerWritten r.slot .done (bytes32 r.epoch ++ u16 r.changedCount ++ u16 0) s t
      ∧ t = { s with
        unfinished := []
        metro := { active := m, epoch := r.epoch, standIn := false }
        chain := { s.chain with cells := t.chain.cells, decks := t.chain.decks }
        cells := t.cells
        back := { s.back with queue := s.back.queue.filter fun c => (m.fittedTo c).isSome }
        monitor := { s.monitor with decks := t.monitor.decks }
        session :=
          { s.session with
            state := .closed
            staged := none
            revision := 0
            tests := []
            provisional := []
            idle := 0
            commit := none
            stored := false }
        lane := s.lane.unmark .session
        mem := t.mem
        intake := t.intake
        regs := t.regs
        journal := t.journal }
      ∧ (∀ d, m.isEnabled d = true → s.metro.active.isEnabled d = true →
        t.chain.decks.get d = { s.chain.decks.get d with history := [], fill := 0, running := 0 })
      ∧ (∀ d, m.isEnabled d = false ∨ s.metro.active.isEnabled d = false → t.chain.decks.get d = DeckChain.start)
      ∧ (∀ c, (m.fittedTo c = none → t.cell c = Cell.start)
        ∧ (m.fittedTo c ≠ none → (s.cell c).state = .unfitted → t.cell c = { Cell.start with state := .active })
        ∧ (m.fittedTo c ≠ none → (s.cell c).state ≠ .unfitted → t.cell c = s.cell c))
      ∧ (∀ d, m.isEnabled d = true → d ∈ r.changedDecks ∨ s.metro.active.isEnabled d = false →
        let x := t.monitor.decks.get d
        x.zero = m.zcalOf d ∧ x.zeroRef = m.zcalOf d ∧ x.flags.zeroUnset = false ∧ x.watch = .ended
          ∧ x.limitMark = false)
      ∧ (∀ d, m.isEnabled d = true → d ∉ r.changedDecks → s.metro.active.isEnabled d = true →
        let x := t.monitor.decks.get d
        let y := s.monitor.decks.get d
        x.zero = y.zero ∧ x.zeroRef = y.zeroRef ∧ x.flags.zeroUnset = y.flags.zeroUnset ∧ x.watch = y.watch
          ∧ x.limitMark = y.limitMark)
      ∧ (∀ d, m.isEnabled d = false →
        let x := t.monitor.decks.get d
        x.zero = m.zcalOf d ∧ x.zeroRef = m.zcalOf d ∧ x.watch = .ended ∧ x.limitMark = false)
      ∧ (∀ d, m.isEnabled d = true →
        (t.flagsOf d).filling = true ∧ (t.flagsOf d).inTest = false ∧ (t.flagsOf d).uncalibrated = false)
      ∧ (∀ d, m.isEnabled d = false → t.flagsOf d = DeckFlags.none)
      ∧ t.mem.read32 hdrEpoch = r.epoch
      ∧ t.mem.read16 hdrSession = BitVec.ofNat 16 SessionState.closed.code
      ∧ Registers.Raised (causeAnswer ||| causeJournal ||| causeCondition) s.regs t.regs
      ∧ Memory.SameBut
        (fun x => slotAnswerBytes r.slot x ∨ journalBytes x ∨ bytesFrom hdrEpoch 4 x ∨ bytesFrom hdrSession 2 x)
        s.mem t.mem) ∧
  (∀ s : State, s.NotStoppedAt .install → exec .sessionInstall s = .next s) ∧
  (∀ (s : State) (k : SlotId) (n : Nat) (c : CommitRecord), s.mem.wf = true → s.session.commit = some c →
    let detail := commitDetail c.oldCrc c.newCrc (field16 c.changedCount) (some c.listed) false
    let t := s.jobCompleted (.commit k n)
    Audited .commit detail s t
      ∧ t = { s.writeAudit .commit detail with session := { s.session with stored := true } }
      ∧ t = { s with
        session := { s.session with stored := true }
        mem := t.mem
        regs := t.regs
        journal := t.journal
        audit := t.audit
        store := { s.store with waiting := t.store.waiting } }
      ∧ Registers.Raised causeJournal s.regs t.regs
      ∧ Memory.SameBut journalBytes s.mem t.mem) ∧
  ∀ (s : State) (k : SlotId) (n : Nat), s.mem.wf = true →
    let t := s.jobCompleted (.openSession k n)
    AnswerWritten k .done (bytes32 s.metro.epoch) s t
      ∧ t = { s with
        mem := t.mem
        intake := t.intake
        regs := { s.regs with cause := s.regs.cause ||| causeAnswer } }
      ∧ Memory.SameBut (slotAnswerBytes k) s.mem t.mem

/-- ABORT_SESSION ends an OPEN session, audited SESSION_ABORTED, and answers DONE; SESSION_EXPIRED ends one whose idle
count has reached 360,000, audited SESSION_EXPIRED, where a cadence event has stopped at it (assumption 4). Neither does
anything to a session that is not OPEN, but that the order is answered SESSION_CLOSED. An opening or commit job that
fails ends the session it belongs to, if that session is still the one, audited SESSION_ABORTED, and its order is
answered STORE_FAULT. -/
def Obligations.SessionsEndWithoutInstallation : Prop :=
  (∀ (s : State) (k : SlotId), s.Posted k .abortSession →
    (s.session.state = .opened →
      ∃ t : State, exec (.abortSession k) s = .next t
        ∧ Answered k .done [] s t
        ∧ SessionEnded .sessionAborted s t
        ∧ t = { s with
          session := t.session
          lane := t.lane
          monitor := { s.monitor with decks := t.monitor.decks }
          mem := t.mem
          intake := t.intake
          regs := t.regs
          journal := t.journal
          audit := t.audit
          store := { s.store with waiting := t.store.waiting } }
        ∧ Registers.Raised (causeAnswer ||| causeJournal) s.regs t.regs
        ∧ Memory.SameBut (fun x => answerBytes k x ∨ journalBytes x ∨ bytesFrom hdrSession 2 x) s.mem t.mem) ∧
    (s.session.state ≠ .opened →
      ∃ t : State, exec (.abortSession k) s = .next t ∧ AnsweredAs k .sessionClosed [] s s t)) ∧
  (∀ (s : State) (rest : List Piece), s.mem.wf = true → s.StoppedAt .expire rest →
    s.session.state = .opened ∧ 360000 ≤ s.session.idle ∧
    ∃ t : State, exec .sessionExpired s = .next (t.run true rest)
      ∧ SessionEnded .sessionExpired s t
      ∧ t = { s with
        unfinished := []
        session := t.session
        lane := t.lane
        monitor := { s.monitor with decks := t.monitor.decks }
        mem := t.mem
        regs := t.regs
        journal := t.journal
        audit := t.audit
        store := { s.store with waiting := t.store.waiting } }
      ∧ Registers.Raised causeJournal s.regs t.regs
      ∧ Memory.SameBut (fun x => journalBytes x ∨ bytesFrom hdrSession 2 x) s.mem t.mem) ∧
  (∀ s : State, s.NotStoppedAt .expire → exec .sessionExpired s = .next s) ∧
  ∀ (s : State) (k : SlotId) (n : Nat) (kind : JobKind), kind = .openSession k n ∨ kind = .commit k n →
    s.mem.wf = true →
    let t := s.jobFailed kind
    let still := s.session.state ≠ .closed ∧ s.session.opens = n
    AnswerWritten k .storeFault [] s t ∧
    (still →
      SessionEnded .sessionAborted s t
        ∧ Memory.SameBut (fun x => slotAnswerBytes k x ∨ journalBytes x ∨ bytesFrom hdrSession 2 x) s.mem t.mem) ∧
    (¬still →
      t = { s with
          mem := t.mem
          intake := t.intake
          regs := { s.regs with cause := s.regs.cause ||| causeAnswer } }
        ∧ Memory.SameBut (slotAnswerBytes k) s.mem t.mem)

/-! The retained store. -/

/-- A job enters the queue whole when there is room for all of its rows, and otherwise waits. A row that matches
leaves its job; the first mismatch is written once more; the second leaves the row as the write left it and fails the
job: the latch is set and shown, STORE is raised, no further row is written, and STORE_FAULT is audited with the row and
the requester's code; then its requester acts, and after it every other requester in the order of the queue and the
waiting jobs. With its last row a job completes: new site settings become the working copy and a new class table the
tracker's, each answered DONE, and an audit row moves the write mark on. A job that fails answers its order
STORE_FAULT: a class table, site settings, a void with its entry HELD again, a recall with its reservation released, a
first weighing with its entry removed, a second one with its place EMPTY and its entry HELD again. A counters row goes
to the place that is not current, and is what the counters read as from then on, short of the end of its generations;
a write of it that fails leaves the row reading as before. A row of any other kind goes to its own place and no other,
and what a failed write leaves stands there. Whenever the latch is clear and the log has no job of its own, it
requests the row of the entry at its write mark, and of the oldest entry where that one has left the working copy
(assumption 26). Rows carry the CRC-16 of R2 over what they hold and are read only where it checks; what is written in
them is what is read. The model's choices: the layout of the rows that 12.8 does not give (assumption 9), what a
failed write leaves, as an operand (assumption 10), the counters row composed at the moment it is written (assumption
11), a place freed by its first row, and the counters row as row 0 (assumption 25), and the order in which the
requesters act (assumption 65). -/
def Obligations.TheStoreWritesJobsRowByRow : Prop :=
  (∀ (s : State) (j : Job) (rest : List Job), s.Ready → s.store.waiting = j :: rest →
    (s.store.queued + j.rows.length ≤ 16 →
      exec .storeJobEnter s =
        .next { s with store := { s.store with queue := s.store.queue ++ [j], waiting := rest } }) ∧
    (16 < s.store.queued + j.rows.length → exec .storeJobEnter s = .next s)) ∧
  (∀ s : State, s.Ready → s.store.waiting = [] → exec .storeJobEnter s = .next s) ∧
  (∀ (s : State) (left : Residue) (matched : Bool), s.Ready → s.store.waiting = [] → s.store.queue = [] →
    exec (.storeRowWritten matched left) s = .next s) ∧
  (∀ (s : State) (left : Residue) (kind : JobKind) (w : RowWrite) (rest : List RowWrite) (jobs : List Job),
    s.Ready → s.store.waiting = [] → s.store.queue = ⟨kind, w :: rest⟩ :: jobs →
    let written : State := { s with store := { (s.writeRow w).store with queue := jobs, retry := false } }
    (rest ≠ [] →
      exec (.storeRowWritten true left) s =
        .next
          { s with
            store := { (s.writeRow w).store with queue := ⟨kind, rest⟩ :: jobs, retry := false } }) ∧
    (rest = [] → exec (.storeRowWritten true left) s = .next (written.jobCompleted kind)) ∧
    (s.store.retry = false →
      exec (.storeRowWritten false left) s = .next { s with store := { s.store with retry := true } }) ∧
    (s.mem.wf = true → s.store.retry = true →
      ∃ t u v : State, exec (.storeRowWritten false left) s = .next t
        ∧ u = { s with
          store := { (s.leaveRow w left).store with queue := [], waiting := [], retry := false, latch := true }
          mem := s.mem.write16 hdrStoreFault 1
          regs := { s.regs with cause := s.regs.cause ||| causeStore } }
        ∧ v = u.writeAudit .storeFault (u8 w.address.1 ++ u8 kind.requester ++ u16 w.address.2)
        ∧ t = jobs.foldl (fun x o => x.jobFailed o.kind) (v.jobFailed kind)
        ∧ t.store.latch = true ∧ t.store.queue = [] ∧ t.store.waiting = []
        ∧ t.store.rows = (s.leaveRow w left).store.rows
        ∧ t.store.counters = s.store.counters
        ∧ t.mem.read16 hdrStoreFault = 1
        ∧ t.regs.cause &&& causeStore = causeStore
        ∧ v.audit.entries.getLast?.map (·.kind) = some .storeFault
        ∧ v.audit.last = nextSerial s.audit.last) ∧
    (∀ n, kind = .auditRow n → rest = [] → nextSerial n = nextSerial s.audit.last →
      (∀ e ∈ s.audit.entries, e.serial ≠ nextSerial n) →
      exec (.storeRowWritten true left) s =
        .next { written with audit := { s.audit with mark := nextSerial n, busy := false } }) ∧
    (∀ k x, s.mem.wf = true → kind = .site k x → rest = [] →
      ∃ t : State, exec (.storeRowWritten true left) s = .next t
        ∧ AnswerWritten k .done [] s t
        ∧ t = { written with
          site := x
          mem := t.mem
          intake := t.intake
          regs := { s.regs with cause := s.regs.cause ||| causeAnswer } }
        ∧ Memory.SameBut (slotAnswerBytes k) s.mem t.mem) ∧
    (∀ k table, s.mem.wf = true → kind = .classes k table → rest = [] →
      ∃ t : State, exec (.storeRowWritten true left) s = .next t
        ∧ AnswerWritten k .done [] s t
        ∧ t = { written with
          tracker := { s.tracker with classes := table }
          mem := t.mem
          intake := t.intake
          regs := { s.regs with cause := s.regs.cause ||| causeAnswer } }
        ∧ Memory.SameBut (slotAnswerBytes k) s.mem t.mem)) ∧
  (∀ s : State, s.mem.wf = true →
    let told := fun (k : SlotId) (u t : State) =>
      AnswerWritten k .storeFault [] s t
        ∧ t = { u with
          mem := t.mem
          intake := t.intake
          regs := { u.regs with cause := u.regs.cause ||| causeAnswer } }
        ∧ Memory.SameBut (slotAnswerBytes k) u.mem t.mem
    (∀ k table, told k s (s.jobFailed (.classes k table))) ∧
    (∀ k x, told k s (s.jobFailed (.site k x))) ∧
    (∀ k n i v, s.placeOf n = some i → s.place i = some v →
      told k
        { s with visits := { s.visits with places := s.visits.places.set i (some { v with status := .held }) } }
        (s.jobFailed (.voidVisit k n))) ∧
    (∀ k i c,
      told k
        (({ s with
            tickets :=
              { s.tickets with recalls := s.tickets.recalls.filter fun m => m != c.ticket.number } } :
            State).releaseReservation)
        (s.jobFailed (.recall k i c))) ∧
    (∀ c n i, s.capture = some c → c.visit = some n → s.placeOf n = some i →
      told c.slot
        { (({ s with visits := { s.visits with places := s.visits.places.set i none } } : State).releaseReservation) with
          capture := none
          visits := { s.visits with places := s.visits.places.set i none, mark := none }
          lane := s.lane.unmark .capture }
        (s.jobFailed .firstWeigh)) ∧
    ∀ c ticket i j v, s.capture = some c → s.tickets.job = some (ticket, i) →
      s.placeOf ticket.visit.number = some j → s.place j = some v →
      let visits := { s.visits with places := s.visits.places.set j (some { v with status := .held }) }
      let dropped : State :=
        { s with
          tickets := { s.tickets with places := s.tickets.places.set i .empty, job := none }
          visits := visits }
      told c.slot
        { dropped.releaseReservation with
          capture := none
          visits := { visits with mark := none }
          lane := s.lane.unmark .capture }
        (s.jobFailed .ticket)) ∧
  (∀ (s : State) (change : CountersChange),
    let t := s.writeRow (.counters change)
    let counters := s.composeCounters change
    t = { s with store := { s.store with rows := t.store.rows, counters := counters } }
      ∧ ((∀ x, s.store.rows.countersRow = some x → x.generation ≠ 0xFFFFFFFF) →
        t.store.rows.countersRow.map (·.counters) = some counters)
      ∧ (s.store.rows.currentSecond = true → t.store.rows.counters1 = s.store.rows.counters1)
      ∧ (s.store.rows.currentSecond = false → t.store.rows.counters0 = s.store.rows.counters0)) ∧
  (∀ (s : State) (change : CountersChange) (left : Residue),
    (s.leaveRow (.counters change) left).store.rows.countersRow = s.store.rows.countersRow ∧
    (s.leaveRow (.counters change) left).store.counters = s.store.counters) ∧
  (∀ (s : State) (w : RowWrite), (∀ change, w ≠ .counters change) →
    let r := s.store.rows
    let landed := fun v : Row =>
      match w with
      | .image place row _ =>
        if place = 0 then { r with image0 := r.image0.set row v } else { r with image1 := r.image1.set row v }
      | .counters _ => r
      | .visit place row _ => { r with visits := r.visits.modify place fun rows => rows.set row v }
      | .freeVisit place => { r with visits := r.visits.modify place fun rows => rows.set 0 v }
      | .ticket place row _ => { r with tickets := r.tickets.modify place fun rows => rows.set row v }
      | .freeTicket place => { r with tickets := r.tickets.modify place fun rows => rows.set 0 v }
      | .audit e => { r with audit := r.audit.set (e.serial.toNat % 128) v }
      | .classRow n _ => { r with classes := r.classes.set n v }
      | .site _ => { r with site := v }
    let kept := fun rows : Rows => { s with store := { s.store with rows := rows } }
    s.writeRow w = kept (landed w.content) ∧ s.leaveRow w .new = s.writeRow w ∧ s.leaveRow w .old = s ∧
    s.leaveRow w .corrupt = kept (landed none) ∧
    ∀ bytes : List Byte, s.leaveRow w (.other bytes) = kept (landed (some (padTo 64 (bytes.take 64))))) ∧
  (∀ s : State,
    let requested := fun e : AuditEntry =>
      { s with
        audit := { s.audit with mark := e.serial, busy := true }
        store := { s.store with waiting := s.store.waiting ++ [⟨.auditRow e.serial, [.audit e]⟩] } }
    let gone := ∀ e ∈ s.audit.entries, e.serial ≠ s.audit.mark
    (s.store.latch = true ∨ s.audit.busy = true → s.auditPump = s) ∧
    (s.store.latch = false → s.audit.busy = false →
      (∀ e, s.audit.entries.find? (fun x => x.serial == s.audit.mark) = some e → s.auditPump = requested e) ∧
      (gone → s.audit.mark = nextSerial s.audit.last ∨ s.audit.entries = [] → s.auditPump = s) ∧
      ∀ e rest, gone → s.audit.mark ≠ nextSerial s.audit.last → s.audit.entries = e :: rest →
        s.auditPump = requested e) ∧
    ∀ n : W32,
      s.jobCompleted (.auditRow n) =
          ({ s with audit := { s.audit with mark := nextSerial n, busy := false } } : State).auditPump ∧
        s.jobFailed (.auditRow n) = { s with audit := { s.audit with busy := false } }) ∧
  (∀ (s : State) (kind : AuditKind) (detail : List Byte),
    let e : AuditEntry :=
      { serial := nextSerial s.audit.last
        epoch := s.store.counters.epoch
        time := s.time.time
        clockSet := s.time.isSet
        kind := kind
        detail := detail }
    let joined : State :=
      { s with audit := { s.audit with entries := joinEntries s.audit.entries e, last := nextSerial s.audit.last } }
    s.writeAudit kind detail = (joined.record (auditRecord e false)).auditPump) ∧
  (∀ (n : Nat) (content : List Byte), 0 < n → content.length ≤ 64 * n - 2 →
    let stored := withCrc n content
    let body := stored.take (64 * n - 2)
    stored.length = 64 * n ∧ stored.take content.length = content ∧
    stored.drop (64 * n - 2) = bytes16 (crc16 body) ∧
    checkedBytes ((List.range n).map fun r => some (rowOf stored r)) = some body) ∧
  (∀ rows : List Row,
    (none ∈ rows → checkedBytes rows = none) ∧
    ∀ bytes : List (List Byte), rows = bytes.map some →
      let n := 64 * rows.length - 2
      bytes.flatten.drop n ≠ bytes16 (crc16 (bytes.flatten.take n)) → checkedBytes rows = none) ∧
  (∀ x : CountersRow, countersOf (some x.stored) = some x) ∧
  (∀ e : VisitEntry, e.retainable → visitOf ((List.range 3).map fun r => some (rowOf e.stored r)) = some e) ∧
  (∀ c : TicketCopy, c.retainable → copyOf ((List.range 4).map fun r => some (rowOf c.stored r)) = some c) ∧
  (∀ e : AuditEntry, e.retainable → auditOf (some e.stored) = some e) ∧
  (∀ c : ClassEntry, c.name.length = 8 → c.badField = none → classOf (some c.stored) = some c) ∧
  (∀ x : Site, x.badField = none → settingsOf (some x.stored) = some x) ∧
  ∀ (place row : Nat) (e : VisitEntry) (c : TicketCopy) (a : AuditEntry) (x : ClassEntry) (y : Site),
    (RowWrite.visit place row e).content = some (rowOf e.stored row) ∧
    (RowWrite.ticket place row c).content = some (rowOf c.stored row) ∧
    (RowWrite.audit a).content = some a.stored ∧
    (RowWrite.classRow place x).content = some x.stored ∧
    (RowWrite.site y).content = some y.stored ∧
    (RowWrite.freeVisit place).content = none ∧ (RowWrite.freeTicket place).content = none ∧
    ∀ image : MetroImage, (RowWrite.image place row image).content = some (rowOf image.stored row)
end

