-- ==== Sys2Proof/Laws/Memory.lean ====
section
/-! SUPPORT. The memory keeps its canonical form under every operation, and reads return what was written. -/

namespace Sys2Proof.Machine.Memory

open Sys2Proof

theorem wfFrom_mono {m : Memory} {lo hi : Nat} (h : lo ≤ hi) (w : wfFrom hi m = true) : wfFrom lo m = true := by
  cases m with
  | nil => rfl
  | cons c m =>
    obtain ⟨a, b⟩ := c
    simp only [wfFrom, Bool.and_eq_true, decide_eq_true_eq] at w ⊢
    exact ⟨⟨⟨by omega, w.1.1.2⟩, w.1.2⟩, w.2⟩

theorem readByte_below {m : Memory} {lo x : Nat} (w : wfFrom lo m = true) (h : x < lo) : readByte m x = 0 := by
  induction m generalizing lo with
  | nil => rfl
  | cons c m ih =>
    obtain ⟨a, b⟩ := c
    simp only [wfFrom, Bool.and_eq_true, decide_eq_true_eq] at w
    have : x ≠ a := by omega
    simp only [readByte, this, if_false]
    exact ih w.2 (by omega)

theorem insertByte_wfFrom {m : Memory} {lo x : Nat} {v : Byte} (w : wfFrom lo m = true) (hx : lo ≤ x)
    (hs : x < size) : wfFrom lo (insertByte m x v) = true := by
  induction m generalizing lo with
  | nil =>
    unfold insertByte
    split
    · rfl
    · rename_i hv
      simp only [wfFrom, Bool.and_eq_true, decide_eq_true_eq, bne_iff_ne, ne_eq]
      exact ⟨⟨⟨hx, hs⟩, hv⟩, trivial⟩
  | cons c m ih =>
    obtain ⟨a, b⟩ := c
    simp only [wfFrom, Bool.and_eq_true, decide_eq_true_eq] at w
    unfold insertByte
    split
    · split
      · simp only [wfFrom, Bool.and_eq_true, decide_eq_true_eq]
        exact w
      · simp only [wfFrom, Bool.and_eq_true, decide_eq_true_eq, bne_iff_ne, ne_eq]
        refine ⟨⟨⟨hx, hs⟩, by assumption⟩, ⟨⟨⟨by omega, w.1.1.2⟩, ?_⟩, w.2⟩⟩
        simpa using w.1.2
    · split
      · split
        · exact wfFrom_mono (by omega) w.2
        · simp only [wfFrom, Bool.and_eq_true, decide_eq_true_eq, bne_iff_ne, ne_eq]
          refine ⟨⟨⟨hx, hs⟩, by assumption⟩, ?_⟩
          have : x = a := by assumption
          rw [this]; exact w.2
      · simp only [wfFrom, Bool.and_eq_true, decide_eq_true_eq]
        exact ⟨w.1, ih w.2 (by omega)⟩

theorem readByte_insertByte {m : Memory} {lo x y : Nat} {v : Byte} (w : wfFrom lo m = true) :
    readByte (insertByte m x v) y = if y = x then v else readByte m y := by
  induction m generalizing lo with
  | nil =>
    unfold insertByte
    by_cases hv : v = 0
    · rw [if_pos hv]
      by_cases hy : y = x
      · rw [if_pos hy, hv]; rfl
      · rw [if_neg hy]
    · rw [if_neg hv]
      by_cases hy : y = x <;> simp [readByte, hy]
  | cons c m ih =>
    obtain ⟨a, b⟩ := c
    simp only [wfFrom, Bool.and_eq_true, decide_eq_true_eq] at w
    have below : ∀ z, z < a + 1 → readByte m z = 0 := fun z hz => readByte_below w.2 hz
    unfold insertByte
    by_cases hxa : x < a
    · have hx0 : readByte m x = 0 := below x (by omega)
      have hne : x ≠ a := by omega
      by_cases hv : v = 0
      · by_cases hy : y = x
        · simp [readByte, hxa, hv, hy, hne, hx0]
        · simp [hxa, hv, hy]
      · rw [if_pos hxa, if_neg hv]
        simp only [readByte]
    · by_cases hxe : x = a
      · have hx0 : readByte m x = 0 := below x (by omega)
        by_cases hv : v = 0
        · by_cases hy : y = x
          · simp [hxe, hv, hy]
            rw [← hxe]; exact hx0
          · have : y ≠ a := by omega
            simp [readByte, hxe, hv, this]
        · rw [if_neg hxa, if_pos hxe, if_neg hv]
          by_cases hy : y = x
          · simp only [readByte, hy, if_true]
          · have : y ≠ a := by omega
            simp only [readByte, hy, this, if_false]
      · by_cases hy : y = a
        · have : y ≠ x := by omega
          simp [readByte, hxa, hxe, hy]
          intro h; omega
        · simp only [hxa, hxe, if_false, readByte, hy]
          exact ih w.2

/-- A write of one byte keeps the canonical form. -/
theorem writeByte_wf {m : Memory} {x : Nat} {v : Byte} (w : wf m = true) : wf (writeByte m x v) = true := by
  unfold writeByte
  split
  · exact insertByte_wfFrom w (Nat.zero_le _) (by assumption)
  · exact w

/-- A byte reads back as written, and every other byte as before. -/
theorem readByte_writeByte {m : Memory} {x y : Nat} {v : Byte} (w : wf m = true) (hx : x < size) :
    readByte (writeByte m x v) y = if y = x then v else readByte m y := by
  unfold writeByte
  rw [if_pos hx]
  exact readByte_insertByte w

/-- A write leaves every other byte alone. -/
theorem readByte_writeByte_other {m : Memory} {x y : Nat} {v : Byte} (w : wf m = true) (h : y ≠ x) :
    readByte (writeByte m x v) y = readByte m y := by
  unfold writeByte
  split
  · rw [readByte_insertByte w, if_neg h]
  · rfl

/-- A write of one word keeps the canonical form. -/
theorem write16_wf {m : Memory} {x : Nat} {v : W16} (w : wf m = true) : wf (write16 m x v) = true :=
  writeByte_wf (writeByte_wf w)

/-- A write of a 32-bit value keeps the canonical form. -/
theorem write32_wf {m : Memory} {x : Nat} {v : W32} (w : wf m = true) : wf (write32 m x v) = true :=
  write16_wf (write16_wf w)

/-- A write of bytes keeps the canonical form. -/
theorem writeBytes_wf {m : Memory} {x : Nat} {bs : List Byte} (w : wf m = true) : wf (writeBytes m x bs) = true := by
  induction bs generalizing m x with
  | nil => exact w
  | cons b bs ih => exact ih (writeByte_wf w)

theorem filter_wfFrom {m : Memory} {lo : Nat} {p : Host.Cell → Bool} (w : wfFrom lo m = true) :
    wfFrom lo (m.filter p) = true := by
  induction m generalizing lo with
  | nil => rfl
  | cons c m ih =>
    obtain ⟨a, b⟩ := c
    simp only [wfFrom, Bool.and_eq_true, decide_eq_true_eq] at w
    rw [List.filter_cons]
    split
    · simp only [wfFrom, Bool.and_eq_true, decide_eq_true_eq]
      exact ⟨w.1, ih w.2⟩
    · exact wfFrom_mono (by omega) (ih w.2)

/-- Clearing bytes keeps the canonical form. -/
theorem clearBytes_wf {m : Memory} {x n : Nat} (w : wf m = true) : wf (clearBytes m x n) = true :=
  filter_wfFrom w

/-- The bytes outside a word are left alone by a write of it. -/
theorem readByte_write16_other {m : Memory} {x y : Nat} {v : W16} (w : wf m = true) (h : y ≠ x) (h' : y ≠ x + 1) :
    readByte (write16 m x v) y = readByte m y := by
  unfold write16
  rw [readByte_writeByte_other (writeByte_wf w) h', readByte_writeByte_other w h]

/-- The bytes outside a 32-bit field are left alone by a write of it. -/
theorem readByte_write32_other {m : Memory} {x y : Nat} {v : W32} (w : wf m = true) (h : y < x ∨ x + 4 ≤ y) :
    readByte (write32 m x v) y = readByte m y := by
  unfold write32
  rw [readByte_write16_other (write16_wf w) (by omega) (by omega), readByte_write16_other w (by omega) (by omega)]

/-- The bytes outside a run are left alone by a write of it. -/
theorem readByte_writeBytes_other {m : Memory} {x y : Nat} {bs : List Byte} (w : wf m = true)
    (h : y < x ∨ x + bs.length ≤ y) : readByte (writeBytes m x bs) y = readByte m y := by
  induction bs generalizing m x with
  | nil => rfl
  | cons b bs ih =>
    simp only [List.length_cons] at h
    unfold writeBytes
    rw [ih (writeByte_wf w) (by omega), readByte_writeByte_other w (by omega)]

theorem append_halves (v : W16) : v.extractLsb' 8 8 ++ v.extractLsb' 0 8 = v := by
  apply BitVec.eq_of_getLsbD_eq
  intro i hi
  rw [BitVec.getLsbD_append]
  split
  · simp_all
  · simp only [BitVec.getLsbD_extractLsb']
    have : i - 8 < 8 := by omega
    simp only [this, decide_true, Bool.true_and]
    congr 1
    omega

theorem append_words (v : W32) : v.extractLsb' 16 16 ++ v.extractLsb' 0 16 = v := by
  apply BitVec.eq_of_getLsbD_eq
  intro i hi
  rw [BitVec.getLsbD_append]
  split
  · simp_all
  · simp only [BitVec.getLsbD_extractLsb']
    have : i - 16 < 16 := by omega
    simp only [this, decide_true, Bool.true_and]
    congr 1
    omega

/-- A word reads back as written. -/
theorem read16_write16 {m : Memory} {x : Nat} {v : W16} (w : wf m = true) (h : x + 1 < size) :
    read16 (write16 m x v) x = v := by
  unfold read16 write16
  rw [readByte_writeByte (writeByte_wf w) h, if_pos rfl, readByte_writeByte_other (writeByte_wf w) (by omega),
    readByte_writeByte w (by omega), if_pos rfl]
  exact append_halves v

/-- A word elsewhere reads as before. -/
theorem read16_write16_other {m : Memory} {x y : Nat} {v : W16} (w : wf m = true) (h : y + 1 < x ∨ x + 1 < y) :
    read16 (write16 m x v) y = read16 m y := by
  unfold read16
  rw [readByte_write16_other w (by omega) (by omega), readByte_write16_other w (by omega) (by omega)]

/-- A word elsewhere reads as before a write of a 32-bit field. -/
theorem read16_write32_other {m : Memory} {x y : Nat} {v : W32} (w : wf m = true) (h : y + 1 < x ∨ x + 4 ≤ y) :
    read16 (write32 m x v) y = read16 m y := by
  unfold read16
  rw [readByte_write32_other w (by omega), readByte_write32_other w (by omega)]

/-- A word elsewhere reads as before a write of bytes. -/
theorem read16_writeBytes_other {m : Memory} {x y : Nat} {bs : List Byte} (w : wf m = true)
    (h : y + 1 < x ∨ x + bs.length ≤ y) : read16 (writeBytes m x bs) y = read16 m y := by
  unfold read16
  rw [readByte_writeBytes_other w (by omega), readByte_writeBytes_other w (by omega)]

/-- A 32-bit field reads back as written. -/
theorem read32_write32 {m : Memory} {x : Nat} {v : W32} (w : wf m = true) (h : x + 3 < size) :
    read32 (write32 m x v) x = v := by
  unfold read32 write32
  rw [read16_write16 (write16_wf w) (by omega), read16_write16_other (write16_wf w) (by omega),
    read16_write16 w (by omega)]
  exact append_words v

/-- A 32-bit field elsewhere reads as before a write of a word. -/
theorem read32_write16_other {m : Memory} {x y : Nat} {v : W16} (w : wf m = true) (h : y + 3 < x ∨ x + 1 < y) :
    read32 (write16 m x v) y = read32 m y := by
  unfold read32
  rw [read16_write16_other w (by omega), read16_write16_other w (by omega)]

/-- A 32-bit field elsewhere reads as before a write of another. -/
theorem read32_write32_other {m : Memory} {x y : Nat} {v : W32} (w : wf m = true) (h : y + 3 < x ∨ x + 3 < y) :
    read32 (write32 m x v) y = read32 m y := by
  unfold read32
  rw [read16_write32_other w (by omega), read16_write32_other w (by omega)]

/-- Bytes read back as written. -/
theorem readBytes_writeBytes {m : Memory} {x : Nat} {bs : List Byte} (w : wf m = true) (h : x + bs.length ≤ size) :
    readBytes (writeBytes m x bs) x bs.length = bs := by
  induction bs generalizing m x with
  | nil => rfl
  | cons b bs ih =>
    simp only [List.length_cons] at h
    simp only [List.length_cons, readBytes, writeBytes]
    rw [ih (writeByte_wf w) (by omega), readByte_writeBytes_other (writeByte_wf w) (by omega),
      readByte_writeByte w (by omega)]
    simp

end Sys2Proof.Machine.Memory
end

