-- ==== Sys2Proof/Laws/State.lean ====
section
/-! SUPPORT. What the named updates of the state leave alone, field by field, so that no proof unfolds them. -/

namespace Sys2Proof.Machine

/-! `State.writeWord`. -/

@[simp] theorem writeWord_pending (s : State) (x : Nat) (v : W16) : (s.writeWord x v).pending = s.pending := rfl
@[simp] theorem writeWord_power (s : State) (x : Nat) (v : W16) : (s.writeWord x v).power = s.power := rfl
@[simp] theorem writeWord_pins (s : State) (x : Nat) (v : W16) : (s.writeWord x v).pins = s.pins := rfl
@[simp] theorem writeWord_clock (s : State) (x : Nat) (v : W16) : (s.writeWord x v).clock = s.clock := rfl
@[simp] theorem writeWord_link (s : State) (x : Nat) (v : W16) : (s.writeWord x v).link = s.link := rfl
@[simp] theorem writeWord_back (s : State) (x : Nat) (v : W16) : (s.writeWord x v).back = s.back := rfl
@[simp] theorem writeWord_cells (s : State) (x : Nat) (v : W16) : (s.writeWord x v).cells = s.cells := rfl
@[simp] theorem writeWord_metro (s : State) (x : Nat) (v : W16) : (s.writeWord x v).metro = s.metro := rfl
@[simp] theorem writeWord_chain (s : State) (x : Nat) (v : W16) : (s.writeWord x v).chain = s.chain := rfl
@[simp] theorem writeWord_monitor (s : State) (x : Nat) (v : W16) : (s.writeWord x v).monitor = s.monitor := rfl
@[simp] theorem writeWord_tracker (s : State) (x : Nat) (v : W16) : (s.writeWord x v).tracker = s.tracker := rfl
@[simp] theorem writeWord_lane (s : State) (x : Nat) (v : W16) : (s.writeWord x v).lane = s.lane := rfl
@[simp] theorem writeWord_regs (s : State) (x : Nat) (v : W16) : (s.writeWord x v).regs = s.regs := rfl
@[simp] theorem writeWord_intake (s : State) (x : Nat) (v : W16) : (s.writeWord x v).intake = s.intake := rfl
@[simp] theorem writeWord_site (s : State) (x : Nat) (v : W16) : (s.writeWord x v).site = s.site := rfl
@[simp] theorem writeWord_time (s : State) (x : Nat) (v : W16) : (s.writeWord x v).time = s.time := rfl
@[simp] theorem writeWord_capture (s : State) (x : Nat) (v : W16) : (s.writeWord x v).capture = s.capture := rfl
@[simp] theorem writeWord_visits (s : State) (x : Nat) (v : W16) : (s.writeWord x v).visits = s.visits := rfl
@[simp] theorem writeWord_tickets (s : State) (x : Nat) (v : W16) : (s.writeWord x v).tickets = s.tickets := rfl
@[simp] theorem writeWord_journal (s : State) (x : Nat) (v : W16) : (s.writeWord x v).journal = s.journal := rfl
@[simp] theorem writeWord_session (s : State) (x : Nat) (v : W16) : (s.writeWord x v).session = s.session := rfl
@[simp] theorem writeWord_sealLine (s : State) (x : Nat) (v : W16) : (s.writeWord x v).sealLine = s.sealLine := rfl
@[simp] theorem writeWord_store (s : State) (x : Nat) (v : W16) : (s.writeWord x v).store = s.store := rfl
@[simp] theorem writeWord_audit (s : State) (x : Nat) (v : W16) : (s.writeWord x v).audit = s.audit := rfl
@[simp] theorem writeWord_unfinished (s : State) (x : Nat) (v : W16) : (s.writeWord x v).unfinished = s.unfinished := rfl
@[simp] theorem writeWord_mem (s : State) (x : Nat) (v : W16) : (s.writeWord x v).mem = s.mem.write16 x v := rfl

/-! `State.writeLong`. -/

@[simp] theorem writeLong_pending (s : State) (x : Nat) (v : W32) : (s.writeLong x v).pending = s.pending := rfl
@[simp] theorem writeLong_power (s : State) (x : Nat) (v : W32) : (s.writeLong x v).power = s.power := rfl
@[simp] theorem writeLong_pins (s : State) (x : Nat) (v : W32) : (s.writeLong x v).pins = s.pins := rfl
@[simp] theorem writeLong_clock (s : State) (x : Nat) (v : W32) : (s.writeLong x v).clock = s.clock := rfl
@[simp] theorem writeLong_link (s : State) (x : Nat) (v : W32) : (s.writeLong x v).link = s.link := rfl
@[simp] theorem writeLong_back (s : State) (x : Nat) (v : W32) : (s.writeLong x v).back = s.back := rfl
@[simp] theorem writeLong_cells (s : State) (x : Nat) (v : W32) : (s.writeLong x v).cells = s.cells := rfl
@[simp] theorem writeLong_metro (s : State) (x : Nat) (v : W32) : (s.writeLong x v).metro = s.metro := rfl
@[simp] theorem writeLong_chain (s : State) (x : Nat) (v : W32) : (s.writeLong x v).chain = s.chain := rfl
@[simp] theorem writeLong_monitor (s : State) (x : Nat) (v : W32) : (s.writeLong x v).monitor = s.monitor := rfl
@[simp] theorem writeLong_tracker (s : State) (x : Nat) (v : W32) : (s.writeLong x v).tracker = s.tracker := rfl
@[simp] theorem writeLong_lane (s : State) (x : Nat) (v : W32) : (s.writeLong x v).lane = s.lane := rfl
@[simp] theorem writeLong_regs (s : State) (x : Nat) (v : W32) : (s.writeLong x v).regs = s.regs := rfl
@[simp] theorem writeLong_intake (s : State) (x : Nat) (v : W32) : (s.writeLong x v).intake = s.intake := rfl
@[simp] theorem writeLong_site (s : State) (x : Nat) (v : W32) : (s.writeLong x v).site = s.site := rfl
@[simp] theorem writeLong_time (s : State) (x : Nat) (v : W32) : (s.writeLong x v).time = s.time := rfl
@[simp] theorem writeLong_capture (s : State) (x : Nat) (v : W32) : (s.writeLong x v).capture = s.capture := rfl
@[simp] theorem writeLong_visits (s : State) (x : Nat) (v : W32) : (s.writeLong x v).visits = s.visits := rfl
@[simp] theorem writeLong_tickets (s : State) (x : Nat) (v : W32) : (s.writeLong x v).tickets = s.tickets := rfl
@[simp] theorem writeLong_journal (s : State) (x : Nat) (v : W32) : (s.writeLong x v).journal = s.journal := rfl
@[simp] theorem writeLong_session (s : State) (x : Nat) (v : W32) : (s.writeLong x v).session = s.session := rfl
@[simp] theorem writeLong_sealLine (s : State) (x : Nat) (v : W32) : (s.writeLong x v).sealLine = s.sealLine := rfl
@[simp] theorem writeLong_store (s : State) (x : Nat) (v : W32) : (s.writeLong x v).store = s.store := rfl
@[simp] theorem writeLong_audit (s : State) (x : Nat) (v : W32) : (s.writeLong x v).audit = s.audit := rfl
@[simp] theorem writeLong_unfinished (s : State) (x : Nat) (v : W32) : (s.writeLong x v).unfinished = s.unfinished := rfl
@[simp] theorem writeLong_mem (s : State) (x : Nat) (v : W32) : (s.writeLong x v).mem = s.mem.write32 x v := rfl

/-! `State.writeRun`. -/

@[simp] theorem writeRun_pending (s : State) (x : Nat) (bs : List Byte) : (s.writeRun x bs).pending = s.pending := rfl
@[simp] theorem writeRun_power (s : State) (x : Nat) (bs : List Byte) : (s.writeRun x bs).power = s.power := rfl
@[simp] theorem writeRun_pins (s : State) (x : Nat) (bs : List Byte) : (s.writeRun x bs).pins = s.pins := rfl
@[simp] theorem writeRun_clock (s : State) (x : Nat) (bs : List Byte) : (s.writeRun x bs).clock = s.clock := rfl
@[simp] theorem writeRun_link (s : State) (x : Nat) (bs : List Byte) : (s.writeRun x bs).link = s.link := rfl
@[simp] theorem writeRun_back (s : State) (x : Nat) (bs : List Byte) : (s.writeRun x bs).back = s.back := rfl
@[simp] theorem writeRun_cells (s : State) (x : Nat) (bs : List Byte) : (s.writeRun x bs).cells = s.cells := rfl
@[simp] theorem writeRun_metro (s : State) (x : Nat) (bs : List Byte) : (s.writeRun x bs).metro = s.metro := rfl
@[simp] theorem writeRun_chain (s : State) (x : Nat) (bs : List Byte) : (s.writeRun x bs).chain = s.chain := rfl
@[simp] theorem writeRun_monitor (s : State) (x : Nat) (bs : List Byte) : (s.writeRun x bs).monitor = s.monitor := rfl
@[simp] theorem writeRun_tracker (s : State) (x : Nat) (bs : List Byte) : (s.writeRun x bs).tracker = s.tracker := rfl
@[simp] theorem writeRun_lane (s : State) (x : Nat) (bs : List Byte) : (s.writeRun x bs).lane = s.lane := rfl
@[simp] theorem writeRun_regs (s : State) (x : Nat) (bs : List Byte) : (s.writeRun x bs).regs = s.regs := rfl
@[simp] theorem writeRun_intake (s : State) (x : Nat) (bs : List Byte) : (s.writeRun x bs).intake = s.intake := rfl
@[simp] theorem writeRun_site (s : State) (x : Nat) (bs : List Byte) : (s.writeRun x bs).site = s.site := rfl
@[simp] theorem writeRun_time (s : State) (x : Nat) (bs : List Byte) : (s.writeRun x bs).time = s.time := rfl
@[simp] theorem writeRun_capture (s : State) (x : Nat) (bs : List Byte) : (s.writeRun x bs).capture = s.capture := rfl
@[simp] theorem writeRun_visits (s : State) (x : Nat) (bs : List Byte) : (s.writeRun x bs).visits = s.visits := rfl
@[simp] theorem writeRun_tickets (s : State) (x : Nat) (bs : List Byte) : (s.writeRun x bs).tickets = s.tickets := rfl
@[simp] theorem writeRun_journal (s : State) (x : Nat) (bs : List Byte) : (s.writeRun x bs).journal = s.journal := rfl
@[simp] theorem writeRun_session (s : State) (x : Nat) (bs : List Byte) : (s.writeRun x bs).session = s.session := rfl
@[simp] theorem writeRun_sealLine (s : State) (x : Nat) (bs : List Byte) : (s.writeRun x bs).sealLine = s.sealLine := rfl
@[simp] theorem writeRun_store (s : State) (x : Nat) (bs : List Byte) : (s.writeRun x bs).store = s.store := rfl
@[simp] theorem writeRun_audit (s : State) (x : Nat) (bs : List Byte) : (s.writeRun x bs).audit = s.audit := rfl
@[simp] theorem writeRun_unfinished (s : State) (x : Nat) (bs : List Byte) : (s.writeRun x bs).unfinished = s.unfinished := rfl
@[simp] theorem writeRun_mem (s : State) (x : Nat) (bs : List Byte) : (s.writeRun x bs).mem = s.mem.writeBytes x bs := rfl

/-! `State.clearRun`. -/

@[simp] theorem clearRun_pending (s : State) (x n : Nat) : (s.clearRun x n).pending = s.pending := rfl
@[simp] theorem clearRun_power (s : State) (x n : Nat) : (s.clearRun x n).power = s.power := rfl
@[simp] theorem clearRun_pins (s : State) (x n : Nat) : (s.clearRun x n).pins = s.pins := rfl
@[simp] theorem clearRun_clock (s : State) (x n : Nat) : (s.clearRun x n).clock = s.clock := rfl
@[simp] theorem clearRun_link (s : State) (x n : Nat) : (s.clearRun x n).link = s.link := rfl
@[simp] theorem clearRun_back (s : State) (x n : Nat) : (s.clearRun x n).back = s.back := rfl
@[simp] theorem clearRun_cells (s : State) (x n : Nat) : (s.clearRun x n).cells = s.cells := rfl
@[simp] theorem clearRun_metro (s : State) (x n : Nat) : (s.clearRun x n).metro = s.metro := rfl
@[simp] theorem clearRun_chain (s : State) (x n : Nat) : (s.clearRun x n).chain = s.chain := rfl
@[simp] theorem clearRun_monitor (s : State) (x n : Nat) : (s.clearRun x n).monitor = s.monitor := rfl
@[simp] theorem clearRun_tracker (s : State) (x n : Nat) : (s.clearRun x n).tracker = s.tracker := rfl
@[simp] theorem clearRun_lane (s : State) (x n : Nat) : (s.clearRun x n).lane = s.lane := rfl
@[simp] theorem clearRun_regs (s : State) (x n : Nat) : (s.clearRun x n).regs = s.regs := rfl
@[simp] theorem clearRun_intake (s : State) (x n : Nat) : (s.clearRun x n).intake = s.intake := rfl
@[simp] theorem clearRun_site (s : State) (x n : Nat) : (s.clearRun x n).site = s.site := rfl
@[simp] theorem clearRun_time (s : State) (x n : Nat) : (s.clearRun x n).time = s.time := rfl
@[simp] theorem clearRun_capture (s : State) (x n : Nat) : (s.clearRun x n).capture = s.capture := rfl
@[simp] theorem clearRun_visits (s : State) (x n : Nat) : (s.clearRun x n).visits = s.visits := rfl
@[simp] theorem clearRun_tickets (s : State) (x n : Nat) : (s.clearRun x n).tickets = s.tickets := rfl
@[simp] theorem clearRun_journal (s : State) (x n : Nat) : (s.clearRun x n).journal = s.journal := rfl
@[simp] theorem clearRun_session (s : State) (x n : Nat) : (s.clearRun x n).session = s.session := rfl
@[simp] theorem clearRun_sealLine (s : State) (x n : Nat) : (s.clearRun x n).sealLine = s.sealLine := rfl
@[simp] theorem clearRun_store (s : State) (x n : Nat) : (s.clearRun x n).store = s.store := rfl
@[simp] theorem clearRun_audit (s : State) (x n : Nat) : (s.clearRun x n).audit = s.audit := rfl
@[simp] theorem clearRun_unfinished (s : State) (x n : Nat) : (s.clearRun x n).unfinished = s.unfinished := rfl
@[simp] theorem clearRun_mem (s : State) (x n : Nat) : (s.clearRun x n).mem = s.mem.clearBytes x n := rfl

/-! `State.setCause`. -/

@[simp] theorem setCause_pending (s : State) (c : W16) : (s.setCause c).pending = s.pending := rfl
@[simp] theorem setCause_power (s : State) (c : W16) : (s.setCause c).power = s.power := rfl
@[simp] theorem setCause_pins (s : State) (c : W16) : (s.setCause c).pins = s.pins := rfl
@[simp] theorem setCause_clock (s : State) (c : W16) : (s.setCause c).clock = s.clock := rfl
@[simp] theorem setCause_link (s : State) (c : W16) : (s.setCause c).link = s.link := rfl
@[simp] theorem setCause_back (s : State) (c : W16) : (s.setCause c).back = s.back := rfl
@[simp] theorem setCause_cells (s : State) (c : W16) : (s.setCause c).cells = s.cells := rfl
@[simp] theorem setCause_metro (s : State) (c : W16) : (s.setCause c).metro = s.metro := rfl
@[simp] theorem setCause_chain (s : State) (c : W16) : (s.setCause c).chain = s.chain := rfl
@[simp] theorem setCause_monitor (s : State) (c : W16) : (s.setCause c).monitor = s.monitor := rfl
@[simp] theorem setCause_tracker (s : State) (c : W16) : (s.setCause c).tracker = s.tracker := rfl
@[simp] theorem setCause_lane (s : State) (c : W16) : (s.setCause c).lane = s.lane := rfl
@[simp] theorem setCause_mem (s : State) (c : W16) : (s.setCause c).mem = s.mem := rfl
@[simp] theorem setCause_intake (s : State) (c : W16) : (s.setCause c).intake = s.intake := rfl
@[simp] theorem setCause_site (s : State) (c : W16) : (s.setCause c).site = s.site := rfl
@[simp] theorem setCause_time (s : State) (c : W16) : (s.setCause c).time = s.time := rfl
@[simp] theorem setCause_capture (s : State) (c : W16) : (s.setCause c).capture = s.capture := rfl
@[simp] theorem setCause_visits (s : State) (c : W16) : (s.setCause c).visits = s.visits := rfl
@[simp] theorem setCause_tickets (s : State) (c : W16) : (s.setCause c).tickets = s.tickets := rfl
@[simp] theorem setCause_journal (s : State) (c : W16) : (s.setCause c).journal = s.journal := rfl
@[simp] theorem setCause_session (s : State) (c : W16) : (s.setCause c).session = s.session := rfl
@[simp] theorem setCause_sealLine (s : State) (c : W16) : (s.setCause c).sealLine = s.sealLine := rfl
@[simp] theorem setCause_store (s : State) (c : W16) : (s.setCause c).store = s.store := rfl
@[simp] theorem setCause_audit (s : State) (c : W16) : (s.setCause c).audit = s.audit := rfl
@[simp] theorem setCause_unfinished (s : State) (c : W16) : (s.setCause c).unfinished = s.unfinished := rfl

/-! `State.clearCause`. -/

@[simp] theorem clearCause_pending (s : State) (c : W16) : (s.clearCause c).pending = s.pending := rfl
@[simp] theorem clearCause_power (s : State) (c : W16) : (s.clearCause c).power = s.power := rfl
@[simp] theorem clearCause_pins (s : State) (c : W16) : (s.clearCause c).pins = s.pins := rfl
@[simp] theorem clearCause_clock (s : State) (c : W16) : (s.clearCause c).clock = s.clock := rfl
@[simp] theorem clearCause_link (s : State) (c : W16) : (s.clearCause c).link = s.link := rfl
@[simp] theorem clearCause_back (s : State) (c : W16) : (s.clearCause c).back = s.back := rfl
@[simp] theorem clearCause_cells (s : State) (c : W16) : (s.clearCause c).cells = s.cells := rfl
@[simp] theorem clearCause_metro (s : State) (c : W16) : (s.clearCause c).metro = s.metro := rfl
@[simp] theorem clearCause_chain (s : State) (c : W16) : (s.clearCause c).chain = s.chain := rfl
@[simp] theorem clearCause_monitor (s : State) (c : W16) : (s.clearCause c).monitor = s.monitor := rfl
@[simp] theorem clearCause_tracker (s : State) (c : W16) : (s.clearCause c).tracker = s.tracker := rfl
@[simp] theorem clearCause_lane (s : State) (c : W16) : (s.clearCause c).lane = s.lane := rfl
@[simp] theorem clearCause_mem (s : State) (c : W16) : (s.clearCause c).mem = s.mem := rfl
@[simp] theorem clearCause_intake (s : State) (c : W16) : (s.clearCause c).intake = s.intake := rfl
@[simp] theorem clearCause_site (s : State) (c : W16) : (s.clearCause c).site = s.site := rfl
@[simp] theorem clearCause_time (s : State) (c : W16) : (s.clearCause c).time = s.time := rfl
@[simp] theorem clearCause_capture (s : State) (c : W16) : (s.clearCause c).capture = s.capture := rfl
@[simp] theorem clearCause_visits (s : State) (c : W16) : (s.clearCause c).visits = s.visits := rfl
@[simp] theorem clearCause_tickets (s : State) (c : W16) : (s.clearCause c).tickets = s.tickets := rfl
@[simp] theorem clearCause_journal (s : State) (c : W16) : (s.clearCause c).journal = s.journal := rfl
@[simp] theorem clearCause_session (s : State) (c : W16) : (s.clearCause c).session = s.session := rfl
@[simp] theorem clearCause_sealLine (s : State) (c : W16) : (s.clearCause c).sealLine = s.sealLine := rfl
@[simp] theorem clearCause_store (s : State) (c : W16) : (s.clearCause c).store = s.store := rfl
@[simp] theorem clearCause_audit (s : State) (c : W16) : (s.clearCause c).audit = s.audit := rfl
@[simp] theorem clearCause_unfinished (s : State) (c : W16) : (s.clearCause c).unfinished = s.unfinished := rfl

/-! `State.answer`. -/

@[simp] theorem answer_pending (s : State) (k : SlotId) (code : AnswerCode) (body : List Byte) : (s.answer k code body).pending = s.pending := by
  simp only [State.answer, setCause_pending, writeWord_pending, writeRun_pending]
@[simp] theorem answer_power (s : State) (k : SlotId) (code : AnswerCode) (body : List Byte) : (s.answer k code body).power = s.power := by
  simp only [State.answer, setCause_power, writeWord_power, writeRun_power]
@[simp] theorem answer_pins (s : State) (k : SlotId) (code : AnswerCode) (body : List Byte) : (s.answer k code body).pins = s.pins := by
  simp only [State.answer, setCause_pins, writeWord_pins, writeRun_pins]
@[simp] theorem answer_clock (s : State) (k : SlotId) (code : AnswerCode) (body : List Byte) : (s.answer k code body).clock = s.clock := by
  simp only [State.answer, setCause_clock, writeWord_clock, writeRun_clock]
@[simp] theorem answer_link (s : State) (k : SlotId) (code : AnswerCode) (body : List Byte) : (s.answer k code body).link = s.link := by
  simp only [State.answer, setCause_link, writeWord_link, writeRun_link]
@[simp] theorem answer_back (s : State) (k : SlotId) (code : AnswerCode) (body : List Byte) : (s.answer k code body).back = s.back := by
  simp only [State.answer, setCause_back, writeWord_back, writeRun_back]
@[simp] theorem answer_cells (s : State) (k : SlotId) (code : AnswerCode) (body : List Byte) : (s.answer k code body).cells = s.cells := by
  simp only [State.answer, setCause_cells, writeWord_cells, writeRun_cells]
@[simp] theorem answer_metro (s : State) (k : SlotId) (code : AnswerCode) (body : List Byte) : (s.answer k code body).metro = s.metro := by
  simp only [State.answer, setCause_metro, writeWord_metro, writeRun_metro]
@[simp] theorem answer_chain (s : State) (k : SlotId) (code : AnswerCode) (body : List Byte) : (s.answer k code body).chain = s.chain := by
  simp only [State.answer, setCause_chain, writeWord_chain, writeRun_chain]
@[simp] theorem answer_monitor (s : State) (k : SlotId) (code : AnswerCode) (body : List Byte) : (s.answer k code body).monitor = s.monitor := by
  simp only [State.answer, setCause_monitor, writeWord_monitor, writeRun_monitor]
@[simp] theorem answer_tracker (s : State) (k : SlotId) (code : AnswerCode) (body : List Byte) : (s.answer k code body).tracker = s.tracker := by
  simp only [State.answer, setCause_tracker, writeWord_tracker, writeRun_tracker]
@[simp] theorem answer_lane (s : State) (k : SlotId) (code : AnswerCode) (body : List Byte) : (s.answer k code body).lane = s.lane := by
  simp only [State.answer, setCause_lane, writeWord_lane, writeRun_lane]
@[simp] theorem answer_site (s : State) (k : SlotId) (code : AnswerCode) (body : List Byte) : (s.answer k code body).site = s.site := by
  simp only [State.answer, setCause_site, writeWord_site, writeRun_site]
@[simp] theorem answer_time (s : State) (k : SlotId) (code : AnswerCode) (body : List Byte) : (s.answer k code body).time = s.time := by
  simp only [State.answer, setCause_time, writeWord_time, writeRun_time]
@[simp] theorem answer_capture (s : State) (k : SlotId) (code : AnswerCode) (body : List Byte) : (s.answer k code body).capture = s.capture := by
  simp only [State.answer, setCause_capture, writeWord_capture, writeRun_capture]
@[simp] theorem answer_visits (s : State) (k : SlotId) (code : AnswerCode) (body : List Byte) : (s.answer k code body).visits = s.visits := by
  simp only [State.answer, setCause_visits, writeWord_visits, writeRun_visits]
@[simp] theorem answer_tickets (s : State) (k : SlotId) (code : AnswerCode) (body : List Byte) : (s.answer k code body).tickets = s.tickets := by
  simp only [State.answer, setCause_tickets, writeWord_tickets, writeRun_tickets]
@[simp] theorem answer_journal (s : State) (k : SlotId) (code : AnswerCode) (body : List Byte) : (s.answer k code body).journal = s.journal := by
  simp only [State.answer, setCause_journal, writeWord_journal, writeRun_journal]
@[simp] theorem answer_session (s : State) (k : SlotId) (code : AnswerCode) (body : List Byte) : (s.answer k code body).session = s.session := by
  simp only [State.answer, setCause_session, writeWord_session, writeRun_session]
@[simp] theorem answer_sealLine (s : State) (k : SlotId) (code : AnswerCode) (body : List Byte) : (s.answer k code body).sealLine = s.sealLine := by
  simp only [State.answer, setCause_sealLine, writeWord_sealLine, writeRun_sealLine]
@[simp] theorem answer_store (s : State) (k : SlotId) (code : AnswerCode) (body : List Byte) : (s.answer k code body).store = s.store := by
  simp only [State.answer, setCause_store, writeWord_store, writeRun_store]
@[simp] theorem answer_audit (s : State) (k : SlotId) (code : AnswerCode) (body : List Byte) : (s.answer k code body).audit = s.audit := by
  simp only [State.answer, setCause_audit, writeWord_audit, writeRun_audit]
@[simp] theorem answer_unfinished (s : State) (k : SlotId) (code : AnswerCode) (body : List Byte) : (s.answer k code body).unfinished = s.unfinished := by
  simp only [State.answer, setCause_unfinished, writeWord_unfinished, writeRun_unfinished]

/-! `State.setCell`. -/

@[simp] theorem setCell_pending (s : State) (c : CellId) (x : Cell) : (s.setCell c x).pending = s.pending := rfl
@[simp] theorem setCell_power (s : State) (c : CellId) (x : Cell) : (s.setCell c x).power = s.power := rfl
@[simp] theorem setCell_pins (s : State) (c : CellId) (x : Cell) : (s.setCell c x).pins = s.pins := rfl
@[simp] theorem setCell_clock (s : State) (c : CellId) (x : Cell) : (s.setCell c x).clock = s.clock := rfl
@[simp] theorem setCell_link (s : State) (c : CellId) (x : Cell) : (s.setCell c x).link = s.link := rfl
@[simp] theorem setCell_back (s : State) (c : CellId) (x : Cell) : (s.setCell c x).back = s.back := rfl
@[simp] theorem setCell_metro (s : State) (c : CellId) (x : Cell) : (s.setCell c x).metro = s.metro := rfl
@[simp] theorem setCell_chain (s : State) (c : CellId) (x : Cell) : (s.setCell c x).chain = s.chain := rfl
@[simp] theorem setCell_monitor (s : State) (c : CellId) (x : Cell) : (s.setCell c x).monitor = s.monitor := rfl
@[simp] theorem setCell_tracker (s : State) (c : CellId) (x : Cell) : (s.setCell c x).tracker = s.tracker := rfl
@[simp] theorem setCell_lane (s : State) (c : CellId) (x : Cell) : (s.setCell c x).lane = s.lane := rfl
@[simp] theorem setCell_mem (s : State) (c : CellId) (x : Cell) : (s.setCell c x).mem = s.mem := rfl
@[simp] theorem setCell_regs (s : State) (c : CellId) (x : Cell) : (s.setCell c x).regs = s.regs := rfl
@[simp] theorem setCell_intake (s : State) (c : CellId) (x : Cell) : (s.setCell c x).intake = s.intake := rfl
@[simp] theorem setCell_site (s : State) (c : CellId) (x : Cell) : (s.setCell c x).site = s.site := rfl
@[simp] theorem setCell_time (s : State) (c : CellId) (x : Cell) : (s.setCell c x).time = s.time := rfl
@[simp] theorem setCell_capture (s : State) (c : CellId) (x : Cell) : (s.setCell c x).capture = s.capture := rfl
@[simp] theorem setCell_visits (s : State) (c : CellId) (x : Cell) : (s.setCell c x).visits = s.visits := rfl
@[simp] theorem setCell_tickets (s : State) (c : CellId) (x : Cell) : (s.setCell c x).tickets = s.tickets := rfl
@[simp] theorem setCell_journal (s : State) (c : CellId) (x : Cell) : (s.setCell c x).journal = s.journal := rfl
@[simp] theorem setCell_session (s : State) (c : CellId) (x : Cell) : (s.setCell c x).session = s.session := rfl
@[simp] theorem setCell_sealLine (s : State) (c : CellId) (x : Cell) : (s.setCell c x).sealLine = s.sealLine := rfl
@[simp] theorem setCell_store (s : State) (c : CellId) (x : Cell) : (s.setCell c x).store = s.store := rfl
@[simp] theorem setCell_audit (s : State) (c : CellId) (x : Cell) : (s.setCell c x).audit = s.audit := rfl
@[simp] theorem setCell_unfinished (s : State) (c : CellId) (x : Cell) : (s.setCell c x).unfinished = s.unfinished := rfl

/-! `State.setMonitor`. -/

@[simp] theorem setMonitor_pending (s : State) (d : DeckId) (x : DeckMonitor) : (s.setMonitor d x).pending = s.pending := rfl
@[simp] theorem setMonitor_power (s : State) (d : DeckId) (x : DeckMonitor) : (s.setMonitor d x).power = s.power := rfl
@[simp] theorem setMonitor_pins (s : State) (d : DeckId) (x : DeckMonitor) : (s.setMonitor d x).pins = s.pins := rfl
@[simp] theorem setMonitor_clock (s : State) (d : DeckId) (x : DeckMonitor) : (s.setMonitor d x).clock = s.clock := rfl
@[simp] theorem setMonitor_link (s : State) (d : DeckId) (x : DeckMonitor) : (s.setMonitor d x).link = s.link := rfl
@[simp] theorem setMonitor_back (s : State) (d : DeckId) (x : DeckMonitor) : (s.setMonitor d x).back = s.back := rfl
@[simp] theorem setMonitor_cells (s : State) (d : DeckId) (x : DeckMonitor) : (s.setMonitor d x).cells = s.cells := rfl
@[simp] theorem setMonitor_metro (s : State) (d : DeckId) (x : DeckMonitor) : (s.setMonitor d x).metro = s.metro := rfl
@[simp] theorem setMonitor_chain (s : State) (d : DeckId) (x : DeckMonitor) : (s.setMonitor d x).chain = s.chain := rfl
@[simp] theorem setMonitor_tracker (s : State) (d : DeckId) (x : DeckMonitor) : (s.setMonitor d x).tracker = s.tracker := rfl
@[simp] theorem setMonitor_lane (s : State) (d : DeckId) (x : DeckMonitor) : (s.setMonitor d x).lane = s.lane := rfl
@[simp] theorem setMonitor_mem (s : State) (d : DeckId) (x : DeckMonitor) : (s.setMonitor d x).mem = s.mem := rfl
@[simp] theorem setMonitor_regs (s : State) (d : DeckId) (x : DeckMonitor) : (s.setMonitor d x).regs = s.regs := rfl
@[simp] theorem setMonitor_intake (s : State) (d : DeckId) (x : DeckMonitor) : (s.setMonitor d x).intake = s.intake := rfl
@[simp] theorem setMonitor_site (s : State) (d : DeckId) (x : DeckMonitor) : (s.setMonitor d x).site = s.site := rfl
@[simp] theorem setMonitor_time (s : State) (d : DeckId) (x : DeckMonitor) : (s.setMonitor d x).time = s.time := rfl
@[simp] theorem setMonitor_capture (s : State) (d : DeckId) (x : DeckMonitor) : (s.setMonitor d x).capture = s.capture := rfl
@[simp] theorem setMonitor_visits (s : State) (d : DeckId) (x : DeckMonitor) : (s.setMonitor d x).visits = s.visits := rfl
@[simp] theorem setMonitor_tickets (s : State) (d : DeckId) (x : DeckMonitor) : (s.setMonitor d x).tickets = s.tickets := rfl
@[simp] theorem setMonitor_journal (s : State) (d : DeckId) (x : DeckMonitor) : (s.setMonitor d x).journal = s.journal := rfl
@[simp] theorem setMonitor_session (s : State) (d : DeckId) (x : DeckMonitor) : (s.setMonitor d x).session = s.session := rfl
@[simp] theorem setMonitor_sealLine (s : State) (d : DeckId) (x : DeckMonitor) : (s.setMonitor d x).sealLine = s.sealLine := rfl
@[simp] theorem setMonitor_store (s : State) (d : DeckId) (x : DeckMonitor) : (s.setMonitor d x).store = s.store := rfl
@[simp] theorem setMonitor_audit (s : State) (d : DeckId) (x : DeckMonitor) : (s.setMonitor d x).audit = s.audit := rfl
@[simp] theorem setMonitor_unfinished (s : State) (d : DeckId) (x : DeckMonitor) : (s.setMonitor d x).unfinished = s.unfinished := rfl

/-! `State.markCause`. -/

@[simp] theorem markCause_pending (s : State) (k : Cause) : (s.markCause k).pending = s.pending := rfl
@[simp] theorem markCause_power (s : State) (k : Cause) : (s.markCause k).power = s.power := rfl
@[simp] theorem markCause_pins (s : State) (k : Cause) : (s.markCause k).pins = s.pins := rfl
@[simp] theorem markCause_clock (s : State) (k : Cause) : (s.markCause k).clock = s.clock := rfl
@[simp] theorem markCause_link (s : State) (k : Cause) : (s.markCause k).link = s.link := rfl
@[simp] theorem markCause_back (s : State) (k : Cause) : (s.markCause k).back = s.back := rfl
@[simp] theorem markCause_cells (s : State) (k : Cause) : (s.markCause k).cells = s.cells := rfl
@[simp] theorem markCause_metro (s : State) (k : Cause) : (s.markCause k).metro = s.metro := rfl
@[simp] theorem markCause_chain (s : State) (k : Cause) : (s.markCause k).chain = s.chain := rfl
@[simp] theorem markCause_monitor (s : State) (k : Cause) : (s.markCause k).monitor = s.monitor := rfl
@[simp] theorem markCause_tracker (s : State) (k : Cause) : (s.markCause k).tracker = s.tracker := rfl
@[simp] theorem markCause_mem (s : State) (k : Cause) : (s.markCause k).mem = s.mem := rfl
@[simp] theorem markCause_regs (s : State) (k : Cause) : (s.markCause k).regs = s.regs := rfl
@[simp] theorem markCause_intake (s : State) (k : Cause) : (s.markCause k).intake = s.intake := rfl
@[simp] theorem markCause_site (s : State) (k : Cause) : (s.markCause k).site = s.site := rfl
@[simp] theorem markCause_time (s : State) (k : Cause) : (s.markCause k).time = s.time := rfl
@[simp] theorem markCause_capture (s : State) (k : Cause) : (s.markCause k).capture = s.capture := rfl
@[simp] theorem markCause_visits (s : State) (k : Cause) : (s.markCause k).visits = s.visits := rfl
@[simp] theorem markCause_tickets (s : State) (k : Cause) : (s.markCause k).tickets = s.tickets := rfl
@[simp] theorem markCause_journal (s : State) (k : Cause) : (s.markCause k).journal = s.journal := rfl
@[simp] theorem markCause_session (s : State) (k : Cause) : (s.markCause k).session = s.session := rfl
@[simp] theorem markCause_sealLine (s : State) (k : Cause) : (s.markCause k).sealLine = s.sealLine := rfl
@[simp] theorem markCause_store (s : State) (k : Cause) : (s.markCause k).store = s.store := rfl
@[simp] theorem markCause_audit (s : State) (k : Cause) : (s.markCause k).audit = s.audit := rfl
@[simp] theorem markCause_unfinished (s : State) (k : Cause) : (s.markCause k).unfinished = s.unfinished := rfl

/-! `State.unmarkCause`. -/

@[simp] theorem unmarkCause_pending (s : State) (k : Cause) : (s.unmarkCause k).pending = s.pending := rfl
@[simp] theorem unmarkCause_power (s : State) (k : Cause) : (s.unmarkCause k).power = s.power := rfl
@[simp] theorem unmarkCause_pins (s : State) (k : Cause) : (s.unmarkCause k).pins = s.pins := rfl
@[simp] theorem unmarkCause_clock (s : State) (k : Cause) : (s.unmarkCause k).clock = s.clock := rfl
@[simp] theorem unmarkCause_link (s : State) (k : Cause) : (s.unmarkCause k).link = s.link := rfl
@[simp] theorem unmarkCause_back (s : State) (k : Cause) : (s.unmarkCause k).back = s.back := rfl
@[simp] theorem unmarkCause_cells (s : State) (k : Cause) : (s.unmarkCause k).cells = s.cells := rfl
@[simp] theorem unmarkCause_metro (s : State) (k : Cause) : (s.unmarkCause k).metro = s.metro := rfl
@[simp] theorem unmarkCause_chain (s : State) (k : Cause) : (s.unmarkCause k).chain = s.chain := rfl
@[simp] theorem unmarkCause_monitor (s : State) (k : Cause) : (s.unmarkCause k).monitor = s.monitor := rfl
@[simp] theorem unmarkCause_tracker (s : State) (k : Cause) : (s.unmarkCause k).tracker = s.tracker := rfl
@[simp] theorem unmarkCause_mem (s : State) (k : Cause) : (s.unmarkCause k).mem = s.mem := rfl
@[simp] theorem unmarkCause_regs (s : State) (k : Cause) : (s.unmarkCause k).regs = s.regs := rfl
@[simp] theorem unmarkCause_intake (s : State) (k : Cause) : (s.unmarkCause k).intake = s.intake := rfl
@[simp] theorem unmarkCause_site (s : State) (k : Cause) : (s.unmarkCause k).site = s.site := rfl
@[simp] theorem unmarkCause_time (s : State) (k : Cause) : (s.unmarkCause k).time = s.time := rfl
@[simp] theorem unmarkCause_capture (s : State) (k : Cause) : (s.unmarkCause k).capture = s.capture := rfl
@[simp] theorem unmarkCause_visits (s : State) (k : Cause) : (s.unmarkCause k).visits = s.visits := rfl
@[simp] theorem unmarkCause_tickets (s : State) (k : Cause) : (s.unmarkCause k).tickets = s.tickets := rfl
@[simp] theorem unmarkCause_journal (s : State) (k : Cause) : (s.unmarkCause k).journal = s.journal := rfl
@[simp] theorem unmarkCause_session (s : State) (k : Cause) : (s.unmarkCause k).session = s.session := rfl
@[simp] theorem unmarkCause_sealLine (s : State) (k : Cause) : (s.unmarkCause k).sealLine = s.sealLine := rfl
@[simp] theorem unmarkCause_store (s : State) (k : Cause) : (s.unmarkCause k).store = s.store := rfl
@[simp] theorem unmarkCause_audit (s : State) (k : Cause) : (s.unmarkCause k).audit = s.audit := rfl
@[simp] theorem unmarkCause_unfinished (s : State) (k : Cause) : (s.unmarkCause k).unfinished = s.unfinished := rfl

/-! `State.setPlace`. -/

@[simp] theorem setPlace_pending (s : State) (i : Nat) (v : Option Visit) : (s.setPlace i v).pending = s.pending := rfl
@[simp] theorem setPlace_power (s : State) (i : Nat) (v : Option Visit) : (s.setPlace i v).power = s.power := rfl
@[simp] theorem setPlace_pins (s : State) (i : Nat) (v : Option Visit) : (s.setPlace i v).pins = s.pins := rfl
@[simp] theorem setPlace_clock (s : State) (i : Nat) (v : Option Visit) : (s.setPlace i v).clock = s.clock := rfl
@[simp] theorem setPlace_link (s : State) (i : Nat) (v : Option Visit) : (s.setPlace i v).link = s.link := rfl
@[simp] theorem setPlace_back (s : State) (i : Nat) (v : Option Visit) : (s.setPlace i v).back = s.back := rfl
@[simp] theorem setPlace_cells (s : State) (i : Nat) (v : Option Visit) : (s.setPlace i v).cells = s.cells := rfl
@[simp] theorem setPlace_metro (s : State) (i : Nat) (v : Option Visit) : (s.setPlace i v).metro = s.metro := rfl
@[simp] theorem setPlace_chain (s : State) (i : Nat) (v : Option Visit) : (s.setPlace i v).chain = s.chain := rfl
@[simp] theorem setPlace_monitor (s : State) (i : Nat) (v : Option Visit) : (s.setPlace i v).monitor = s.monitor := rfl
@[simp] theorem setPlace_tracker (s : State) (i : Nat) (v : Option Visit) : (s.setPlace i v).tracker = s.tracker := rfl
@[simp] theorem setPlace_lane (s : State) (i : Nat) (v : Option Visit) : (s.setPlace i v).lane = s.lane := rfl
@[simp] theorem setPlace_mem (s : State) (i : Nat) (v : Option Visit) : (s.setPlace i v).mem = s.mem := rfl
@[simp] theorem setPlace_regs (s : State) (i : Nat) (v : Option Visit) : (s.setPlace i v).regs = s.regs := rfl
@[simp] theorem setPlace_intake (s : State) (i : Nat) (v : Option Visit) : (s.setPlace i v).intake = s.intake := rfl
@[simp] theorem setPlace_site (s : State) (i : Nat) (v : Option Visit) : (s.setPlace i v).site = s.site := rfl
@[simp] theorem setPlace_time (s : State) (i : Nat) (v : Option Visit) : (s.setPlace i v).time = s.time := rfl
@[simp] theorem setPlace_capture (s : State) (i : Nat) (v : Option Visit) : (s.setPlace i v).capture = s.capture := rfl
@[simp] theorem setPlace_tickets (s : State) (i : Nat) (v : Option Visit) : (s.setPlace i v).tickets = s.tickets := rfl
@[simp] theorem setPlace_journal (s : State) (i : Nat) (v : Option Visit) : (s.setPlace i v).journal = s.journal := rfl
@[simp] theorem setPlace_session (s : State) (i : Nat) (v : Option Visit) : (s.setPlace i v).session = s.session := rfl
@[simp] theorem setPlace_sealLine (s : State) (i : Nat) (v : Option Visit) : (s.setPlace i v).sealLine = s.sealLine := rfl
@[simp] theorem setPlace_store (s : State) (i : Nat) (v : Option Visit) : (s.setPlace i v).store = s.store := rfl
@[simp] theorem setPlace_audit (s : State) (i : Nat) (v : Option Visit) : (s.setPlace i v).audit = s.audit := rfl
@[simp] theorem setPlace_unfinished (s : State) (i : Nat) (v : Option Visit) : (s.setPlace i v).unfinished = s.unfinished := rfl

/-! `State.setTraverse`. -/

@[simp] theorem setTraverse_pending (s : State) (t : Option Traverse) : (s.setTraverse t).pending = s.pending := rfl
@[simp] theorem setTraverse_power (s : State) (t : Option Traverse) : (s.setTraverse t).power = s.power := rfl
@[simp] theorem setTraverse_pins (s : State) (t : Option Traverse) : (s.setTraverse t).pins = s.pins := rfl
@[simp] theorem setTraverse_clock (s : State) (t : Option Traverse) : (s.setTraverse t).clock = s.clock := rfl
@[simp] theorem setTraverse_link (s : State) (t : Option Traverse) : (s.setTraverse t).link = s.link := rfl
@[simp] theorem setTraverse_back (s : State) (t : Option Traverse) : (s.setTraverse t).back = s.back := rfl
@[simp] theorem setTraverse_cells (s : State) (t : Option Traverse) : (s.setTraverse t).cells = s.cells := rfl
@[simp] theorem setTraverse_metro (s : State) (t : Option Traverse) : (s.setTraverse t).metro = s.metro := rfl
@[simp] theorem setTraverse_chain (s : State) (t : Option Traverse) : (s.setTraverse t).chain = s.chain := rfl
@[simp] theorem setTraverse_monitor (s : State) (t : Option Traverse) : (s.setTraverse t).monitor = s.monitor := rfl
@[simp] theorem setTraverse_lane (s : State) (t : Option Traverse) : (s.setTraverse t).lane = s.lane := rfl
@[simp] theorem setTraverse_mem (s : State) (t : Option Traverse) : (s.setTraverse t).mem = s.mem := rfl
@[simp] theorem setTraverse_regs (s : State) (t : Option Traverse) : (s.setTraverse t).regs = s.regs := rfl
@[simp] theorem setTraverse_intake (s : State) (t : Option Traverse) : (s.setTraverse t).intake = s.intake := rfl
@[simp] theorem setTraverse_site (s : State) (t : Option Traverse) : (s.setTraverse t).site = s.site := rfl
@[simp] theorem setTraverse_time (s : State) (t : Option Traverse) : (s.setTraverse t).time = s.time := rfl
@[simp] theorem setTraverse_capture (s : State) (t : Option Traverse) : (s.setTraverse t).capture = s.capture := rfl
@[simp] theorem setTraverse_visits (s : State) (t : Option Traverse) : (s.setTraverse t).visits = s.visits := rfl
@[simp] theorem setTraverse_tickets (s : State) (t : Option Traverse) : (s.setTraverse t).tickets = s.tickets := rfl
@[simp] theorem setTraverse_journal (s : State) (t : Option Traverse) : (s.setTraverse t).journal = s.journal := rfl
@[simp] theorem setTraverse_session (s : State) (t : Option Traverse) : (s.setTraverse t).session = s.session := rfl
@[simp] theorem setTraverse_sealLine (s : State) (t : Option Traverse) : (s.setTraverse t).sealLine = s.sealLine := rfl
@[simp] theorem setTraverse_store (s : State) (t : Option Traverse) : (s.setTraverse t).store = s.store := rfl
@[simp] theorem setTraverse_audit (s : State) (t : Option Traverse) : (s.setTraverse t).audit = s.audit := rfl
@[simp] theorem setTraverse_unfinished (s : State) (t : Option Traverse) : (s.setTraverse t).unfinished = s.unfinished := rfl

/-! `State.requestJob`. -/

@[simp] theorem requestJob_pending (s : State) (kind : JobKind) (rows : List RowWrite) : (s.requestJob kind rows).pending = s.pending := rfl
@[simp] theorem requestJob_power (s : State) (kind : JobKind) (rows : List RowWrite) : (s.requestJob kind rows).power = s.power := rfl
@[simp] theorem requestJob_pins (s : State) (kind : JobKind) (rows : List RowWrite) : (s.requestJob kind rows).pins = s.pins := rfl
@[simp] theorem requestJob_clock (s : State) (kind : JobKind) (rows : List RowWrite) : (s.requestJob kind rows).clock = s.clock := rfl
@[simp] theorem requestJob_link (s : State) (kind : JobKind) (rows : List RowWrite) : (s.requestJob kind rows).link = s.link := rfl
@[simp] theorem requestJob_back (s : State) (kind : JobKind) (rows : List RowWrite) : (s.requestJob kind rows).back = s.back := rfl
@[simp] theorem requestJob_cells (s : State) (kind : JobKind) (rows : List RowWrite) : (s.requestJob kind rows).cells = s.cells := rfl
@[simp] theorem requestJob_metro (s : State) (kind : JobKind) (rows : List RowWrite) : (s.requestJob kind rows).metro = s.metro := rfl
@[simp] theorem requestJob_chain (s : State) (kind : JobKind) (rows : List RowWrite) : (s.requestJob kind rows).chain = s.chain := rfl
@[simp] theorem requestJob_monitor (s : State) (kind : JobKind) (rows : List RowWrite) : (s.requestJob kind rows).monitor = s.monitor := rfl
@[simp] theorem requestJob_tracker (s : State) (kind : JobKind) (rows : List RowWrite) : (s.requestJob kind rows).tracker = s.tracker := rfl
@[simp] theorem requestJob_lane (s : State) (kind : JobKind) (rows : List RowWrite) : (s.requestJob kind rows).lane = s.lane := rfl
@[simp] theorem requestJob_mem (s : State) (kind : JobKind) (rows : List RowWrite) : (s.requestJob kind rows).mem = s.mem := rfl
@[simp] theorem requestJob_regs (s : State) (kind : JobKind) (rows : List RowWrite) : (s.requestJob kind rows).regs = s.regs := rfl
@[simp] theorem requestJob_intake (s : State) (kind : JobKind) (rows : List RowWrite) : (s.requestJob kind rows).intake = s.intake := rfl
@[simp] theorem requestJob_site (s : State) (kind : JobKind) (rows : List RowWrite) : (s.requestJob kind rows).site = s.site := rfl
@[simp] theorem requestJob_time (s : State) (kind : JobKind) (rows : List RowWrite) : (s.requestJob kind rows).time = s.time := rfl
@[simp] theorem requestJob_capture (s : State) (kind : JobKind) (rows : List RowWrite) : (s.requestJob kind rows).capture = s.capture := rfl
@[simp] theorem requestJob_visits (s : State) (kind : JobKind) (rows : List RowWrite) : (s.requestJob kind rows).visits = s.visits := rfl
@[simp] theorem requestJob_tickets (s : State) (kind : JobKind) (rows : List RowWrite) : (s.requestJob kind rows).tickets = s.tickets := rfl
@[simp] theorem requestJob_journal (s : State) (kind : JobKind) (rows : List RowWrite) : (s.requestJob kind rows).journal = s.journal := rfl
@[simp] theorem requestJob_session (s : State) (kind : JobKind) (rows : List RowWrite) : (s.requestJob kind rows).session = s.session := rfl
@[simp] theorem requestJob_sealLine (s : State) (kind : JobKind) (rows : List RowWrite) : (s.requestJob kind rows).sealLine = s.sealLine := rfl
@[simp] theorem requestJob_audit (s : State) (kind : JobKind) (rows : List RowWrite) : (s.requestJob kind rows).audit = s.audit := rfl
@[simp] theorem requestJob_unfinished (s : State) (kind : JobKind) (rows : List RowWrite) : (s.requestJob kind rows).unfinished = s.unfinished := rfl

/-! `State.setPosition`. -/

@[simp] theorem setPosition_pending (s : State) (k : SlotId) : (s.setPosition k).pending = s.pending := rfl
@[simp] theorem setPosition_power (s : State) (k : SlotId) : (s.setPosition k).power = s.power := rfl
@[simp] theorem setPosition_pins (s : State) (k : SlotId) : (s.setPosition k).pins = s.pins := rfl
@[simp] theorem setPosition_clock (s : State) (k : SlotId) : (s.setPosition k).clock = s.clock := rfl
@[simp] theorem setPosition_link (s : State) (k : SlotId) : (s.setPosition k).link = s.link := rfl
@[simp] theorem setPosition_back (s : State) (k : SlotId) : (s.setPosition k).back = s.back := rfl
@[simp] theorem setPosition_cells (s : State) (k : SlotId) : (s.setPosition k).cells = s.cells := rfl
@[simp] theorem setPosition_metro (s : State) (k : SlotId) : (s.setPosition k).metro = s.metro := rfl
@[simp] theorem setPosition_chain (s : State) (k : SlotId) : (s.setPosition k).chain = s.chain := rfl
@[simp] theorem setPosition_monitor (s : State) (k : SlotId) : (s.setPosition k).monitor = s.monitor := rfl
@[simp] theorem setPosition_tracker (s : State) (k : SlotId) : (s.setPosition k).tracker = s.tracker := rfl
@[simp] theorem setPosition_lane (s : State) (k : SlotId) : (s.setPosition k).lane = s.lane := rfl
@[simp] theorem setPosition_regs (s : State) (k : SlotId) : (s.setPosition k).regs = s.regs := rfl
@[simp] theorem setPosition_site (s : State) (k : SlotId) : (s.setPosition k).site = s.site := rfl
@[simp] theorem setPosition_time (s : State) (k : SlotId) : (s.setPosition k).time = s.time := rfl
@[simp] theorem setPosition_capture (s : State) (k : SlotId) : (s.setPosition k).capture = s.capture := rfl
@[simp] theorem setPosition_visits (s : State) (k : SlotId) : (s.setPosition k).visits = s.visits := rfl
@[simp] theorem setPosition_tickets (s : State) (k : SlotId) : (s.setPosition k).tickets = s.tickets := rfl
@[simp] theorem setPosition_journal (s : State) (k : SlotId) : (s.setPosition k).journal = s.journal := rfl
@[simp] theorem setPosition_session (s : State) (k : SlotId) : (s.setPosition k).session = s.session := rfl
@[simp] theorem setPosition_sealLine (s : State) (k : SlotId) : (s.setPosition k).sealLine = s.sealLine := rfl
@[simp] theorem setPosition_store (s : State) (k : SlotId) : (s.setPosition k).store = s.store := rfl
@[simp] theorem setPosition_audit (s : State) (k : SlotId) : (s.setPosition k).audit = s.audit := rfl
@[simp] theorem setPosition_unfinished (s : State) (k : SlotId) : (s.setPosition k).unfinished = s.unfinished := rfl

/-! `State.beginOrder`. -/

@[simp] theorem beginOrder_pending (s : State) (k : SlotId) (kind : OrderKind) : (s.beginOrder k kind).pending = s.pending := rfl
@[simp] theorem beginOrder_power (s : State) (k : SlotId) (kind : OrderKind) : (s.beginOrder k kind).power = s.power := rfl
@[simp] theorem beginOrder_pins (s : State) (k : SlotId) (kind : OrderKind) : (s.beginOrder k kind).pins = s.pins := rfl
@[simp] theorem beginOrder_clock (s : State) (k : SlotId) (kind : OrderKind) : (s.beginOrder k kind).clock = s.clock := rfl
@[simp] theorem beginOrder_link (s : State) (k : SlotId) (kind : OrderKind) : (s.beginOrder k kind).link = s.link := rfl
@[simp] theorem beginOrder_back (s : State) (k : SlotId) (kind : OrderKind) : (s.beginOrder k kind).back = s.back := rfl
@[simp] theorem beginOrder_cells (s : State) (k : SlotId) (kind : OrderKind) : (s.beginOrder k kind).cells = s.cells := rfl
@[simp] theorem beginOrder_metro (s : State) (k : SlotId) (kind : OrderKind) : (s.beginOrder k kind).metro = s.metro := rfl
@[simp] theorem beginOrder_chain (s : State) (k : SlotId) (kind : OrderKind) : (s.beginOrder k kind).chain = s.chain := rfl
@[simp] theorem beginOrder_monitor (s : State) (k : SlotId) (kind : OrderKind) : (s.beginOrder k kind).monitor = s.monitor := rfl
@[simp] theorem beginOrder_tracker (s : State) (k : SlotId) (kind : OrderKind) : (s.beginOrder k kind).tracker = s.tracker := rfl
@[simp] theorem beginOrder_lane (s : State) (k : SlotId) (kind : OrderKind) : (s.beginOrder k kind).lane = s.lane := rfl
@[simp] theorem beginOrder_regs (s : State) (k : SlotId) (kind : OrderKind) : (s.beginOrder k kind).regs = s.regs := rfl
@[simp] theorem beginOrder_site (s : State) (k : SlotId) (kind : OrderKind) : (s.beginOrder k kind).site = s.site := rfl
@[simp] theorem beginOrder_time (s : State) (k : SlotId) (kind : OrderKind) : (s.beginOrder k kind).time = s.time := rfl
@[simp] theorem beginOrder_capture (s : State) (k : SlotId) (kind : OrderKind) : (s.beginOrder k kind).capture = s.capture := rfl
@[simp] theorem beginOrder_visits (s : State) (k : SlotId) (kind : OrderKind) : (s.beginOrder k kind).visits = s.visits := rfl
@[simp] theorem beginOrder_tickets (s : State) (k : SlotId) (kind : OrderKind) : (s.beginOrder k kind).tickets = s.tickets := rfl
@[simp] theorem beginOrder_journal (s : State) (k : SlotId) (kind : OrderKind) : (s.beginOrder k kind).journal = s.journal := rfl
@[simp] theorem beginOrder_session (s : State) (k : SlotId) (kind : OrderKind) : (s.beginOrder k kind).session = s.session := rfl
@[simp] theorem beginOrder_sealLine (s : State) (k : SlotId) (kind : OrderKind) : (s.beginOrder k kind).sealLine = s.sealLine := rfl
@[simp] theorem beginOrder_store (s : State) (k : SlotId) (kind : OrderKind) : (s.beginOrder k kind).store = s.store := rfl
@[simp] theorem beginOrder_audit (s : State) (k : SlotId) (kind : OrderKind) : (s.beginOrder k kind).audit = s.audit := rfl
@[simp] theorem beginOrder_unfinished (s : State) (k : SlotId) (kind : OrderKind) : (s.beginOrder k kind).unfinished = s.unfinished := rfl

/-! `State.claimStaging`. -/

@[simp] theorem claimStaging_pending (s : State) (k : SlotId) : (s.claimStaging k).pending = s.pending := rfl
@[simp] theorem claimStaging_power (s : State) (k : SlotId) : (s.claimStaging k).power = s.power := rfl
@[simp] theorem claimStaging_pins (s : State) (k : SlotId) : (s.claimStaging k).pins = s.pins := rfl
@[simp] theorem claimStaging_clock (s : State) (k : SlotId) : (s.claimStaging k).clock = s.clock := rfl
@[simp] theorem claimStaging_link (s : State) (k : SlotId) : (s.claimStaging k).link = s.link := rfl
@[simp] theorem claimStaging_back (s : State) (k : SlotId) : (s.claimStaging k).back = s.back := rfl
@[simp] theorem claimStaging_cells (s : State) (k : SlotId) : (s.claimStaging k).cells = s.cells := rfl
@[simp] theorem claimStaging_metro (s : State) (k : SlotId) : (s.claimStaging k).metro = s.metro := rfl
@[simp] theorem claimStaging_chain (s : State) (k : SlotId) : (s.claimStaging k).chain = s.chain := rfl
@[simp] theorem claimStaging_monitor (s : State) (k : SlotId) : (s.claimStaging k).monitor = s.monitor := rfl
@[simp] theorem claimStaging_tracker (s : State) (k : SlotId) : (s.claimStaging k).tracker = s.tracker := rfl
@[simp] theorem claimStaging_lane (s : State) (k : SlotId) : (s.claimStaging k).lane = s.lane := rfl
@[simp] theorem claimStaging_mem (s : State) (k : SlotId) : (s.claimStaging k).mem = s.mem := rfl
@[simp] theorem claimStaging_regs (s : State) (k : SlotId) : (s.claimStaging k).regs = s.regs := rfl
@[simp] theorem claimStaging_site (s : State) (k : SlotId) : (s.claimStaging k).site = s.site := rfl
@[simp] theorem claimStaging_time (s : State) (k : SlotId) : (s.claimStaging k).time = s.time := rfl
@[simp] theorem claimStaging_capture (s : State) (k : SlotId) : (s.claimStaging k).capture = s.capture := rfl
@[simp] theorem claimStaging_visits (s : State) (k : SlotId) : (s.claimStaging k).visits = s.visits := rfl
@[simp] theorem claimStaging_tickets (s : State) (k : SlotId) : (s.claimStaging k).tickets = s.tickets := rfl
@[simp] theorem claimStaging_journal (s : State) (k : SlotId) : (s.claimStaging k).journal = s.journal := rfl
@[simp] theorem claimStaging_session (s : State) (k : SlotId) : (s.claimStaging k).session = s.session := rfl
@[simp] theorem claimStaging_sealLine (s : State) (k : SlotId) : (s.claimStaging k).sealLine = s.sealLine := rfl
@[simp] theorem claimStaging_store (s : State) (k : SlotId) : (s.claimStaging k).store = s.store := rfl
@[simp] theorem claimStaging_audit (s : State) (k : SlotId) : (s.claimStaging k).audit = s.audit := rfl
@[simp] theorem claimStaging_unfinished (s : State) (k : SlotId) : (s.claimStaging k).unfinished = s.unfinished := rfl

/-! `State.setSession`. -/

@[simp] theorem setSession_pending (s : State) (st : SessionState) : (s.setSession st).pending = s.pending := rfl
@[simp] theorem setSession_power (s : State) (st : SessionState) : (s.setSession st).power = s.power := rfl
@[simp] theorem setSession_pins (s : State) (st : SessionState) : (s.setSession st).pins = s.pins := rfl
@[simp] theorem setSession_clock (s : State) (st : SessionState) : (s.setSession st).clock = s.clock := rfl
@[simp] theorem setSession_link (s : State) (st : SessionState) : (s.setSession st).link = s.link := rfl
@[simp] theorem setSession_back (s : State) (st : SessionState) : (s.setSession st).back = s.back := rfl
@[simp] theorem setSession_cells (s : State) (st : SessionState) : (s.setSession st).cells = s.cells := rfl
@[simp] theorem setSession_metro (s : State) (st : SessionState) : (s.setSession st).metro = s.metro := rfl
@[simp] theorem setSession_chain (s : State) (st : SessionState) : (s.setSession st).chain = s.chain := rfl
@[simp] theorem setSession_monitor (s : State) (st : SessionState) : (s.setSession st).monitor = s.monitor := rfl
@[simp] theorem setSession_tracker (s : State) (st : SessionState) : (s.setSession st).tracker = s.tracker := rfl
@[simp] theorem setSession_lane (s : State) (st : SessionState) : (s.setSession st).lane = s.lane := rfl
@[simp] theorem setSession_regs (s : State) (st : SessionState) : (s.setSession st).regs = s.regs := rfl
@[simp] theorem setSession_intake (s : State) (st : SessionState) : (s.setSession st).intake = s.intake := rfl
@[simp] theorem setSession_site (s : State) (st : SessionState) : (s.setSession st).site = s.site := rfl
@[simp] theorem setSession_time (s : State) (st : SessionState) : (s.setSession st).time = s.time := rfl
@[simp] theorem setSession_capture (s : State) (st : SessionState) : (s.setSession st).capture = s.capture := rfl
@[simp] theorem setSession_visits (s : State) (st : SessionState) : (s.setSession st).visits = s.visits := rfl
@[simp] theorem setSession_tickets (s : State) (st : SessionState) : (s.setSession st).tickets = s.tickets := rfl
@[simp] theorem setSession_journal (s : State) (st : SessionState) : (s.setSession st).journal = s.journal := rfl
@[simp] theorem setSession_sealLine (s : State) (st : SessionState) : (s.setSession st).sealLine = s.sealLine := rfl
@[simp] theorem setSession_store (s : State) (st : SessionState) : (s.setSession st).store = s.store := rfl
@[simp] theorem setSession_audit (s : State) (st : SessionState) : (s.setSession st).audit = s.audit := rfl
@[simp] theorem setSession_unfinished (s : State) (st : SessionState) : (s.setSession st).unfinished = s.unfinished := rfl

/-! The two attention registers under the named updates. -/

@[simp] theorem setCause_cause (s : State) (c : W16) : (s.setCause c).regs.cause = s.regs.cause ||| c := rfl
@[simp] theorem setCause_enable (s : State) (c : W16) : (s.setCause c).regs.enable = s.regs.enable := rfl
@[simp] theorem setCause_run (s : State) (c : W16) : (s.setCause c).regs.run = s.regs.run := rfl
@[simp] theorem setCause_restart (s : State) (c : W16) : (s.setCause c).regs.restart = s.regs.restart := rfl
@[simp] theorem setCause_refused (s : State) (c : W16) : (s.setCause c).regs.refused = s.regs.refused := rfl
@[simp] theorem clearCause_cause (s : State) (c : W16) : (s.clearCause c).regs.cause = s.regs.cause &&& ~~~c := rfl
@[simp] theorem clearCause_enable (s : State) (c : W16) : (s.clearCause c).regs.enable = s.regs.enable := rfl
@[simp] theorem clearCause_run (s : State) (c : W16) : (s.clearCause c).regs.run = s.regs.run := rfl
@[simp] theorem clearCause_restart (s : State) (c : W16) : (s.clearCause c).regs.restart = s.regs.restart := rfl
@[simp] theorem clearCause_refused (s : State) (c : W16) : (s.clearCause c).regs.refused = s.regs.refused := rfl

/-! `State.finish`. -/

/-- Where nothing is left of a cadence event, finishing does nothing. -/
theorem finish_of_whole {s : State} (h : s.unfinished = []) : s.finish = s := by
  cases s
  cases h
  rfl

end Sys2Proof.Machine
end

