-- ==== Sys2Proof/Laws/Answer.lean ====
section
/-! SUPPORT. What taking a slot's order and answering it do, said once: the words the host reads, the intake's own
state, the attention register, and every other byte as it was. -/

namespace Sys2Proof.Machine

namespace Memory

theorem SameBut.refl (p : Nat → Prop) (m : Memory) : SameBut p m m := fun _ _ => rfl

theorem SameBut.trans {p : Nat → Prop} {m n o : Memory} (h : SameBut p m n) (k : SameBut p n o) : SameBut p m o :=
  fun x hx => (k x hx).trans (h x hx)

theorem SameBut.mono {p q : Nat → Prop} {m n : Memory} (h : SameBut p m n) (k : ∀ x, p x → q x) : SameBut q m n :=
  fun x hx => h x (hx ∘ k x)

theorem SameBut.write16 {p : Nat → Prop} {m : Memory} {x : Nat} {v : W16} (w : wf m = true) (a : p x) (b : p (x + 1)) :
    SameBut p m (write16 m x v) := fun _ hy =>
  readByte_write16_other w (fun e => hy (e ▸ a)) (fun e => hy (e ▸ b))

theorem SameBut.write32 {p : Nat → Prop} {m : Memory} {x : Nat} {v : W32} (w : wf m = true)
    (a : ∀ y, x ≤ y → y < x + 4 → p y) : SameBut p m (write32 m x v) := fun _ hy =>
  readByte_write32_other w (by by_contra c; exact hy (a _ (by omega) (by omega)))

theorem SameBut.writeBytes {p : Nat → Prop} {m : Memory} {x : Nat} {bs : List Byte} (w : wf m = true)
    (a : ∀ y, x ≤ y → y < x + bs.length → p y) : SameBut p m (writeBytes m x bs) := fun y hy =>
  readByte_writeBytes_other w (by by_contra c; exact hy (a y (by omega) (by omega)))

/-- A word outside the changed bytes reads as before. -/
theorem SameBut.read16 {p : Nat → Prop} {m n : Memory} (h : SameBut p m n) {x : Nat} (a : ¬p x) (b : ¬p (x + 1)) :
    n.read16 x = m.read16 x := by
  unfold Memory.read16
  rw [h _ a, h _ b]

theorem SameBut.read32 {p : Nat → Prop} {m n : Memory} (h : SameBut p m n) {x : Nat} (a : ¬p x) (b : ¬p (x + 1))
    (c : ¬p (x + 2)) (d : ¬p (x + 3)) : n.read32 x = m.read32 x := by
  unfold Memory.read32
  rw [h.read16 a b, h.read16 c d]

theorem SameBut.readBytes {p : Nat → Prop} {m n : Memory} (h : SameBut p m n) {k : Nat} :
    ∀ {x : Nat}, (∀ y, x ≤ y → y < x + k → ¬p y) → n.readBytes x k = m.readBytes x k := by
  induction k with
  | zero => intro x _; rfl
  | succ k ih =>
    intro x a
    show n.readByte x :: n.readBytes (x + 1) k = _
    rw [h x (a x (by omega) (by omega)), ih (fun y l u => a y (by omega) (by omega))]
    rfl

/-- Bytes set to 0 read 0. -/
theorem readByte_clearBytes {m : Memory} {x n y : Nat} (h : x ≤ y ∧ y < x + n) : readByte (clearBytes m x n) y = 0 := by
  unfold clearBytes
  induction m with
  | nil => rfl
  | cons c m ih =>
    obtain ⟨a, b⟩ := c
    by_cases k : (decide (a < x) || decide (x + n ≤ a)) = true
    · rw [List.filter_cons_of_pos (by simpa using k)]
      have : y ≠ a := by
        rintro rfl
        simp only [Bool.or_eq_true, decide_eq_true_eq] at k
        omega
      unfold readByte
      rw [if_neg this]
      exact ih
    · rw [List.filter_cons_of_neg (by simpa using k)]
      exact ih

/-- Bytes elsewhere read as before. -/
theorem readByte_clearBytes_other {m : Memory} {x n y : Nat} (h : ¬(x ≤ y ∧ y < x + n)) :
    readByte (clearBytes m x n) y = readByte m y := by
  unfold clearBytes
  induction m with
  | nil => rfl
  | cons c m ih =>
    obtain ⟨a, b⟩ := c
    by_cases k : (decide (a < x) || decide (x + n ≤ a)) = true
    · rw [List.filter_cons_of_pos (by simpa using k)]
      unfold readByte
      split
      · rfl
      · exact ih
    · rw [List.filter_cons_of_neg (by simpa using k)]
      have : y ≠ a := by
        rintro rfl
        simp only [Bool.or_eq_true, decide_eq_true_eq] at k
        omega
      rw [ih]
      conv_rhs => unfold readByte
      rw [if_neg this]

theorem SameBut.clearBytes {p : Nat → Prop} {m : Memory} {x n : Nat} (a : ∀ y, x ≤ y → y < x + n → p y) :
    SameBut p m (clearBytes m x n) := fun y hy =>
  readByte_clearBytes_other fun c => hy (a y c.1 c.2)

end Memory

theorem slotBase_lower (k : SlotId) : 0x400 ≤ slotBase k := by
  unfold slotBase
  omega

theorem slotBase_upper (k : SlotId) : slotBase k + 0x80 ≤ 0xC00 := by
  unfold slotBase
  omega

theorem slotBase_other {k l : SlotId} (h : k ≠ l) : slotBase k + 0x80 ≤ slotBase l ∨ slotBase l + 0x80 ≤ slotBase k := by
  have : k.val ≠ l.val := fun e => h (Fin.ext e)
  unfold slotBase
  omega

theorem pageBase_lower (p : PageId) : 0x1C00 ≤ pageBase p := by
  unfold pageBase
  omega

theorem pageBase_upper (p : PageId) : pageBase p + 0x100 ≤ 0x8000 := by
  unfold pageBase
  omega

/-- The text of an answer is 64 bytes long. -/
theorem padTo_length {n : Nat} {bs : List Byte} (h : bs.length ≤ n) : (padTo n bs).length = n := by
  unfold padTo
  simp only [List.length_append, List.length_replicate]
  omega

/-- The two cases in which an owner finds the order it answers in the intake: just taken, or with the claim too. -/
structure Holds (k : SlotId) (s u : State) : Prop where
  flight : u.intake.flight.filter (fun f => f.slot != k) = s.intake.flight.filter fun f => f.slot != k
  claim :
    (if u.intake.claim = some k then none else u.intake.claim)
      = if s.intake.claim = some k then none else s.intake.claim

/-- The memory after an answer (R110). -/
theorem answer_mem (u : State) (k : SlotId) (code : AnswerCode) (body : List Byte) :
    (u.answer k code body).mem =
      (((u.mem.writeBytes (slotBase k + 0x40) (padTo 64 body)).write16 (slotBase k + 8)
        (BitVec.ofNat 16 body.length)).write16 (slotBase k + 6) code.code).write16 (slotBase k) slotAnswered := by
  simp only [State.answer, setCause_mem, writeWord_mem, writeRun_mem]

theorem answer_regs (u : State) (k : SlotId) (code : AnswerCode) (body : List Byte) :
    (u.answer k code body).regs = { u.regs with cause := u.regs.cause ||| causeAnswer } := by
  simp only [State.answer, State.setCause, writeWord_regs, writeRun_regs]

/-- The intake after an answer (R108, R110). -/
theorem answer_intake (u : State) (k : SlotId) (code : AnswerCode) (body : List Byte) :
    (u.answer k code body).intake =
      { u.intake with
        flight := u.intake.flight.filter fun f => f.slot != k
        claim := if u.intake.claim = some k then none else u.intake.claim } := by
  simp only [State.answer, setCause_intake, writeWord_intake, writeRun_intake, beq_iff_eq]

theorem setPosition_mem (u : State) (k : SlotId) :
    (u.setPosition k).mem = u.mem.write16 hdrSweep (BitVec.ofNat 16 k.val) := rfl

theorem setPosition_intake (u : State) (k : SlotId) : (u.setPosition k).intake = { u.intake with position := k } := rfl

/-- What the answer of an order just taken leaves (R106, R107, R110). -/
theorem answer_answered {s u : State} {k : SlotId} {code : AnswerCode} {body : List Byte} (w : u.mem.wf = true)
    (l : body.length ≤ 64) (h : Holds k s u) : Answered k code body s ((u.answer k code body).setPosition k) := by
  have lo := slotBase_lower k
  have up := slotBase_upper k
  have pl := padTo_length l
  have sz : Memory.size = 0x8000 := rfl
  have hs : hdrSweep = 0x22 := rfl
  have w1 := Memory.writeBytes_wf (x := slotBase k + 0x40) (bs := padTo 64 body) w
  have w2 := Memory.write16_wf (x := slotBase k + 8) (v := BitVec.ofNat 16 body.length) w1
  have w3 := Memory.write16_wf (x := slotBase k + 6) (v := code.code) w2
  have w4 := Memory.write16_wf (x := slotBase k) (v := slotAnswered) w3
  have m := (setPosition_mem (u.answer k code body) k).trans (congrArg (Memory.write16 · _ _) (answer_mem u k code body))
  refine ⟨?_, ?_, ?_, ?_, ?_, ?_, ?_⟩
  · unfold State.slotState
    rw [m, Memory.read16_write16_other w4 (by omega), Memory.read16_write16 w3 (by omega)]
  · rw [m, Memory.read16_write16_other w4 (by omega), Memory.read16_write16_other w3 (by omega),
      Memory.read16_write16 w2 (by omega)]
  · rw [m, Memory.read16_write16_other w4 (by omega), Memory.read16_write16_other w3 (by omega),
      Memory.read16_write16_other w2 (by omega), Memory.read16_write16 w1 (by omega)]
  · have q := Memory.readBytes_writeBytes (x := slotBase k + 0x40) (bs := padTo 64 body) w (by omega)
    rw [pl] at q
    rw [m]
    refine Eq.trans ?_ q
    refine Memory.SameBut.readBytes (p := fun y => y < slotBase k + 0x40) ?_ (fun y a _ => by omega)
    exact (((Memory.SameBut.write16 w1 (by omega) (by omega)).trans
      (Memory.SameBut.write16 w2 (by omega) (by omega))).trans
      (Memory.SameBut.write16 w3 (by omega) (by omega))).trans (Memory.SameBut.write16 w4 (by omega) (by omega))
  · rw [m, Memory.read16_write16 w4 (by omega)]
  · rw [setPosition_intake, answer_intake, ← h.flight, ← h.claim]
  · rw [setPosition_regs, answer_regs]
    ext i hi
    simp only [BitVec.getElem_and, BitVec.getElem_or]
    cases u.regs.cause[i] <;> cases causeAnswer[i] <;> rfl

/-- The bytes that the answer of an order just taken leaves. -/
theorem answer_sameBut {u : State} {k : SlotId} {code : AnswerCode} {body : List Byte} (w : u.mem.wf = true)
    (l : body.length ≤ 64) :
    Memory.SameBut (answerBytes k) u.mem ((u.answer k code body).setPosition k).mem := by
  have pl := padTo_length l
  have w1 := Memory.writeBytes_wf (x := slotBase k + 0x40) (bs := padTo 64 body) w
  have w2 := Memory.write16_wf (x := slotBase k + 8) (v := BitVec.ofNat 16 body.length) w1
  have w3 := Memory.write16_wf (x := slotBase k + 6) (v := code.code) w2
  have w4 := Memory.write16_wf (x := slotBase k) (v := slotAnswered) w3
  have a : Memory.SameBut (answerBytes k) u.mem (u.mem.writeBytes (slotBase k + 0x40) (padTo 64 body)) :=
    Memory.SameBut.writeBytes w fun y _ _ => Or.inr (Or.inr (Or.inl (by omega)))
  have b := a.trans (Memory.SameBut.write16 (x := slotBase k + 8) (v := BitVec.ofNat 16 body.length) w1
    (Or.inr (Or.inl (by omega))) (Or.inr (Or.inl (by omega))))
  have c := b.trans (Memory.SameBut.write16 (x := slotBase k + 6) (v := code.code) w2
    (Or.inr (Or.inl (by omega))) (Or.inr (Or.inl (by omega))))
  have d := c.trans (Memory.SameBut.write16 (x := slotBase k) (v := slotAnswered) w3
    (Or.inl (by omega)) (Or.inl (by omega)))
  rw [setPosition_mem, answer_mem]
  exact d.trans (Memory.SameBut.write16 (x := hdrSweep) (v := BitVec.ofNat 16 k.val) w4
    (Or.inr (Or.inr (Or.inr (by omega)))) (Or.inr (Or.inr (Or.inr (by omega)))))

/-- Everything else of the state. -/
theorem answer_rest (u : State) (k : SlotId) (code : AnswerCode) (body : List Byte) :
    (u.answer k code body).setPosition k =
      { u with
        mem := ((u.answer k code body).setPosition k).mem
        intake := ((u.answer k code body).setPosition k).intake
        regs := { u.regs with cause := u.regs.cause ||| causeAnswer } } := by
  rw [← answer_regs u k code body]
  simp only [State.setPosition, State.answer, State.setCause, State.writeWord, State.writeRun]

/-! The take (R107). -/

theorem beginOrder_sameBut {s : State} (w : s.mem.wf = true) (k : SlotId) (kind : OrderKind) :
    Memory.SameBut (answerBytes k) s.mem (s.beginOrder k kind).mem :=
  Memory.SameBut.write16 w (Or.inl (by omega)) (Or.inl (by omega))

theorem beginOrder_wf {s : State} (w : s.mem.wf = true) (k : SlotId) (kind : OrderKind) :
    (s.beginOrder k kind).mem.wf = true := Memory.write16_wf w

/-- An order body is read as the host left it. -/
@[simp] theorem beginOrder_order16 {s : State} (w : s.mem.wf = true) (k : SlotId) (kind : OrderKind) (x : Nat) :
    (s.beginOrder k kind).order16 k x = s.order16 k x :=
  Memory.read16_write16_other w (by omega)

@[simp] theorem beginOrder_order32 {s : State} (w : s.mem.wf = true) (k : SlotId) (kind : OrderKind) (x : Nat) :
    (s.beginOrder k kind).order32 k x = s.order32 k x :=
  Memory.read32_write16_other w (by omega)

@[simp] theorem beginOrder_orderBytes {s : State} (w : s.mem.wf = true) (k : SlotId) (kind : OrderKind) (x n : Nat) :
    (s.beginOrder k kind).orderBytes k x n = s.orderBytes k x n :=
  Memory.SameBut.readBytes (p := fun y => y < slotBase k + 16)
    (Memory.SameBut.write16 w (by omega) (by omega)) (fun y a _ => by omega)

@[simp] theorem beginOrder_orderVehicle {s : State} (w : s.mem.wf = true) (k : SlotId) (kind : OrderKind) :
    (s.beginOrder k kind).orderVehicle k = s.orderVehicle k :=
  beginOrder_orderBytes w k kind 0 12

/-- The checks of the parameters see the order as the host posted it (R107). -/
theorem beginOrder_badOrderParam {s : State} (w : s.mem.wf = true) (k : SlotId) (kind : OrderKind) :
    (s.beginOrder k kind).badOrderParam k kind = s.badOrderParam k kind := by
  unfold State.badOrderParam
  simp only [beginOrder_order16 w, beginOrder_order32 w, beginOrder_orderVehicle w, beginOrder_metro]

theorem beginOrder_holds (s : State) (k : SlotId) (kind : OrderKind) : Holds k s (s.beginOrder k kind) := by
  refine ⟨?_, rfl⟩
  show (s.intake.flight ++ [_]).filter _ = _
  simp [List.filter_append]

theorem claimStaging_holds {s : State} (c : s.intake.claim = none) (k : SlotId) (kind : OrderKind) :
    Holds k s ((s.beginOrder k kind).claimStaging k) := by
  refine ⟨(beginOrder_holds s k kind).flight, ?_⟩
  show (if some k = some k then none else some k) = _
  simp [c]

/-- A command finds a part that runs, with no cadence event stopped, as it is. -/
theorem whenOn_of_ready {s : State} (h : s.Ready) (f : State → State) : s.whenOn f = f s := by
  unfold State.whenOn
  rw [if_pos h.power, finish_of_whole h.whole]

theorem State.Posted.ready {s : State} {k : SlotId} {kind : OrderKind} (p : s.Posted k kind) : s.Ready :=
  ⟨p.power, p.whole⟩

/-- The take of a POSTED order whose parameters are in range and whose kind claims nothing (R107). -/
theorem takePosted_runs {s : State} {k : SlotId} {kind : OrderKind} (p : s.Posted k kind)
    (b : s.badOrderParam k kind = none) (c : kind.claimsStaging = false) (owner : State → SlotId → State) :
    s.whenOn (fun t => t.takePosted k kind owner) = (owner (s.beginOrder k kind) k).setPosition k := by
  rw [whenOn_of_ready p.ready]
  unfold State.takePosted State.takeOrder
  dsimp only
  rw [if_pos (by simp [p.run, p.posted, p.kind])]
  simp only [beginOrder_badOrderParam p.memory, b, c]
  rfl

/-- The take of a POSTED order that claims the free staging area (R107, R108). -/
theorem takePosted_claims {s : State} {k : SlotId} {kind : OrderKind} (p : s.Posted k kind)
    (b : s.badOrderParam k kind = none) (c : kind.claimsStaging = true) (f : s.intake.claim = none)
    (owner : State → SlotId → State) :
    s.whenOn (fun t => t.takePosted k kind owner)
      = (owner ((s.beginOrder k kind).claimStaging k) k).setPosition k := by
  have g : (s.beginOrder k kind).intake.claim = none := f
  rw [whenOn_of_ready p.ready]
  unfold State.takePosted State.takeOrder
  dsimp only
  rw [if_pos (by simp [p.run, p.posted, p.kind])]
  simp only [beginOrder_badOrderParam p.memory, b, c, g]
  rfl

/-- The take of a POSTED order with a parameter out of range (R107). -/
theorem takePosted_bad {s : State} {k : SlotId} {kind : OrderKind} (p : s.Posted k kind) {n : Nat}
    (b : s.badOrderParam k kind = some n) (owner : State → SlotId → State) :
    s.whenOn (fun t => t.takePosted k kind owner)
      = ((s.beginOrder k kind).answer k .badParam (u16 n)).setPosition k := by
  rw [whenOn_of_ready p.ready]
  unfold State.takePosted State.takeOrder
  dsimp only
  rw [if_pos (by simp [p.run, p.posted, p.kind])]
  simp only [beginOrder_badOrderParam p.memory, b]
  rfl

/-- The take of a POSTED order while another holds the claim on the staging area (R108). -/
theorem takePosted_busy {s : State} {k : SlotId} {kind : OrderKind} (p : s.Posted k kind)
    (b : s.badOrderParam k kind = none) (c : kind.claimsStaging = true) (f : s.intake.claim.isSome = true)
    (owner : State → SlotId → State) :
    s.whenOn (fun t => t.takePosted k kind owner)
      = ((s.beginOrder k kind).answer k .stagingBusy []).setPosition k := by
  have g : (s.beginOrder k kind).intake.claim.isSome = true := f
  rw [whenOn_of_ready p.ready]
  unfold State.takePosted State.takeOrder
  dsimp only
  rw [if_pos (by simp [p.run, p.posted, p.kind])]
  simp only [beginOrder_badOrderParam p.memory, b, c, g]
  rfl

end Sys2Proof.Machine
end

