-- ==== Sys2Proof/Laws/Cadence.lean ====
section
/-! SUPPORT. The rows of the events at which a cadence event can stop, and the refresh of the live board, each said
once. -/

namespace Sys2Proof.Machine

/-- At the event at which the cadence event has stopped, its row takes it and goes on (assumption 4). -/
theorem takeStopped_of_stopped {s : State} {e : Own} {rest : List Piece} (h : s.StoppedAt e rest) :
    s.takeStopped e = (({ s with unfinished := [] } : State).takeOwn e).run true rest := by
  unfold State.takeStopped State.onOwn
  rw [if_pos h.power, h.first]
  simp [h.due]

/-- The completion of warm-up or of a resumption goes on with the pieces of its row's own plan. -/
theorem takeChange_of_stopped {s : State} {e : Own} {rest : List Piece} (h : s.StoppedAt e rest) (st : LinkState)
    (plan : Plan) :
    s.takeChange e st plan =
      (({ s with unfinished := [] } : State).takeOwn e).run plan.apart (eventPieces true [.enter st] plan) := by
  unfold State.takeChange State.onOwn
  rw [if_pos h.power, h.first]
  simp [h.due]

/-- At any other moment neither kind of row changes anything (assumption 2). -/
theorem onOwn_of_not {s : State} {e : Own} (p : s.power = .on) (h : s.NotStoppedAt e) (f : List Piece → List Piece)
    (apart : Bool) : s.onOwn e f apart = s := by
  unfold State.onOwn
  split
  · rename_i g ps q
    split
    · rename_i c
      obtain ⟨rfl, d⟩ := c
      exact absurd ⟨p, q, d⟩ (h ps)
    · rfl
  · rfl

theorem takeStopped_of_not {s : State} {e : Own} (h : s.NotStoppedAt e) : s.takeStopped e = s := by
  unfold State.takeStopped
  split
  · rename_i p
    exact onOwn_of_not p h id true
  · rfl

theorem takeChange_of_not {s : State} {e : Own} (h : s.NotStoppedAt e) (st : LinkState) (plan : Plan) :
    s.takeChange e st plan = s := by
  unfold State.takeChange
  split
  · rename_i p
    exact onOwn_of_not p h _ plan.apart
  · rfl

/-- The command of an event's row, but of the two that carry a plan, is its row. -/
theorem exec_ownCommand (plan : Plan) {e : Own} (s : State) (a : e ≠ .warmUp) (b : e ≠ .resumed) :
    exec (ownCommand plan e) s = .next (s.takeStopped e) := by
  cases e
  case warmUp => exact absurd rfl a
  case resumed => exact absurd rfl b
  all_goals rfl

/-- The memory that a refresh of the live board leaves (R101). -/
def boardMemory (s : State) : Memory :=
  let odd := s.mem.write16 boardBase (s.mem.read16 boardBase + 1)
  let filled := odd.writeBytes (boardBase + 4) s.boardBytes
  filled.write16 boardBase (filled.read16 boardBase + 1)

/-- A refresh of the live board changes its words and nothing else (R101). -/
theorem refreshBoard_eq (s : State) : s.refreshBoard = { s with mem := boardMemory s } := by
  have bump : ∀ u : State, u.bumpBoard = { u with mem := u.mem.write16 boardBase (u.mem.read16 boardBase + 1) } :=
    fun _ => rfl
  have fill : ∀ u : State, u.writeBoard = { u with mem := u.mem.writeBytes (boardBase + 4) u.boardBytes } := fun u => by
    unfold State.writeBoard State.writeRun
    rfl
  have same : ∀ m : Memory, ({ s with mem := m } : State).boardBytes = s.boardBytes := fun _ => rfl
  unfold State.refreshBoard boardMemory
  rw [bump, fill, bump]
  dsimp only
  rw [same]

end Sys2Proof.Machine
end

