-- ==== Sys2Proof/Laws/Journal.lean ====
section
/-! SUPPORT. All that the journal's operations can do to the state, said once: they place records on pages, change the
journal's own fields and header fields, and add the JOURNAL and CONDITION causes. The same for the audit log, which
also changes its own fields and requests jobs. -/

namespace Sys2Proof.Machine

/-! Causes raised. -/

theorem Registers.Raised.refl (e : W16) (r : Registers) : Registers.Raised e r r :=
  ⟨0, BitVec.zero_and, by simp⟩

theorem Registers.Raised.trans {e : W16} {r q p : Registers} (h : Registers.Raised e r q)
    (k : Registers.Raised e q p) : Registers.Raised e r p := by
  obtain ⟨c, hc, rfl⟩ := h
  obtain ⟨d, hd, rfl⟩ := k
  refine ⟨c ||| d, ?_, by simp [BitVec.or_assoc]⟩
  rw [BitVec.and_comm, BitVec.and_or_distrib_left, BitVec.and_comm _ c, BitVec.and_comm _ d, hc, hd]
  rfl

theorem Registers.Raised.setCause {e c : W16} (s : State) (h : c &&& ~~~e = 0) :
    Registers.Raised e s.regs (s.setCause c).regs :=
  ⟨c, h, rfl⟩

/-- Causes once set stay. -/
theorem Registers.Raised.keeps {e c : W16} {r q : Registers} (h : Registers.Raised e r q) (k : r.cause &&& c = c) :
    q.cause &&& c = c := by
  obtain ⟨d, _, rfl⟩ := h
  ext i hi
  have := congrArg (·[i]) k
  simp only [BitVec.getElem_and, BitVec.getElem_or] at this ⊢
  cases x : r.cause[i] <;> cases y : d[i] <;> simp_all

/-- The causes that records raise. -/
def recordCauses : W16 := causeJournal ||| causeCondition

/-- All that placing records can change. -/
structure Journaled (e : W16) (s t : State) : Prop where
  fields : ∃ m r j, t = { s with mem := m, regs := r, journal := j }
  raised : Registers.Raised e s.regs t.regs
  wf : s.mem.wf = true → t.mem.wf = true
  memory : s.mem.wf = true → Memory.SameBut journalBytes s.mem t.mem

theorem Journaled.refl (e : W16) (s : State) : Journaled e s s :=
  ⟨⟨_, _, _, rfl⟩, Registers.Raised.refl _ _, id, fun _ => Memory.SameBut.refl _ _⟩

theorem Registers.Raised.mono {d e : W16} {r q : Registers} (h : Registers.Raised d r q) (k : d &&& ~~~e = 0) :
    Registers.Raised e r q := by
  obtain ⟨c, hc, rfl⟩ := h
  refine ⟨c, ?_, rfl⟩
  refine BitVec.eq_of_getLsbD_eq fun i hi => ?_
  have a := congrArg (fun w => w.getLsbD i) hc
  have b := congrArg (fun w => w.getLsbD i) k
  simp only [BitVec.getLsbD_and, BitVec.getLsbD_not, hi, decide_true, Bool.true_and] at a b ⊢
  revert a b
  cases c.getLsbD i <;> cases d.getLsbD i <;> cases e.getLsbD i <;> simp

theorem Journaled.mono {d e : W16} {s t : State} (h : Journaled d s t) (k : d &&& ~~~e = 0) : Journaled e s t :=
  ⟨h.fields, h.raised.mono k, h.wf, h.memory⟩

theorem Journaled.trans {e : W16} {s t u : State} (h : Journaled e s t) (k : Journaled e t u) : Journaled e s u := by
  refine ⟨?_, h.raised.trans k.raised, k.wf ∘ h.wf, fun w => (h.memory w).trans (k.memory (h.wf w))⟩
  obtain ⟨_, _, _, a⟩ := h.fields
  obtain ⟨_, _, _, f⟩ := k.fields
  subst a f
  exact ⟨_, _, _, rfl⟩

/-- What placing records leaves alone. -/
theorem Journaled.eq {e : W16} {s t : State} (h : Journaled e s t) :
    t = { s with mem := t.mem, regs := t.regs, journal := t.journal } := by
  obtain ⟨_, _, _, a⟩ := h.fields
  subst a
  rfl

/-! Steps out of which the journal's operations are made. -/

theorem journaled_journal {e : W16} (s : State) (j : Journal) : Journaled e s { s with journal := j } :=
  ⟨⟨_, _, _, rfl⟩, Registers.Raised.refl _ _, id, fun _ => Memory.SameBut.refl _ _⟩

theorem journaled_setCause {e : W16} (s : State) {c : W16} (h : c &&& ~~~e = 0) : Journaled e s (s.setCause c) :=
  ⟨⟨_, _, _, rfl⟩, Registers.Raised.setCause s h, id, fun _ => Memory.SameBut.refl _ _⟩

theorem journaled_writeWord {e : W16} (s : State) {x : Nat} (v : W16) (a : journalBytes x) (b : journalBytes (x + 1)) :
    Journaled e s (s.writeWord x v) :=
  ⟨⟨_, _, _, rfl⟩, Registers.Raised.refl _ _, fun w => Memory.write16_wf w, fun w => Memory.SameBut.write16 w a b⟩

theorem journaled_writeLong {e : W16} (s : State) {x : Nat} (v : W32) (a : ∀ y, x ≤ y → y < x + 4 → journalBytes y) :
    Journaled e s (s.writeLong x v) :=
  ⟨⟨_, _, _, rfl⟩, Registers.Raised.refl _ _, fun w => Memory.write32_wf w, fun w => Memory.SameBut.write32 w a⟩

theorem journaled_writeRun {e : W16} (s : State) {x : Nat} (bs : List Byte) (a : 0x1C00 ≤ x) :
    Journaled e s (s.writeRun x bs) :=
  ⟨⟨_, _, _, rfl⟩, Registers.Raised.refl _ _, fun w => Memory.writeBytes_wf w,
    fun w => Memory.SameBut.writeBytes w fun _ l _ => Or.inr (by omega)⟩

theorem journaled_clearRun {e : W16} (s : State) {x : Nat} (n : Nat) (a : 0x1C00 ≤ x) :
    Journaled e s (s.clearRun x n) :=
  ⟨⟨_, _, _, rfl⟩, Registers.Raised.refl _ _, fun w => Memory.clearBytes_wf w,
    fun _ => Memory.SameBut.clearBytes fun _ l _ => Or.inr (by omega)⟩

/-- A word of a page. -/
theorem journaled_page {e : W16} (s : State) (p : PageId) (n : Nat) (v : W16) :
    Journaled e s (s.writeWord (pageBase p + n) v) :=
  have := pageBase_lower p
  journaled_writeWord s v (Or.inr (by omega)) (Or.inr (by omega))

/-- One of the journal's words of the header. -/
theorem journaled_header {e : W16} (s : State) {x : Nat} (v : W16) (a : hdrLastPage ≤ x) (b : x + 2 ≤ hdrStoreFault) :
    Journaled e s (s.writeWord x v) :=
  journaled_writeWord s v (Or.inl ⟨a, by omega⟩) (Or.inl ⟨by omega, by omega⟩)

/-! The operations. -/

theorem setOutbox_journaled (s : State) (rs : List Record) : Journaled causeJournal s (s.setOutbox rs) :=
  (journaled_journal s _).trans (journaled_header _ _ (by decide) (by decide))

theorem openPage_journaled (s : State) : Journaled causeJournal s s.openPage := by
  unfold State.openPage
  dsimp only
  split
  · exact (journaled_journal s _).trans (journaled_header _ _ (by decide) (by decide))
  · exact (((journaled_clearRun s 256 (pageBase_lower _)).trans (journaled_page _ _ 0 _)).trans
      (journaled_journal _ _)).trans (journaled_header _ _ (by decide) (by decide))

theorem judgeAttention_journaled (s : State) : Journaled causeJournal s s.judgeAttention := by
  unfold State.judgeAttention
  dsimp only
  split
  · exact (journaled_journal s _).trans (journaled_setCause _ (by decide))
  · exact journaled_journal s _

theorem publish_journaled (s : State) : Journaled causeJournal s s.publish := by
  unfold State.publish
  split
  · exact Journaled.refl _ s
  · rename_i p _
    have l := pageBase_lower p
    have a : Journaled causeJournal s (s.writeLong (pageBase p + 4) s.journal.nextSequence) :=
      journaled_writeLong s _ fun y _ _ => Or.inr (by omega)
    refine Journaled.trans ?_ (openPage_journaled _)
    refine Journaled.trans ?_ (journaled_header _ _ (by decide) (by decide))
    refine Journaled.trans ?_ (journaled_journal _ _)
    refine Journaled.trans ?_ (judgeAttention_journaled _)
    refine Journaled.trans ?_ (journaled_writeLong _ _ fun y h k => Or.inl ⟨h.trans' (by decide), by
      have : hdrLastSequence = 0x28 := rfl
      have : hdrStoreFault = 0x30 := rfl
      omega⟩)
    refine Journaled.trans ?_ (journaled_header _ _ (by decide) (by decide))
    exact (a.trans (journaled_journal _ _)).trans (journaled_page _ p 0 _)

theorem placeOn_journaled (s : State) (p : PageId) (r : Record) : Journaled causeJournal s (s.placeOn p r) := by
  have l := pageBase_lower p
  unfold State.placeOn
  refine Journaled.trans ?_ (journaled_journal _ _)
  refine Journaled.trans ?_ (journaled_page _ p 2 _)
  refine Journaled.trans ?_ (journaled_page _ p 8 _)
  exact journaled_writeRun s _ (by unfold pageBody; omega)

theorem dropRecord_journaled (s : State) (r : Record) : Journaled causeJournal s (s.dropRecord r) :=
  journaled_journal s _

theorem queueRecord_journaled (s : State) (r : Record) : Journaled causeJournal s (s.queueRecord r) := by
  unfold State.queueRecord
  dsimp only
  split
  · exact setOutbox_journaled s _
  · exact dropRecord_journaled s r

theorem offer_journaled (s : State) (r : Record) : Journaled causeJournal s (s.offer r) := by
  have ready : Journaled causeJournal s (if s.journal.current.isNone = true then s.openPage else s) := by
    split
    · exact openPage_journaled s
    · exact Journaled.refl _ s
  unfold State.offer
  split
  · split
    · split
      · dsimp only
        split
        · exact (placeOn_journaled s _ r).trans (journaled_journal _ _)
        · exact placeOn_journaled s _ r
      · exact queueRecord_journaled s r
    · exact queueRecord_journaled s r
  · split
    · exact queueRecord_journaled s r
    · dsimp only
      generalize (if s.journal.current.isNone = true then s.openPage else s) = u at ready ⊢
      split
      · exact ready.trans (queueRecord_journaled _ r)
      · split
        · split
          · exact (ready.trans (placeOn_journaled _ _ r)).trans (publish_journaled _)
          · exact ready.trans (placeOn_journaled _ _ r)
        · have moved := ready.trans (publish_journaled u)
          split
          · exact moved.trans (queueRecord_journaled _ r)
          · split
            · exact (moved.trans (placeOn_journaled _ _ r)).trans (publish_journaled _)
            · exact moved.trans (placeOn_journaled _ _ r)

theorem record_journaled (s : State) (r : Record) : Journaled causeJournal s (s.record r) := by
  unfold State.record
  split
  · exact journaled_journal s _
  · exact offer_journaled s r

theorem notice_journaled (s : State) (subject : Subject) (item newState : Nat) (detail : W32) (more : List Byte) :
    Journaled recordCauses s (s.notice subject item newState detail more) :=
  (journaled_setCause s (by decide)).trans ((record_journaled _ _).mono (by decide))

/-- A notice raises CONDITION at that moment (R150, R112). -/
theorem notice_condition (s : State) (subject : Subject) (item newState : Nat) (detail : W32) (more : List Byte) :
    (s.notice subject item newState detail more).regs.cause &&& causeCondition = causeCondition := by
  refine (record_journaled (s.setCause causeCondition) _).raised.keeps ?_
  rw [setCause_cause]
  ext i hi
  simp only [BitVec.getElem_and, BitVec.getElem_or]
  cases s.regs.cause[i] <;> cases causeCondition[i] <;> rfl

theorem placeSummary_journaled (s : State) : Journaled causeJournal s s.placeSummary := by
  unfold State.placeSummary
  split
  · exact Journaled.refl _ s
  · rename_i p _
    have ready : Journaled causeJournal s (if s.fits p s.summaryRecord 0 = true then s else s.publish) := by
      split
      · exact Journaled.refl _ s
      · exact publish_journaled s
    dsimp only
    generalize (if s.fits p s.summaryRecord 0 = true then s else s.publish) = u at ready ⊢
    split
    · exact ready
    · exact (ready.trans (placeOn_journaled _ _ _)).trans (journaled_journal _ _)

theorem drainOutbox_journaled (rs : List Record) (s : State) : Journaled causeJournal s (s.drainOutbox rs) := by
  induction rs generalizing s with
  | nil => exact Journaled.refl _ s
  | cons r rest ih =>
    unfold State.drainOutbox
    split
    · exact Journaled.refl _ s
    · rename_i p _
      have ready : Journaled causeJournal s (if s.fits p r 0 = true then s else s.publish) := by
        split
        · exact Journaled.refl _ s
        · exact publish_journaled s
      dsimp only
      generalize (if s.fits p r 0 = true then s else s.publish) = u at ready ⊢
      split
      · exact ready
      · exact ((ready.trans (placeOn_journaled _ _ _)).trans (setOutbox_journaled _ _)).trans (ih _)

theorem judgePage_journaled (s : State) : Journaled causeJournal s s.judgePage := by
  unfold State.judgePage
  split
  · exact Journaled.refl _ s
  · split
    · exact publish_journaled s
    · exact Journaled.refl _ s

theorem drain_journaled (s : State) : Journaled causeJournal s s.drain := by
  have first : Journaled causeJournal s (if s.journal.owed = true then s.placeSummary else s) := by
    split
    · exact placeSummary_journaled s
    · exact Journaled.refl _ s
  unfold State.drain
  split
  · exact Journaled.refl _ s
  · split
    · dsimp only
      generalize (if s.journal.owed = true then s.placeSummary else s) = u at first ⊢
      split
      · exact first.trans (judgePage_journaled _)
      · exact (first.trans (drainOutbox_journaled _ _)).trans (judgePage_journaled _)
    · exact Journaled.refl _ s

theorem endReservation_journaled (s : State) : Journaled causeJournal s s.endReservation :=
  journaled_journal s _

theorem placeReserved_journaled (s : State) (r : Record) : Journaled causeJournal s (s.placeReserved r) := by
  unfold State.placeReserved
  split
  · exact (endReservation_journaled s).trans (drain_journaled _)
  · exact (((endReservation_journaled s).trans (placeOn_journaled _ _ _)).trans (publish_journaled _)).trans
      (drain_journaled _)

theorem releaseReservation_journaled (s : State) : Journaled causeJournal s s.releaseReservation := by
  unfold State.releaseReservation
  dsimp only
  split
  · refine Journaled.trans ?_ (drain_journaled _)
    split
    · exact (endReservation_journaled s).trans (publish_journaled _)
    · exact endReservation_journaled s
  · exact Journaled.refl _ s

theorem reserve_journaled {s t : State} {k : RecordKind} (e : s.reserve k = some t) : Journaled causeJournal s t := by
  unfold State.reserve at e
  dsimp only at e
  repeat' split at e
  all_goals cases e
  · exact journaled_journal s _
  · exact (publish_journaled s).trans (journaled_journal _ _)

theorem publishByDelay_journaled (s : State) : Journaled causeJournal s s.publishByDelay := by
  unfold State.publishByDelay
  split
  · exact journaled_journal s _
  · exact publish_journaled s

theorem returnPage_journaled (s : State) (p : PageId) : Journaled causeJournal s (s.returnPage p) := by
  have returned : Journaled causeJournal s _ := journaled_page s p 0 pageReturned
  unfold State.returnPage
  dsimp only
  split
  · exact (returned.trans (openPage_journaled _)).trans (drain_journaled _)
  · exact returned

/-! The audit log. -/

/-- All that writing audit entries and placing records can change. -/
structure Logged (e : W16) (s t : State) : Prop where
  fields :
    ∃ m r j a w, t = { s with mem := m, regs := r, journal := j, audit := a, store := { s.store with waiting := w } }
  raised : Registers.Raised e s.regs t.regs
  wf : s.mem.wf = true → t.mem.wf = true
  memory : s.mem.wf = true → Memory.SameBut journalBytes s.mem t.mem

theorem Journaled.logged {e : W16} {s t : State} (h : Journaled e s t) : Logged e s t := by
  refine ⟨?_, h.raised, h.wf, h.memory⟩
  obtain ⟨_, _, _, a⟩ := h.fields
  subst a
  exact ⟨_, _, _, _, _, rfl⟩

theorem Logged.mono {d e : W16} {s t : State} (h : Logged d s t) (k : d &&& ~~~e = 0) : Logged e s t :=
  ⟨h.fields, h.raised.mono k, h.wf, h.memory⟩

theorem Logged.trans {e : W16} {s t u : State} (h : Logged e s t) (k : Logged e t u) : Logged e s u := by
  refine ⟨?_, h.raised.trans k.raised, k.wf ∘ h.wf, fun w => (h.memory w).trans (k.memory (h.wf w))⟩
  obtain ⟨_, _, _, _, _, a⟩ := h.fields
  obtain ⟨_, _, _, _, _, f⟩ := k.fields
  subst a f
  exact ⟨_, _, _, _, _, rfl⟩

/-- What writing audit entries leaves alone. -/
theorem Logged.eq {e : W16} {s t : State} (h : Logged e s t) :
    t = { s with
      mem := t.mem
      regs := t.regs
      journal := t.journal
      audit := t.audit
      store := { s.store with waiting := t.store.waiting } } := by
  obtain ⟨_, _, _, _, _, a⟩ := h.fields
  subst a
  rfl

theorem logged_audit {e : W16} (s : State) (a : Audit) : Logged e s { s with audit := a } :=
  ⟨⟨_, _, _, _, _, rfl⟩, Registers.Raised.refl _ _, id, fun _ => Memory.SameBut.refl _ _⟩

theorem requestJob_logged {e : W16} (s : State) (kind : JobKind) (rows : List RowWrite) :
    Logged e s (s.requestJob kind rows) :=
  ⟨⟨_, _, _, _, _, rfl⟩, Registers.Raised.refl _ _, id, fun _ => Memory.SameBut.refl _ _⟩

/-- The pump changes the mark and the jobs, not the entries (R184). -/
theorem auditPump_spec (s : State) :
    Logged causeJournal s s.auditPump ∧ s.auditPump.audit.entries = s.audit.entries
      ∧ s.auditPump.audit.last = s.audit.last := by
  unfold State.auditPump
  dsimp only
  repeat' split
  all_goals first
    | exact ⟨(Journaled.refl _ s).logged, rfl, rfl⟩
    | exact ⟨(logged_audit s _).trans (requestJob_logged _ _ _), rfl, rfl⟩

theorem writeAudit_logged (s : State) (kind : AuditKind) (detail : List Byte) :
    Logged causeJournal s (s.writeAudit kind detail) :=
  ((logged_audit s _).trans (record_journaled _ _).logged).trans (auditPump_spec _).1

/-- An entry written stands last in the working log (R184). -/
theorem writeAudit_audited (s : State) (kind : AuditKind) (detail : List Byte) :
    Audited kind detail s (s.writeAudit kind detail) := by
  unfold State.writeAudit
  dsimp only
  generalize hj : ({ s with audit := _ } : State) = j
  have a := (record_journaled j (auditRecord
    { serial := nextSerial s.audit.last
      epoch := s.store.counters.epoch
      time := s.time.time
      clockSet := s.time.isSet
      kind := kind
      detail := detail } false)).eq
  have b := (auditPump_spec (j.record (auditRecord
    { serial := nextSerial s.audit.last
      epoch := s.store.counters.epoch
      time := s.time.time
      clockSet := s.time.isSet
      kind := kind
      detail := detail } false))).2
  refine ⟨?_, ?_⟩
  · rw [b.1, a, ← hj]
  · rw [b.2, a, ← hj]

end Sys2Proof.Machine
end

