-- ==== Sys2Proof/Laws/Kept.lean ====
section
/-! SUPPORT. What every operation of the machine keeps, whatever the state: the canonical form of the memory, RED heads
under an override, the exclusion of captures and sessions, the bounds of the queues, the five attention bits.
`Kept o s` says that each of them holds of `s` if it holds of `o`, and that the queue of commands, the power and what is
left of a cadence event are the same; there is one lemma per operation. `Keeps o s` says no more than the first, for the
pieces of a cadence event, which may stop it, and for the power events. -/

namespace Sys2Proof.Machine

/-- Each of the invariants holds of the second state if it holds of the first. -/
structure Keeps (o s : State) : Prop where
  memory : o.mem.wf = true → s.mem.wf = true
  red : o.lane.redWhileMarked → s.lane.redWhileMarked
  exclusive : o.captureOrSession → s.captureOrSession
  edges : o.tracker.queue.length ≤ 64 → s.tracker.queue.length ≤ 64
  outbox : o.journal.outbox.length ≤ 24 → s.journal.outbox.length ≤ 24
  entries : o.audit.entries.length ≤ 128 → s.audit.entries.length ≤ 128
  rows : o.store.queued ≤ 16 → s.store.queued ≤ 16
  bits : o.regs.fiveBits → s.regs.fiveBits
  steady : o.journal.holding = false → s.journal.holding = false
  pending : s.pending = o.pending

/-- Each of the invariants holds of the second state if it holds of the first, and no cadence event has stopped or gone
on between them. -/
structure Kept (o s : State) : Prop where
  memory : o.mem.wf = true → s.mem.wf = true
  red : o.lane.redWhileMarked → s.lane.redWhileMarked
  exclusive : o.captureOrSession → s.captureOrSession
  edges : o.tracker.queue.length ≤ 64 → s.tracker.queue.length ≤ 64
  outbox : o.journal.outbox.length ≤ 24 → s.journal.outbox.length ≤ 24
  entries : o.audit.entries.length ≤ 128 → s.audit.entries.length ≤ 128
  rows : o.store.queued ≤ 16 → s.store.queued ≤ 16
  bits : o.regs.fiveBits → s.regs.fiveBits
  steady : o.journal.holding = false → s.journal.holding = false
  pending : s.pending = o.pending
  power : s.power = o.power
  unfinished : s.unfinished = o.unfinished

@[simp] theorem Kept.refl (s : State) : Kept s s := ⟨id, id, id, id, id, id, id, id, id, rfl, rfl, rfl⟩

theorem Kept.trans {o s t : State} (h : Kept o s) (k : Kept s t) : Kept o t :=
  ⟨k.memory ∘ h.memory, k.red ∘ h.red, k.exclusive ∘ h.exclusive, k.edges ∘ h.edges, k.outbox ∘ h.outbox,
    k.entries ∘ h.entries, k.rows ∘ h.rows, k.bits ∘ h.bits, k.steady ∘ h.steady, k.pending.trans h.pending, k.power.trans h.power,
    k.unfinished.trans h.unfinished⟩

theorem Kept.keeps {o s : State} (h : Kept o s) : Keeps o s :=
  ⟨h.memory, h.red, h.exclusive, h.edges, h.outbox, h.entries, h.rows, h.bits, h.steady, h.pending⟩

theorem Keeps.trans {o s t : State} (h : Keeps o s) (k : Keeps s t) : Keeps o t :=
  ⟨k.memory ∘ h.memory, k.red ∘ h.red, k.exclusive ∘ h.exclusive, k.edges ∘ h.edges, k.outbox ∘ h.outbox,
    k.entries ∘ h.entries, k.rows ∘ h.rows, k.bits ∘ h.bits, k.steady ∘ h.steady, k.pending.trans h.pending⟩

/-- What every step keeps is kept, where no cadence event has stopped but at an event that is due. -/
theorem Keeps.inv {o s : State} (h : Keeps o s) (i : o.Inv) (w : s.stopsAtDue) : s.Inv :=
  ⟨h.memory i.memory, h.red i.red, h.exclusive i.exclusive,
    ⟨h.edges i.bounded.edges, h.outbox i.bounded.outbox, h.entries i.bounded.entries, h.rows i.bounded.rows⟩,
    h.bits i.bits, h.steady i.steady, w⟩

/-- Where nothing is left of a cadence event, none has stopped. -/
theorem stops_nil {s : State} (h : s.unfinished = []) : s.stopsAtDue :=
  fun _ _ e => by rw [h] at e; cases e

/-! One field of the state replaced. -/

theorem kept_pins {o s : State} {x : Pins} (h : Kept o s) : Kept o { s with pins := x } :=
  ⟨h.memory, h.red, h.exclusive, h.edges, h.outbox, h.entries, h.rows, h.bits, h.steady, h.pending, h.power, h.unfinished⟩

theorem kept_clock {o s : State} {x : W32} (h : Kept o s) : Kept o { s with clock := x } :=
  ⟨h.memory, h.red, h.exclusive, h.edges, h.outbox, h.entries, h.rows, h.bits, h.steady, h.pending, h.power, h.unfinished⟩

theorem kept_link {o s : State} {x : Link} (h : Kept o s) : Kept o { s with link := x } :=
  ⟨h.memory, h.red, h.exclusive, h.edges, h.outbox, h.entries, h.rows, h.bits, h.steady, h.pending, h.power, h.unfinished⟩

theorem kept_back {o s : State} {x : BackChannel} (h : Kept o s) : Kept o { s with back := x } :=
  ⟨h.memory, h.red, h.exclusive, h.edges, h.outbox, h.entries, h.rows, h.bits, h.steady, h.pending, h.power, h.unfinished⟩

theorem kept_cells {o s : State} {x : List Cell} (h : Kept o s) : Kept o { s with cells := x } :=
  ⟨h.memory, h.red, h.exclusive, h.edges, h.outbox, h.entries, h.rows, h.bits, h.steady, h.pending, h.power, h.unfinished⟩

theorem kept_metro {o s : State} {x : Metrology} (h : Kept o s) : Kept o { s with metro := x } :=
  ⟨h.memory, h.red, h.exclusive, h.edges, h.outbox, h.entries, h.rows, h.bits, h.steady, h.pending, h.power, h.unfinished⟩

theorem kept_chain {o s : State} {x : Chain} (h : Kept o s) : Kept o { s with chain := x } :=
  ⟨h.memory, h.red, h.exclusive, h.edges, h.outbox, h.entries, h.rows, h.bits, h.steady, h.pending, h.power, h.unfinished⟩

theorem kept_monitor {o s : State} {x : Monitor} (h : Kept o s) : Kept o { s with monitor := x } :=
  ⟨h.memory, h.red, h.exclusive, h.edges, h.outbox, h.entries, h.rows, h.bits, h.steady, h.pending, h.power, h.unfinished⟩

theorem kept_intake {o s : State} {x : Intake} (h : Kept o s) : Kept o { s with intake := x } :=
  ⟨h.memory, h.red, h.exclusive, h.edges, h.outbox, h.entries, h.rows, h.bits, h.steady, h.pending, h.power, h.unfinished⟩

theorem kept_site {o s : State} {x : Site} (h : Kept o s) : Kept o { s with site := x } :=
  ⟨h.memory, h.red, h.exclusive, h.edges, h.outbox, h.entries, h.rows, h.bits, h.steady, h.pending, h.power, h.unfinished⟩

theorem kept_time {o s : State} {x : EngineClock} (h : Kept o s) : Kept o { s with time := x } :=
  ⟨h.memory, h.red, h.exclusive, h.edges, h.outbox, h.entries, h.rows, h.bits, h.steady, h.pending, h.power, h.unfinished⟩

theorem kept_visits {o s : State} {x : Visits} (h : Kept o s) : Kept o { s with visits := x } :=
  ⟨h.memory, h.red, h.exclusive, h.edges, h.outbox, h.entries, h.rows, h.bits, h.steady, h.pending, h.power, h.unfinished⟩

theorem kept_tickets {o s : State} {x : Tickets} (h : Kept o s) : Kept o { s with tickets := x } :=
  ⟨h.memory, h.red, h.exclusive, h.edges, h.outbox, h.entries, h.rows, h.bits, h.steady, h.pending, h.power, h.unfinished⟩

theorem kept_sealLine {o s : State} {x : Seal} (h : Kept o s) : Kept o { s with sealLine := x } :=
  ⟨h.memory, h.red, h.exclusive, h.edges, h.outbox, h.entries, h.rows, h.bits, h.steady, h.pending, h.power, h.unfinished⟩

theorem kept_mem {o s : State} {x : Memory} (h : Kept o s) (k : s.mem.wf = true → Memory.wf x = true) :
    Kept o { s with mem := x } :=
  ⟨k ∘ h.memory, h.red, h.exclusive, h.edges, h.outbox, h.entries, h.rows, h.bits, h.steady, h.pending, h.power, h.unfinished⟩

theorem kept_lane {o s : State} {x : Lane} (h : Kept o s)
    (k : s.lane.redWhileMarked → x.redWhileMarked) : Kept o { s with lane := x } :=
  ⟨h.memory, k ∘ h.red, h.exclusive, h.edges, h.outbox, h.entries, h.rows, h.bits, h.steady, h.pending, h.power, h.unfinished⟩

theorem kept_tracker {o s : State} {x : Tracker} (h : Kept o s)
    (k : s.tracker.queue.length ≤ 64 → x.queue.length ≤ 64) : Kept o { s with tracker := x } :=
  ⟨h.memory, h.red, h.exclusive, k ∘ h.edges, h.outbox, h.entries, h.rows, h.bits, h.steady, h.pending, h.power, h.unfinished⟩

theorem kept_journal {o s : State} {x : Journal} (h : Kept o s)
    (k : s.journal.outbox.length ≤ 24 → x.outbox.length ≤ 24)
    (w : s.journal.holding = false → x.holding = false) : Kept o { s with journal := x } :=
  ⟨h.memory, h.red, h.exclusive, h.edges, k ∘ h.outbox, h.entries, h.rows, h.bits, w ∘ h.steady, h.pending, h.power,
    h.unfinished⟩

theorem kept_audit {o s : State} {x : Audit} (h : Kept o s)
    (k : s.audit.entries.length ≤ 128 → x.entries.length ≤ 128) : Kept o { s with audit := x } :=
  ⟨h.memory, h.red, h.exclusive, h.edges, h.outbox, k ∘ h.entries, h.rows, h.bits, h.steady, h.pending, h.power, h.unfinished⟩

theorem kept_store {o s : State} {x : Store} (h : Kept o s) (k : s.store.queued ≤ 16 → x.queued ≤ 16) :
    Kept o { s with store := x } :=
  ⟨h.memory, h.red, h.exclusive, h.edges, h.outbox, h.entries, k ∘ h.rows, h.bits, h.steady, h.pending, h.power, h.unfinished⟩

theorem kept_regs {o s : State} {x : Registers} (h : Kept o s) (k : s.regs.fiveBits → x.fiveBits) :
    Kept o { s with regs := x } :=
  ⟨h.memory, h.red, h.exclusive, h.edges, h.outbox, h.entries, h.rows, k ∘ h.bits, h.steady, h.pending, h.power, h.unfinished⟩

theorem kept_session {o s : State} {x : Session} (h : Kept o s) (k : s.session.state = .closed → x.state = .closed) :
    Kept o { s with session := x } :=
  ⟨h.memory, h.red, fun e c => k (h.exclusive e c), h.edges, h.outbox, h.entries, h.rows, h.bits, h.steady, h.pending, h.power, h.unfinished⟩

theorem kept_no_capture {o s : State} (h : Kept o s) : Kept o { s with capture := none } :=
  ⟨h.memory, h.red, fun _ c => (nomatch c), h.edges, h.outbox, h.entries, h.rows, h.bits, h.steady, h.pending, h.power, h.unfinished⟩

/-- A fold of an operation that keeps them keeps them. -/
theorem kept_foldl {α : Type} {o : State} {f : State → α → State} (k : ∀ s a, Kept o s → Kept o (f s a)) (l : List α)
    {s : State} (h : Kept o s) : Kept o (l.foldl f s) := by
  induction l generalizing s with
  | nil => exact h
  | cons a l ih => exact ih (k s a h)

/-- A word with no bit above bit 4. -/
def InFive (c : W16) : Prop := c &&& ~~~(0x1F : W16) = 0

@[simp] theorem inFive_answer : InFive causeAnswer := by unfold InFive; decide
@[simp] theorem inFive_journal : InFive causeJournal := by unfold InFive; decide
@[simp] theorem inFive_condition : InFive causeCondition := by unfold InFive; decide
@[simp] theorem inFive_protocol : InFive causeProtocol := by unfold InFive; decide
@[simp] theorem inFive_store : InFive causeStore := by unfold InFive; decide

theorem inFive_or {a b : W16} (h : InFive a) (k : InFive b) : InFive (a ||| b) := by
  unfold InFive at *
  rw [BitVec.and_comm, BitVec.and_or_distrib_left, BitVec.and_comm _ a, BitVec.and_comm _ b, h, k]
  rfl

theorem inFive_and {a b : W16} (h : InFive a) : InFive (a &&& b) := by
  unfold InFive at *
  rw [BitVec.and_assoc, BitVec.and_comm b, ← BitVec.and_assoc, h]
  simp

@[simp] theorem fiveBits_iff (r : Registers) : r.fiveBits ↔ InFive r.cause ∧ InFive r.enable := Iff.rfl

/-- Any fields replaced but the queue, the power, the pins and what is left of a cadence event, which show the state they come from. -/
@[simp] theorem kept_mk {o s : State} {clock : W32} {link : Link} {back : BackChannel} {cells : List Cell} {metro : Metrology} {chain : Chain} {monitor : Monitor} {tracker : Tracker} {lane : Lane} {mem : Memory} {regs : Registers} {intake : Intake} {site : Site} {time : EngineClock} {capture : Option Capture} {visits : Visits} {tickets : Tickets} {journal : Journal} {session : Session} {sealLine : Seal} {store : Store} {audit : Audit}
    (h : Kept o s) (kmem : s.mem.wf = true → Memory.wf mem = true)
    (kred : s.lane.redWhileMarked → lane.redWhileMarked)
    (kex : s.captureOrSession → capture.isSome = true → session.state = .closed)
    (kedge : s.tracker.queue.length ≤ 64 → tracker.queue.length ≤ 64)
    (kout : s.journal.outbox.length ≤ 24 → journal.outbox.length ≤ 24)
    (kent : s.audit.entries.length ≤ 128 → audit.entries.length ≤ 128)
    (krow : s.store.queued ≤ 16 → store.queued ≤ 16) (kbit : s.regs.fiveBits → regs.fiveBits)
    (kstd : s.journal.holding = false → journal.holding = false) :
    Kept o (State.mk s.pending s.power s.pins clock link back cells metro chain monitor tracker lane mem regs intake site time capture visits tickets journal session sealLine store audit s.unfinished) :=
  ⟨kmem ∘ h.memory, kred ∘ h.red, kex ∘ h.exclusive, kedge ∘ h.edges, kout ∘ h.outbox, kent ∘ h.entries,
    krow ∘ h.rows, kbit ∘ h.bits, kstd ∘ h.steady, h.pending, h.power, h.unfinished⟩

/-- The exclusion said of the two fields. -/
@[simp] theorem captureOrSession_iff (s : State) :
    s.captureOrSession ↔ (s.capture.isSome = true → s.session.state = .closed) := Iff.rfl

@[simp] theorem write16_wf' {m : Memory} {x : Nat} {v : W16} (w : Memory.wf m = true) :
    Memory.wf (Memory.write16 m x v) = true := Memory.write16_wf w
@[simp] theorem write32_wf' {m : Memory} {x : Nat} {v : W32} (w : Memory.wf m = true) :
    Memory.wf (Memory.write32 m x v) = true := Memory.write32_wf w
@[simp] theorem writeBytes_wf' {m : Memory} {x : Nat} {bs : List Byte} (w : Memory.wf m = true) :
    Memory.wf (Memory.writeBytes m x bs) = true := Memory.writeBytes_wf w
@[simp] theorem clearBytes_wf' {m : Memory} {x n : Nat} (w : Memory.wf m = true) :
    Memory.wf (Memory.clearBytes m x n) = true := Memory.clearBytes_wf w
@[simp] theorem inFive_or' {a b : W16} (h : InFive a) (k : InFive b) : InFive (a ||| b) := inFive_or h k
@[simp] theorem inFive_and' {a b : W16} (h : InFive a) : InFive (a &&& b) := inFive_and h
theorem queued_iff (x : Store) : x.queued = (x.queue.map fun j => j.rows.length).sum := rfl

/-- The working log holds at most 128 entries after one joins (R184). -/
theorem joinEntries_length {es : List AuditEntry} (h : es.length ≤ 128) (e : AuditEntry) :
    (joinEntries es e).length ≤ 128 := by
  unfold joinEntries
  split <;> simp <;> omega


/-- A cause is left only where one was marked. -/
theorem causes_of_cleared {c : Causes} {k : Cause} (a : (c.put k false).any = true) : c.any = true := by
  cases k <;> simp_all [Causes.put, Causes.any] <;> tauto

/-- Work of the lane signals on the horn alone keeps the heads. -/
theorem startPattern_red {l : Lane} (r : l.redWhileMarked) (now : W32) : (l.startPattern now).redWhileMarked := by
  unfold Lane.startPattern
  split <;> exact r

theorem applyHorn_red {l : Lane} (r : l.redWhileMarked) (now : W32) : (l.applyHorn now).redWhileMarked := by
  unfold Lane.applyHorn
  dsimp only
  repeat' split
  all_goals first | exact r | exact startPattern_red (l := { l with hornPending := false, horn := l.stagedHorn }) r _

/-- The pending aspects are applied under no cause (R92). -/
theorem applyAspects_red {l : Lane} (r : l.redWhileMarked) : l.applyAspects.redWhileMarked := by
  unfold Lane.applyAspects
  split
  · rename_i c
    intro m
    simp_all
  · exact r

theorem count_red {l : Lane} (r : l.redWhileMarked) (now : W32) : (l.count now).redWhileMarked := by
  unfold Lane.count
  repeat' split
  all_goals exact r

theorem hornToggle_red {l : Lane} (r : l.redWhileMarked) : l.hornToggle.redWhileMarked := by
  unfold Lane.hornToggle
  split <;> exact r

theorem burstEnd_red {l : Lane} (r : l.redWhileMarked) (now : W32) : (l.burstEnd now).redWhileMarked := by
  unfold Lane.burstEnd
  split
  · exact startPattern_red (l := { l with burst := none }) r _
  · exact r

theorem work_red {l : Lane} (r : l.redWhileMarked) (now : W32) : (l.work now).redWhileMarked :=
  count_red (applyAspects_red (applyHorn_red r now)) now

/-- A job enters the queue only where it has room (R179). -/
theorem enter_queued {x : Store} (h : x.queued ≤ 16) : x.enter.queued ≤ 16 := by
  unfold Store.enter
  split
  · split
    · simp_all [queued_iff]
    · exact h
  · exact h

theorem enterAll_queued {x : Store} (h : x.queued ≤ 16) (n : Nat) : (x.enterAll n).queued ≤ 16 := by
  induction n generalizing x with
  | zero => exact h
  | succ n ih => exact ih (enter_queued h)

/-- What is being written stands at the front of the queue. -/
theorem writing_queue {s : State} {j : Job} {w : RowWrite} {rest : List RowWrite}
    (e : s.writing = some (j, w, rest)) : ∃ q, s.store.queue = j :: q ∧ j.rows = w :: rest := by
  unfold State.writing at e
  repeat' split at e
  all_goals cases e
  exact ⟨_, by assumption, by assumption⟩

/-- The lane signals at a reset. -/
theorem start_red : Lane.start.redWhileMarked := fun c => by cases c

theorem runTo_length (es : List AuditEntry) (n : Nat) (e : AuditEntry) (later : List AuditEntry) :
    (runTo es n e later).length ≤ later.length + 1 + n := by
  induction n generalizing e later with
  | zero => simp [runTo]
  | succ n ih =>
    unfold runTo
    split
    · rename_i p _
      have := ih p (e :: later)
      simp only [List.length_cons] at this
      omega
    · simp only [List.length_cons]
      omega

/-- The log that the rows give holds at most 128 entries (R184). -/
theorem rebuiltEntries_length (rows : List Row) : (rebuiltEntries rows).length ≤ 128 := by
  unfold rebuiltEntries
  dsimp only
  split
  · exact runTo_length _ _ _ _
  · exact Nat.zero_le _

/-! Ops. -/

@[simp] theorem writeWord_kept {o s : State} (h : Kept o s) (x : Nat) (v : W16) :
    Kept o (State.writeWord s x v) := by
  exact kept_mem h fun w => Memory.write16_wf w

@[simp] theorem writeLong_kept {o s : State} (h : Kept o s) (x : Nat) (v : W32) :
    Kept o (State.writeLong s x v) := by
  exact kept_mem h fun w => Memory.write32_wf w

@[simp] theorem writeRun_kept {o s : State} (h : Kept o s) (x : Nat) (bs : List Byte) :
    Kept o (State.writeRun s x bs) := by
  exact kept_mem h fun w => Memory.writeBytes_wf w

@[simp] theorem clearRun_kept {o s : State} (h : Kept o s) (x : Nat) (n : Nat) :
    Kept o (State.clearRun s x n) := by
  exact kept_mem h fun w => Memory.clearBytes_wf w

@[simp] theorem setCause_kept {o s : State} (h : Kept o s) (c : W16) (k : InFive c) : Kept o (State.setCause s c) :=
  kept_regs h fun b => ⟨inFive_or b.1 k, b.2⟩

@[simp] theorem clearCause_kept {o s : State} (h : Kept o s) (c : W16) :
    Kept o (State.clearCause s c) := by
  exact kept_regs h fun b => ⟨inFive_and b.1, b.2⟩

@[simp] theorem answer_kept {o s : State} (h : Kept o s) (k : SlotId) (code : AnswerCode) (body : List Byte) :
    Kept o (State.answer s k code body) := by
  unfold State.answer
  have k : Kept o ((((s.writeRun (slotBase k + 0x40) (padTo 64 body)).writeWord (slotBase k + 8)
      (BitVec.ofNat 16 body.length)).writeWord (slotBase k + 6) code.code).writeWord (slotBase k) slotAnswered) := by
    simp (maxDischargeDepth := 20) [h]
  exact setCause_kept (kept_intake k) causeAnswer inFive_answer

@[simp] theorem badParam_kept {o s : State} (h : Kept o s) (k : SlotId) (n : Nat) :
    Kept o (State.badParam s k n) := by
  simp [State.badParam, h]

@[simp] theorem refuseWrite_kept {o s : State} (h : Kept o s) (a : WordAddr) :
    Kept o (State.refuseWrite s a) := by
  unfold State.refuseWrite
  dsimp only
  split <;> simp +contextual (maxDischargeDepth := 40) [h]

/-! Journal. -/

@[simp] theorem setOutbox_kept {o s : State} (h : Kept o s) (rs : List Record)
    (k : o.journal.outbox.length ≤ 24 → rs.length ≤ 24) : Kept o (State.setOutbox s rs) := by
  have w : Kept o { s with journal := { s.journal with outbox := rs } } :=
    ⟨h.memory, h.red, h.exclusive, h.edges, k, h.entries, h.rows, h.bits, h.steady, h.pending, h.power, h.unfinished⟩
  exact writeWord_kept w _ _

@[simp] theorem openPage_kept {o s : State} (h : Kept o s) :
    Kept o (State.openPage s) := by
  unfold State.openPage
  dsimp only
  split <;> simp +contextual (maxDischargeDepth := 40) [h]

@[simp] theorem judgeAttention_kept {o s : State} (h : Kept o s) :
    Kept o (State.judgeAttention s) := by
  unfold State.judgeAttention
  dsimp only
  split <;> simp +contextual (maxDischargeDepth := 40) [h]

@[simp] theorem publish_kept {o s : State} (h : Kept o s) :
    Kept o (State.publish s) := by
  unfold State.publish
  split <;> simp +contextual (maxDischargeDepth := 40) [h]

@[simp] theorem placeOn_kept {o s : State} (h : Kept o s) (p : PageId) (r : Record) :
    Kept o (State.placeOn s p r) := by
  unfold State.placeOn
  simp +contextual (maxDischargeDepth := 40) [h]

@[simp] theorem dropRecord_kept {o s : State} (h : Kept o s) (r : Record) :
    Kept o (State.dropRecord s r) := by
  simp [State.dropRecord, h]

@[simp] theorem queueRecord_kept {o s : State} (h : Kept o s) (r : Record) :
    Kept o (State.queueRecord s r) := by
  unfold State.queueRecord
  dsimp only
  split
  · apply setOutbox_kept h
    intro _
    simp only [List.length_append, List.length_singleton]
    omega
  · simp [h]

@[simp] theorem offer_kept {o s : State} (h : Kept o s) (r : Record) :
    Kept o (State.offer s r) := by
  unfold State.offer
  try dsimp only
  repeat' split
  all_goals simp +contextual (maxDischargeDepth := 40) [h]

@[simp] theorem record_kept {o s : State} (h : Kept o s) (r : Record) :
    Kept o (State.record s r) := by
  unfold State.record
  split <;> simp [h]

@[simp] theorem placeSummary_kept {o s : State} (h : Kept o s) :
    Kept o (State.placeSummary s) := by
  unfold State.placeSummary
  try dsimp only
  repeat' split
  all_goals simp +contextual (maxDischargeDepth := 40) [h]

theorem drainOutbox_kept {o : State} (rest : List Record) (k : o.journal.outbox.length ≤ 24 → rest.length ≤ 24)
    {s : State} (h : Kept o s) : Kept o (State.drainOutbox s rest) := by
  induction rest generalizing s with
  | nil => simpa [State.drainOutbox] using h
  | cons r rest ih =>
    have l : o.journal.outbox.length ≤ 24 → rest.length ≤ 24 := fun w => by
      have := k w
      simp only [List.length_cons] at this
      omega
    unfold State.drainOutbox
    split
    · exact h
    · dsimp only
      split
      · split <;> simp [h]
      · apply ih l
        apply setOutbox_kept _ _ l
        split <;> simp [h]

@[simp] theorem judgePage_kept {o s : State} (h : Kept o s) :
    Kept o (State.judgePage s) := by
  unfold State.judgePage
  repeat' split
  all_goals simp +contextual (maxDischargeDepth := 40) [h]

@[simp] theorem drain_kept {o s : State} (h : Kept o s) :
    Kept o (State.drain s) := by
  unfold State.drain
  split
  · exact h
  · split
    · dsimp only
      apply judgePage_kept
      have f : Kept o (if s.journal.owed = true then s.placeSummary else s) := by split <;> simp [h]
      generalize (if s.journal.owed = true then s.placeSummary else s) = t at f ⊢
      split
      · exact f
      · exact drainOutbox_kept _ f.outbox f
    · exact h

@[simp] theorem endReservation_kept {o s : State} (h : Kept o s) :
    Kept o (State.endReservation s) := by
  unfold State.endReservation
  exact kept_journal h id id

/-- A state with a reservation granted (R158). -/
theorem reserve_kept {o s t : State} (h : Kept o s) {k : RecordKind} (e : s.reserve k = some t) : Kept o t := by
  unfold State.reserve at e
  dsimp only at e
  repeat' split at e
  all_goals cases e
  · exact kept_journal h id id
  · exact kept_journal (publish_kept h) id id

@[simp] theorem placeReserved_kept {o s : State} (h : Kept o s) (r : Record) :
    Kept o (State.placeReserved s r) := by
  unfold State.placeReserved
  repeat' split
  all_goals simp +contextual (maxDischargeDepth := 40) [h]

@[simp] theorem releaseReservation_kept {o s : State} (h : Kept o s) :
    Kept o (State.releaseReservation s) := by
  unfold State.releaseReservation
  repeat' split
  all_goals simp +contextual (maxDischargeDepth := 40) [h]

@[simp] theorem publishByDelay_kept {o s : State} (h : Kept o s) :
    Kept o (State.publishByDelay s) := by
  unfold State.publishByDelay
  try dsimp only
  repeat' split
  all_goals simp +contextual (maxDischargeDepth := 40) [h]

@[simp] theorem countDelay_kept {o s : State} (h : Kept o s) :
    Kept o (State.countDelay s) := by
  unfold State.countDelay
  repeat' split
  all_goals simp +contextual (maxDischargeDepth := 40) [h]

@[simp] theorem returnPage_kept {o s : State} (h : Kept o s) (p : PageId) :
    Kept o (State.returnPage s p) := by
  unfold State.returnPage
  dsimp only
  split <;> simp +contextual (maxDischargeDepth := 40) [h]

@[simp] theorem notice_kept {o s : State} (h : Kept o s) (subject : Subject) (item : Nat) (newState : Nat) (detail : W32) (more : List Byte) :
    Kept o (State.notice s subject item newState detail more) := by
  simp [State.notice, h]

/-! Audit. -/

@[simp] theorem requestJob_kept {o s : State} (h : Kept o s) (kind : JobKind) (rows : List RowWrite) :
    Kept o (State.requestJob s kind rows) := by
  exact kept_store h id

@[simp] theorem auditPump_kept {o s : State} (h : Kept o s) :
    Kept o (State.auditPump s) := by
  unfold State.auditPump
  repeat' split
  all_goals simp +contextual (maxDischargeDepth := 40) [h]

@[simp] theorem writeAudit_kept {o s : State} (h : Kept o s) (kind : AuditKind) (detail : List Byte) :
    Kept o (State.writeAudit s kind detail) := by
  unfold State.writeAudit
  apply auditPump_kept
  apply record_kept
  exact kept_audit h fun w => joinEntries_length w _

@[simp] theorem readAudit_kept {o s : State} (h : Kept o s) (k : SlotId) :
    Kept o (State.readAudit s k) := by
  unfold State.readAudit
  dsimp only
  split
  · exact answer_kept h _ _ _
  · split
    · exact answer_kept h _ _ _
    · exact answer_kept (kept_foldl (fun t e k => record_kept k _) _ h) _ _ _

/-! Chain. -/

@[simp] theorem setCell_kept {o s : State} (h : Kept o s) (c : CellId) (x : Cell) :
    Kept o (State.setCell s c x) := by
  simp [State.setCell, h]

@[simp] theorem mapFlags_kept {o s : State} (h : Kept o s) (d : DeckId) (f : DeckFlags → DeckFlags) :
    Kept o (State.mapFlags s d f) := by
  unfold State.mapFlags
  split <;> simp [h]

@[simp] theorem restartFilter_kept {o s : State} (h : Kept o s) (d : DeckId) :
    Kept o (State.restartFilter s d) := by
  simp [State.restartFilter, h]

@[simp] theorem restartFilters_kept {o s : State} (h : Kept o s) :
    Kept o (State.restartFilters s) := by
  unfold State.restartFilters
  exact kept_foldl (fun _ _ k => restartFilter_kept k _) _ h

@[simp] theorem filterFilled_kept {o s : State} (h : Kept o s) (d : DeckId) :
    Kept o (State.filterFilled s d) := by
  unfold State.filterFilled
  split <;> simp [h]

@[simp] theorem computeChain_kept {o s : State} (h : Kept o s) :
    Kept o (State.computeChain s) := by
  simp [State.computeChain, h]

/-! Supervisor. -/

@[simp] theorem judgeDegraded_kept {o s : State} (h : Kept o s) (d : DeckId) :
    Kept o (State.judgeDegraded s d) := by
  simp [State.judgeDegraded, h]

@[simp] theorem requestRestart_kept {o s : State} (h : Kept o s) (c : CellId) :
    Kept o (State.requestRestart s c) := by
  unfold State.requestRestart
  split <;> simp [h]

@[simp] theorem cellNotice_kept {o s : State} (h : Kept o s) (c : CellId) :
    Kept o (State.cellNotice s c) := by
  simp [State.cellNotice, h]

@[simp] theorem faultCell_kept {o s : State} (h : Kept o s) (c : CellId) :
    Kept o (State.faultCell s c) := by
  unfold State.faultCell
  try dsimp only
  repeat' split
  all_goals simp +contextual (maxDischargeDepth := 40) [h]

@[simp] theorem recoverCell_kept {o s : State} (h : Kept o s) (c : CellId) :
    Kept o (State.recoverCell s c) := by
  simp [State.recoverCell, h]

@[simp] theorem sendRestart_kept {o s : State} (h : Kept o s) :
    Kept o (State.sendRestart s) := by
  unfold State.sendRestart
  try dsimp only
  repeat' split
  all_goals simp +contextual (maxDischargeDepth := 40) [h]

@[simp] theorem endSend_kept {o s : State} (h : Kept o s) :
    Kept o (State.endSend s) := by
  simp [State.endSend, h]

@[simp] theorem releaseCell_kept {o s : State} (h : Kept o s) (c : CellId) :
    Kept o (State.releaseCell s c) := by
  unfold State.releaseCell
  dsimp only
  split <;> simp +contextual (maxDischargeDepth := 40) [h]

@[simp] theorem clearCellOrder_kept {o s : State} (h : Kept o s) (k : SlotId) :
    Kept o (State.clearCellOrder s k) := by
  unfold State.clearCellOrder
  dsimp only
  split <;> simp +contextual (maxDischargeDepth := 40) [h]

@[simp] theorem examineCell_kept {o s : State} (h : Kept o s) (c : CellId) : Kept o (State.examineCell s c) := by
  simp [State.examineCell, h]

/-! Monitor. -/

@[simp] theorem setMonitor_kept {o s : State} (h : Kept o s) (d : DeckId) (x : DeckMonitor) :
    Kept o (State.setMonitor s d x) := by
  simp [State.setMonitor, h]

@[simp] theorem publishSnapshot_kept {o s : State} (h : Kept o s) :
    Kept o (State.publishSnapshot s) := by
  simp [State.publishSnapshot, h]

@[simp] theorem expireWatch_kept {o s : State} (h : Kept o s) (d : DeckId) :
    Kept o (State.expireWatch s d) := by
  unfold State.expireWatch
  split <;> simp [h]

@[simp] theorem watchDeck_kept {o s : State} (h : Kept o s) (d : DeckId) :
    Kept o (State.watchDeck s d) := by
  unfold State.watchDeck
  try dsimp only
  repeat' split
  all_goals simp +contextual (maxDischargeDepth := 40) [h]

@[simp] theorem zeroDeck_kept {o s : State} (h : Kept o s) (d : DeckId) :
    Kept o (State.zeroDeck s d) := by
  unfold State.zeroDeck
  dsimp only
  split <;> simp +contextual (maxDischargeDepth := 40) [h]

@[simp] theorem zeroOrder_kept {o s : State} (h : Kept o s) (k : SlotId) :
    Kept o (State.zeroOrder s k) := by
  unfold State.zeroOrder
  dsimp only
  repeat' split
  all_goals first | exact answer_kept h _ _ _ | skip
  apply answer_kept
  exact kept_foldl (fun _ _ k => zeroDeck_kept k _) _ h

@[simp] theorem trackDeck_kept {o s : State} (h : Kept o s) (d : DeckId) :
    Kept o (State.trackDeck s d) := by
  unfold State.trackDeck
  try dsimp only
  repeat' split
  all_goals simp +contextual (maxDischargeDepth := 40) [h]

@[simp] theorem trackZeros_kept {o s : State} (h : Kept o s) :
    Kept o (State.trackZeros s) := by
  unfold State.trackZeros
  split
  · exact kept_foldl (fun _ _ k => trackDeck_kept k _) _ (kept_monitor h)
  · exact h

@[simp] theorem countTracking_kept {o s : State} (h : Kept o s) :
    Kept o (State.countTracking s) := by
  simp [State.countTracking, h]

/-! Lane. -/

@[simp] theorem markCause_kept {o s : State} (h : Kept o s) (k : Cause) :
    Kept o (State.markCause s k) := by
  apply kept_lane h
  intro r
  unfold Lane.mark Lane.redWhileMarked at *
  split
  · rename_i m
    exact fun _ => r m
  · exact fun _ => ⟨rfl, rfl, rfl⟩

@[simp] theorem unmarkCause_kept {o s : State} (h : Kept o s) (k : Cause) :
    Kept o (State.unmarkCause s k) := by
  apply kept_lane h
  intro r a
  exact r (causes_of_cleared a)

@[simp] theorem burstCall_kept {o s : State} (h : Kept o s) :
    Kept o (State.burstCall s) := by
  apply kept_lane h
  unfold Lane.burstCall
  split <;> exact id

@[simp] theorem workLane_kept {o s : State} (h : Kept o s) :
    Kept o (State.workLane s) := by
  exact kept_lane h fun r => work_red r _

@[simp] theorem endBurst_kept {o s : State} (h : Kept o s) : Kept o (State.endBurst s) :=
  kept_lane h fun r => burstEnd_red r _

@[simp] theorem toggleHorn_kept {o s : State} (h : Kept o s) : Kept o (State.toggleHorn s) :=
  kept_lane h fun r => hornToggle_red r

@[simp] theorem handLane_kept {o s : State} (h : Kept o s) : Kept o (State.handLane s) :=
  kept_lane h id

@[simp] theorem setSignalsOrder_kept {o s : State} (h : Kept o s) (k : SlotId) :
    Kept o (State.setSignalsOrder s k) := by
  unfold State.setSignalsOrder
  apply answer_kept
  exact kept_lane h id

/-! VisitTable. -/

@[simp] theorem setPlace_kept {o s : State} (h : Kept o s) (i : Nat) (v : Option Visit) :
    Kept o (State.setPlace s i v) := by
  simp [State.setPlace, h]

@[simp] theorem showVisitCount_kept {o s : State} (h : Kept o s) :
    Kept o (State.showVisitCount s) := by
  simp [State.showVisitCount, h]

@[simp] theorem setStatus_kept {o s : State} (h : Kept o s) (n : W32) (st : VisitStatus) :
    Kept o (State.setStatus s n st) := by
  unfold State.setStatus
  repeat' split
  all_goals simp +contextual (maxDischargeDepth := 40) [h]

@[simp] theorem removeVisit_kept {o s : State} (h : Kept o s) (n : W32) :
    Kept o (State.removeVisit s n) := by
  unfold State.removeVisit
  split <;> simp [h]

@[simp] theorem clearMark_kept {o s : State} (h : Kept o s) :
    Kept o (State.clearMark s) := by
  simp [State.clearMark, h]

@[simp] theorem writeSummary_kept {o s : State} (h : Kept o s) (i : Nat) (v : Visit) (summary : Summary) :
    Kept o (State.writeSummary s i v summary) := by
  unfold State.writeSummary
  split <;> simp [h]

@[simp] theorem handSummary_kept {o s : State} (h : Kept o s) (n : W32) (summary : Summary) :
    Kept o (State.handSummary s n summary) := by
  unfold State.handSummary
  repeat' split
  all_goals simp +contextual (maxDischargeDepth := 40) [h]

@[simp] theorem voidOrder_kept {o s : State} (h : Kept o s) (k : SlotId) :
    Kept o (State.voidOrder s k) := by
  unfold State.voidOrder
  repeat' split
  all_goals simp +contextual (maxDischargeDepth := 40) [h]

@[simp] theorem voidCompleted_kept {o s : State} (h : Kept o s) (k : SlotId) (n : W32) :
    Kept o (State.voidCompleted s k n) := by
  unfold State.voidCompleted
  split <;> simp +contextual (maxDischargeDepth := 40) [h]

@[simp] theorem voidFailed_kept {o s : State} (h : Kept o s) (k : SlotId) (n : W32) :
    Kept o (State.voidFailed s k n) := by
  simp [State.voidFailed, h]

@[simp] theorem findOrder_kept {o s : State} (h : Kept o s) (k : SlotId) :
    Kept o (State.findOrder s k) := by
  unfold State.findOrder
  split <;> simp [h]

@[simp] theorem endPass_kept {o s : State} (h : Kept o s) :
    Kept o (State.endPass s) := by
  simp [State.endPass, h]

theorem expiryStep_kept {o : State} (maxAge : Nat) (l : List W32) {s : State} (h : Kept o s) :
    Kept o (State.expiryStep s maxAge l) := by
  induction l generalizing s with
  | nil => exact endPass_kept h
  | cons n rest ih =>
    unfold State.expiryStep
    split
    · exact ih h
    · split
      · exact ih h
      · split
        · split
          · exact endPass_kept h
          · dsimp only
            apply requestJob_kept
            exact kept_visits (setPlace_kept h _ _)
        · exact ih h

@[simp] theorem beginExpiry_kept {o s : State} (h : Kept o s) :
    Kept o (State.beginExpiry s) := by
  unfold State.beginExpiry
  split
  · exact expiryStep_kept _ _ h
  · exact h

@[simp] theorem expiryCompleted_kept {o s : State} (h : Kept o s) (n : W32) :
    Kept o (State.expiryCompleted s n) := by
  unfold State.expiryCompleted
  dsimp only
  split
  · apply expiryStep_kept
    simp [h]
  · exact h

@[simp] theorem expiryFailed_kept {o s : State} (h : Kept o s) (n : W32) :
    Kept o (State.expiryFailed s n) := by
  simp [State.expiryFailed, h]

/-! TicketIssuer. -/

@[simp] theorem setTicketPlace_kept {o s : State} (h : Kept o s) (i : Nat) (p : TicketPlace) :
    Kept o (State.setTicketPlace s i p) := by
  simp [State.setTicketPlace, h]

@[simp] theorem queueTicket_kept {o s : State} (h : Kept o s) (t : Ticket) (visitPlace : Nat) :
    Kept o (State.queueTicket s t visitPlace) := by
  unfold State.queueTicket
  simp +contextual (maxDischargeDepth := 40) [h]

@[simp] theorem dropTicket_kept {o s : State} (h : Kept o s) :
    Kept o (State.dropTicket s) := by
  unfold State.dropTicket
  split <;> simp [h]

@[simp] theorem commitTicket_kept {o s : State} (h : Kept o s) :
    Kept o (State.commitTicket s) := by
  unfold State.commitTicket
  split <;> simp +contextual (maxDischargeDepth := 40) [h]

@[simp] theorem recallOrder_kept {o s : State} (h : Kept o s) (k : SlotId) :
    Kept o (State.recallOrder s k) := by
  unfold State.recallOrder
  dsimp only
  repeat' split
  all_goals first | exact answer_kept h _ _ _ | skip
  rename_i t e
  apply requestJob_kept
  exact kept_tickets (reserve_kept h e)

@[simp] theorem endRecall_kept {o s : State} (h : Kept o s) (n : W32) :
    Kept o (State.endRecall s n) := by
  simp [State.endRecall, h]

@[simp] theorem recallCompleted_kept {o s : State} (h : Kept o s) (k : SlotId) (i : Nat) (c : TicketCopy) :
    Kept o (State.recallCompleted s k i c) := by
  unfold State.recallCompleted
  dsimp only
  split <;> simp +contextual (maxDischargeDepth := 40) [h]

@[simp] theorem recallFailed_kept {o s : State} (h : Kept o s) (k : SlotId) (c : TicketCopy) :
    Kept o (State.recallFailed s k c) := by
  unfold State.recallFailed
  simp +contextual (maxDischargeDepth := 40) [h]

/-! Traverse. -/

@[simp] theorem setReason_kept {o s : State} (h : Kept o s) (f : Reasons → Reasons) :
    Kept o (State.setReason s f) := by
  unfold State.setReason
  split <;> simp [h]

@[simp] theorem queueEdge_kept {o s : State} (h : Kept o s) (e : Edge) :
    Kept o (State.queueEdge s e) := by
  unfold State.queueEdge
  split
  · rename_i l
    apply kept_tracker h
    intro _
    simp only [List.length_append, List.length_singleton]
    omega
  · split
    · exact setReason_kept h _
    · exact kept_tracker h id

@[simp] theorem stripNotice_kept {o s : State} (h : Kept o s) (l : Line) (stuck : Bool) :
    Kept o (State.stripNotice s l stuck) := by
  simp [State.stripNotice, h]

@[simp] theorem setLine_kept {o s : State} (h : Kept o s) (l : Line) (x : StripLine) :
    Kept o (State.setLine s l x) := by
  simp [State.setLine, h]

@[simp] theorem acceptEdge_kept {o s : State} (h : Kept o s) (l : Line) (pressed : Bool) (stamp : W32) :
    Kept o (State.acceptEdge s l pressed stamp) := by
  unfold State.acceptEdge
  dsimp only
  split <;> simp +contextual (maxDischargeDepth := 40) [h]

@[simp] theorem endHold_kept {o s : State} (h : Kept o s) (l : Line) (stamp : W32) :
    Kept o (State.endHold s l stamp) := by
  unfold State.endHold
  dsimp only
  split <;> simp +contextual (maxDischargeDepth := 40) [h]

theorem catchUpHolds_kept {o : State} (n : Nat) {s : State} (h : Kept o s) : Kept o (State.catchUpHolds s n) := by
  induction n generalizing s with
  | zero => exact h
  | succ n ih =>
    unfold State.catchUpHolds
    split
    · exact ih (endHold_kept h _ _)
    · exact h

@[simp] theorem advance_kept {o s : State} (h : Kept o s) (dt : W32) :
    Kept o (State.advance s dt) := by
  unfold State.advance
  exact catchUpHolds_kept _ (kept_clock h)

@[simp] theorem setCrossing_kept {o s : State} (h : Kept o s) (side : BridgeEnd) (c : Option Crossing) :
    Kept o (State.setCrossing s side c) := by
  unfold State.setCrossing
  split <;> simp [h]

@[simp] theorem abandon_kept {o s : State} (h : Kept o s) (side : BridgeEnd) :
    Kept o (State.abandon s side) := by
  unfold State.abandon
  repeat' split
  all_goals simp +contextual (maxDischargeDepth := 40) [h]

@[simp] theorem openTraverse_kept {o s : State} (h : Kept o s) (c : Closed) :
    Kept o (State.openTraverse s c) := by
  simp [State.openTraverse, h]

@[simp] theorem setTraverse_kept {o s : State} (h : Kept o s) (t : Option Traverse) :
    Kept o (State.setTraverse s t) := by
  simp [State.setTraverse, h]

@[simp] theorem setSecondVehicle_kept {o s : State} (h : Kept o s) :
    Kept o (State.setSecondVehicle s) := by
  unfold State.setSecondVehicle
  repeat' split
  all_goals simp +contextual (maxDischargeDepth := 40) [h]

@[simp] theorem nextAxle_kept {o s : State} (h : Kept o s) (t : Traverse) (c : Closed) :
    Kept o (State.nextAxle s t c) := by
  unfold State.nextAxle
  try dsimp only
  repeat' split
  all_goals simp +contextual (maxDischargeDepth := 40) [h]

@[simp] theorem farEntry_kept {o s : State} (h : Kept o s) (t : Traverse) (c : Closed) :
    Kept o (State.farEntry s t c) := by
  simp [State.farEntry, h]

@[simp] theorem countExit_kept {o s : State} (h : Kept o s) (t : Traverse) (c : Closed) :
    Kept o (State.countExit s t c) := by
  simp [State.countExit, h]

@[simp] theorem reportTraverse_kept {o s : State} (h : Kept o s) :
    Kept o (State.reportTraverse s) := by
  unfold State.reportTraverse
  try dsimp only
  repeat' split
  all_goals simp +contextual (maxDischargeDepth := 40) [h]

@[simp] theorem handleCrossing_kept {o s : State} (h : Kept o s) (c : Closed) :
    Kept o (State.handleCrossing s c) := by
  unfold State.handleCrossing
  repeat' split
  all_goals simp +contextual (maxDischargeDepth := 40) [h]

@[simp] theorem consumeEdge_kept {o s : State} (h : Kept o s) (e : Edge) :
    Kept o (State.consumeEdge s e) := by
  unfold State.consumeEdge
  try dsimp only
  repeat' split
  all_goals simp +contextual (maxDischargeDepth := 40) [h]

@[simp] theorem consumeQueue_kept {o s : State} (h : Kept o s) :
    Kept o (State.consumeQueue s) := by
  unfold State.consumeQueue
  exact kept_foldl (fun _ _ k => consumeEdge_kept k _) _ (kept_tracker h fun _ => Nat.zero_le _)

@[simp] theorem endWindows_kept {o s : State} (h : Kept o s) :
    Kept o (State.endWindows s) := by
  unfold State.endWindows
  repeat' split
  all_goals simp +contextual (maxDischargeDepth := 40) [h]

@[simp] theorem countWindows_kept {o s : State} (h : Kept o s) :
    Kept o (State.countWindows s) := by
  unfold State.countWindows
  repeat' split
  all_goals simp +contextual (maxDischargeDepth := 40) [h]

@[simp] theorem markStuck_kept {o s : State} (h : Kept o s) (l : Line) :
    Kept o (State.markStuck s l) := by
  simp [State.markStuck, h]

@[simp] theorem judgeBridge_kept {o s : State} (h : Kept o s) :
    Kept o (State.judgeBridge s) := by
  unfold State.judgeBridge
  dsimp only
  split <;> simp +contextual (maxDischargeDepth := 40) [h]

@[simp] theorem countClosing_kept {o s : State} (h : Kept o s) :
    Kept o (State.countClosing s) := by
  unfold State.countClosing
  repeat' split
  all_goals simp +contextual (maxDischargeDepth := 40) [h]

@[simp] theorem judgeClosing_kept {o s : State} (h : Kept o s) :
    Kept o (State.judgeClosing s) := by
  unfold State.judgeClosing
  split <;> simp [h]

@[simp] theorem publishTrack_kept {o s : State} (h : Kept o s) :
    Kept o (State.publishTrack s) := by
  simp [State.publishTrack, h]

@[simp] theorem armOrder_kept {o s : State} (h : Kept o s) (k : SlotId) :
    Kept o (State.armOrder s k) := by
  unfold State.armOrder
  split
  · apply answer_kept
    exact kept_tracker h id
  · exact answer_kept h _ _ _

@[simp] theorem loadClassesOrder_kept {o s : State} (h : Kept o s) (k : SlotId) :
    Kept o (State.loadClassesOrder s k) := by
  unfold State.loadClassesOrder
  try dsimp only
  repeat' split
  all_goals simp +contextual (maxDischargeDepth := 40) [h]

@[simp] theorem classesCompleted_kept {o s : State} (h : Kept o s) (k : SlotId) (table : List ClassEntry) :
    Kept o (State.classesCompleted s k table) := by
  unfold State.classesCompleted
  apply answer_kept
  exact kept_tracker h id

theorem bindTraverse_kept {o s : State} (h : Kept o s) (visit : W32) : Kept o (State.bindTraverse s visit).1 := by
  unfold State.bindTraverse
  repeat' split
  all_goals first | exact h | exact setTraverse_kept h _

/-! CaptureUnit. -/

@[simp] theorem endCapture_kept {o s : State} (h : Kept o s) (k : SlotId) (code : AnswerCode) (body : List Byte) :
    Kept o (State.endCapture s k code body) := by
  unfold State.endCapture
  apply answer_kept
  apply unmarkCause_kept
  exact kept_no_capture (clearMark_kept h)

@[simp] theorem missDeadline_kept {o s : State} (h : Kept o s) :
    Kept o (State.missDeadline s) := by
  unfold State.missDeadline
  repeat' split
  all_goals simp +contextual (maxDischargeDepth := 40) [h]

theorem setCapture_kept {o s : State} (h : Kept o s) (c : Capture)
    (k : o.captureOrSession → s.session.state = .closed) : Kept o (State.setCapture s c) :=
  ⟨h.memory, h.red, fun e _ => k e, h.edges, h.outbox, h.entries, h.rows, h.bits, h.steady, h.pending, h.power, h.unfinished⟩

@[simp] theorem openPage_session (s : State) : s.openPage.session = s.session := by
  unfold State.openPage
  dsimp only
  split <;> simp

@[simp] theorem judgeAttention_session (s : State) : s.judgeAttention.session = s.session := by
  unfold State.judgeAttention
  dsimp only
  split <;> simp

@[simp] theorem publish_session (s : State) : s.publish.session = s.session := by
  unfold State.publish
  split <;> simp

/-- A reservation leaves the session alone. -/
theorem reserve_session {s t : State} {k : RecordKind} (e : s.reserve k = some t) : t.session = s.session := by
  unfold State.reserve at e
  dsimp only at e
  repeat' split at e
  all_goals cases e
  · rfl
  · exact publish_session s

theorem bindTraverse_session (s : State) (n : W32) : (s.bindTraverse n).1.session = s.session := by
  unfold State.bindTraverse
  repeat' split
  all_goals rfl

theorem storeFirst_kept {o s : State} (h : Kept o s) (c : Capture) (value : Int)
    (k : o.captureOrSession → s.session.state = .closed) : Kept o (State.storeFirst s c value) := by
  unfold State.storeFirst
  dsimp only
  apply requestJob_kept
  split
  · refine setCapture_kept (setPlace_kept (bindTraverse_kept h _) _ _) _ fun e => ?_
    rw [setPlace_session, bindTraverse_session]
    exact k e
  · exact setCapture_kept (setPlace_kept h _ _) _ k

theorem storeSecond_kept {o s : State} (h : Kept o s) (c : Capture) (value : Int)
    (k : o.captureOrSession → s.session.state = .closed) : Kept o (State.storeSecond s c value) := by
  unfold State.storeSecond
  dsimp only
  repeat' split
  all_goals first | exact endCapture_kept (releaseReservation_kept h) _ _ _ | skip
  apply queueTicket_kept
  exact setCapture_kept (setPlace_kept h _ _) _ k

theorem takeValue_kept {o s : State} (h : Kept o s) (c : Capture)
    (k : o.captureOrSession → s.session.state = .closed) : Kept o (State.takeValue s c) := by
  unfold State.takeValue
  dsimp only
  repeat' split
  all_goals first | exact endCapture_kept h _ _ _ | skip
  · rename_i t e _
    exact storeFirst_kept (reserve_kept h e) _ _ fun x => by rw [reserve_session e]; exact k x
  · rename_i t e _
    exact storeSecond_kept (reserve_kept h e) _ _ fun x => by rw [reserve_session e]; exact k x

@[simp] theorem examineCapture_kept {o s : State} (h : Kept o s) :
    Kept o (State.examineCapture s) := by
  unfold State.examineCapture
  split
  · exact h
  · rename_i c e
    have k : o.captureOrSession → s.session.state = .closed := fun x => h.exclusive x (by simp [e])
    repeat' split
    · exact h
    · exact takeValue_kept h _ k
    · exact setCapture_kept h _ k
    · exact setCapture_kept h _ k

@[simp] theorem workCapture_kept {o s : State} (h : Kept o s) :
    Kept o (State.workCapture s) := by
  unfold State.workCapture
  repeat' split
  all_goals simp +contextual (maxDischargeDepth := 40) [h]

theorem beginCapture_kept {o s : State} (h : Kept o s) (k : SlotId) (first : Bool) (vehicle : List Byte) (lot : W32)
    (bind : Bool) (visit : Option W32) (x : o.captureOrSession → s.session.state = .closed) :
    Kept o (State.beginCapture s k first vehicle lot bind visit) := by
  unfold State.beginCapture
  dsimp only
  apply missDeadline_kept
  apply examineCapture_kept
  apply markCause_kept
  exact ⟨h.memory, h.red, fun e _ => x e, h.edges, h.outbox, h.entries, h.rows, h.bits, h.steady, h.pending, h.power, h.unfinished⟩

/-- An order that is not turned away finds the session closed (R121). -/
theorem closed_of_not_refused {s : State} (e : s.captureRefusal = none) : s.session.state = .closed := by
  unfold State.captureRefusal at e
  repeat' split at e
  all_goals cases e
  cases x : s.session.state <;> simp_all

@[simp] theorem firstWeighOrder_kept {o s : State} (h : Kept o s) (k : SlotId) :
    Kept o (State.firstWeighOrder s k) := by
  unfold State.firstWeighOrder
  dsimp only
  split
  · exact answer_kept h _ _ _
  · rename_i e
    repeat' split
    all_goals first | exact answer_kept h _ _ _ | skip
    exact beginCapture_kept h _ _ _ _ _ _ fun _ => closed_of_not_refused e

@[simp] theorem secondWeighOrder_kept {o s : State} (h : Kept o s) (k : SlotId) :
    Kept o (State.secondWeighOrder s k) := by
  unfold State.secondWeighOrder
  dsimp only
  split
  · exact answer_kept h _ _ _
  · rename_i e
    split
    · exact answer_kept h _ _ _
    · exact beginCapture_kept h _ _ _ _ _ _ fun _ => closed_of_not_refused e

@[simp] theorem withdrawCapture_kept {o s : State} (h : Kept o s) (k : SlotId) :
    Kept o (State.withdrawCapture s k) := by
  unfold State.withdrawCapture
  repeat' split
  all_goals simp +contextual (maxDischargeDepth := 40) [h]

@[simp] theorem firstWeighCompleted_kept {o s : State} (h : Kept o s) :
    Kept o (State.firstWeighCompleted s) := by
  unfold State.firstWeighCompleted
  repeat' split
  all_goals simp +contextual (maxDischargeDepth := 40) [h]

@[simp] theorem firstWeighFailed_kept {o s : State} (h : Kept o s) :
    Kept o (State.firstWeighFailed s) := by
  unfold State.firstWeighFailed
  repeat' split
  all_goals simp +contextual (maxDischargeDepth := 40) [h]

@[simp] theorem ticketCompleted_kept {o s : State} (h : Kept o s) :
    Kept o (State.ticketCompleted s) := by
  unfold State.ticketCompleted
  split <;> simp +contextual (maxDischargeDepth := 40) [h]

@[simp] theorem ticketFailed_kept {o s : State} (h : Kept o s) :
    Kept o (State.ticketFailed s) := by
  unfold State.ticketFailed
  split <;> simp +contextual (maxDischargeDepth := 40) [h]

/-! SessionUnit. -/

theorem setSession_kept {o s : State} (h : Kept o s) (st : SessionState)
    (k : o.captureOrSession → s.capture.isSome = true → st = .closed) : Kept o (State.setSession s st) := by
  unfold State.setSession
  apply writeWord_kept
  exact ⟨h.memory, h.red, k, h.edges, h.outbox, h.entries, h.rows, h.bits, h.steady, h.pending, h.power, h.unfinished⟩

@[simp] theorem setInTest_kept {o s : State} (h : Kept o s) (on : Bool) :
    Kept o (State.setInTest s on) := by
  unfold State.setInTest
  exact kept_foldl (fun _ _ k => mapFlags_kept k _ _) _ h

@[simp] theorem endSession_kept {o s : State} (h : Kept o s) :
    Kept o (State.endSession s) := by
  unfold State.endSession
  dsimp only
  refine kept_session ?_ id
  apply unmarkCause_kept
  apply setInTest_kept
  exact setSession_kept h _ fun _ _ => rfl

@[simp] theorem closeSession_kept {o s : State} (h : Kept o s) (kind : AuditKind) :
    Kept o (State.closeSession s kind) := by
  unfold State.closeSession
  dsimp only
  split <;> simp +contextual (maxDischargeDepth := 40) [h]

@[simp] theorem touchIdle_kept {o s : State} (h : Kept o s) : Kept o (State.touchIdle s) := by
  unfold State.touchIdle
  split
  · exact kept_session h id
  · exact h

@[simp] theorem touchIdle_state (s : State) : s.touchIdle.session.state = s.session.state := by
  unfold State.touchIdle
  split <;> rfl

@[simp] theorem takeProvisional_kept {o s : State} (h : Kept o s) (f : Frame) : Kept o (State.takeProvisional s f) := by
  unfold State.takeProvisional
  split
  · exact kept_session h id
  · exact h

@[simp] theorem feedProvisional_kept {o s : State} (h : Kept o s) : Kept o (State.feedProvisional s) := by
  unfold State.feedProvisional
  split
  · exact takeProvisional_kept h _
  · exact h

@[simp] theorem openSessionOrder_kept {o s : State} (h : Kept o s) (k : SlotId) :
    Kept o (State.openSessionOrder s k) := by
  unfold State.openSessionOrder
  dsimp only
  split
  · simp [h]
  · split
    · simp [h]
    · rename_i c
      split
      · simp [h]
      · rename_i n
        split
        · simp [h]
        · apply requestJob_kept
          apply writeAudit_kept
          apply markCause_kept
          apply setInTest_kept
          refine setSession_kept ?_ _ fun _ x => absurd x c
          exact kept_session (touchIdle_kept h) id

@[simp] theorem openCompleted_kept {o s : State} (h : Kept o s) (k : SlotId) :
    Kept o (State.openCompleted s k) := by
  simp [State.openCompleted, h]

@[simp] theorem openFailed_kept {o s : State} (h : Kept o s) (k : SlotId) (n : Nat) :
    Kept o (State.openFailed s k n) := by
  unfold State.openFailed
  split <;> simp [h]

@[simp] theorem restage_kept {o s : State} (h : Kept o s) (m : MetroSet) : Kept o (State.restage s m) := by
  unfold State.restage
  split
  · exact kept_session h id
  · exact h

@[simp] theorem stageOrder_kept {o s : State} (h : Kept o s) (k : SlotId) :
    Kept o (State.stageOrder s k) := by
  unfold State.stageOrder
  try dsimp only
  repeat' split
  all_goals simp +contextual (maxDischargeDepth := 40) [h]

theorem measure_kept {o s : State} (h : Kept o s) (k : SlotId) (ds : List DeckId) (f : State → MetroSet → State)
    (x : ∀ t m, Kept o t → Kept o (f t m)) : Kept o (State.measure s k ds f) := by
  unfold State.measure
  split
  · dsimp only
    split
    · exact answer_kept (touchIdle_kept h) _ _ _
    · exact x _ _ (touchIdle_kept h)
  · exact answer_kept h _ _ _

theorem unlessSaturated_kept {o s : State} (h : Kept o s) (k : SlotId) (m : MetroSet) (ds : List DeckId) {f : State}
    (x : Kept o f) : Kept o (State.unlessSaturated s k m ds f) := by
  unfold State.unlessSaturated
  split
  · exact answer_kept h _ _ _
  · exact x

@[simp] theorem zeroCalOrder_kept {o s : State} (h : Kept o s) (k : SlotId) :
    Kept o (State.zeroCalOrder s k) := by
  unfold State.zeroCalOrder
  dsimp only
  exact measure_kept h _ _ _ fun t m y => unlessSaturated_kept y _ _ _ (answer_kept (restage_kept y _) _ _ _)

@[simp] theorem spanCalOrder_kept {o s : State} (h : Kept o s) (k : SlotId) :
    Kept o (State.spanCalOrder s k) := by
  unfold State.spanCalOrder
  dsimp only
  split
  · exact measure_kept h _ _ _ fun t m y => badParam_kept y _ _
  · refine measure_kept h _ _ _ fun t m y => ?_
    split
    · exact badParam_kept y _ _
    · refine unlessSaturated_kept y _ _ _ ?_
      split
      · exact badParam_kept y _ _
      · exact answer_kept (restage_kept y _) _ _ _

@[simp] theorem cornerReadOrder_kept {o s : State} (h : Kept o s) (k : SlotId) :
    Kept o (State.cornerReadOrder s k) := by
  unfold State.cornerReadOrder
  dsimp only
  exact measure_kept h _ _ _ fun t m y => unlessSaturated_kept y _ _ _ (answer_kept y _ _ _)

@[simp] theorem testLoadOrder_kept {o s : State} (h : Kept o s) (k : SlotId) :
    Kept o (State.testLoadOrder s k) := by
  unfold State.testLoadOrder
  dsimp only
  refine measure_kept h _ _ _ fun t m y => ?_
  split
  · exact answer_kept y _ _ _
  · refine unlessSaturated_kept y _ _ _ ?_
    apply answer_kept
    exact kept_session y id

theorem beginCommit_kept {o s : State} (h : Kept o s) (k : SlotId) (staged : MetroSet) (params : List Nat)
    (x : s.session.state = .opened) : Kept o (State.beginCommit s k staged params) := by
  unfold State.beginCommit
  dsimp only
  apply requestJob_kept
  refine setSession_kept ?_ _ fun y c => ?_
  · exact kept_session h id
  exact absurd ((h.exclusive y c).symm.trans x) (by decide)

@[simp] theorem commitOrder_kept {o s : State} (h : Kept o s) (k : SlotId) :
    Kept o (State.commitOrder s k) := by
  unfold State.commitOrder
  split
  · rename_i m x _
    dsimp only
    have y : (State.touchIdle s).session.state = .opened := by rw [touchIdle_state]; exact x
    generalize hz : s.touchIdle = z at y
    have w : Kept o z := by rw [← hz]; exact touchIdle_kept h
    split
    · exact answer_kept w _ _ _
    · split
      · exact answer_kept w _ _ _
      · split
        · exact answer_kept (closeSession_kept w _) _ _ _
        · split
          · exact answer_kept w _ _ _
          · exact beginCommit_kept w _ _ _ y
  · exact answer_kept h _ _ _

@[simp] theorem commitCompleted_kept {o s : State} (h : Kept o s) :
    Kept o (State.commitCompleted s) := by
  unfold State.commitCompleted
  split
  · exact kept_session (writeAudit_kept h _ _) id
  · exact h

@[simp] theorem commitFailed_kept {o s : State} (h : Kept o s) (k : SlotId) (n : Nat) :
    Kept o (State.commitFailed s k n) := by
  unfold State.commitFailed
  split <;> simp [h]

@[simp] theorem noticeChanged_kept {o s : State} (h : Kept o s) (before : List Cell) :
    Kept o (State.noticeChanged s before) := by
  unfold State.noticeChanged
  apply kept_foldl _ _ h
  intro t c k
  split
  · exact k
  · exact cellNotice_kept k _

@[simp] theorem installSet_kept {o s : State} (h : Kept o s) :
    Kept o (State.installSet s) := by
  unfold State.installSet
  split
  · dsimp only
    apply answer_kept
    apply endSession_kept
    apply writeLong_kept
    apply noticeChanged_kept
    apply kept_foldl (fun _ _ k => judgeDegraded_kept k _)
    exact ⟨h.memory, h.red, h.exclusive, h.edges, h.outbox, h.entries, h.rows, h.bits, h.steady, h.pending, h.power, h.unfinished⟩
  · exact h

@[simp] theorem abortOrder_kept {o s : State} (h : Kept o s) (k : SlotId) :
    Kept o (State.abortOrder s k) := by
  unfold State.abortOrder
  split <;> simp [h]

@[simp] theorem readMetrologyOrder_kept {o s : State} (h : Kept o s) (k : SlotId) :
    Kept o (State.readMetrologyOrder s k) := by
  unfold State.readMetrologyOrder
  simp +contextual (maxDischargeDepth := 40) [h]

@[simp] theorem expireSession_kept {o s : State} (h : Kept o s) :
    Kept o (State.expireSession s) := by
  unfold State.expireSession
  split <;> simp [h]

@[simp] theorem workSession_kept {o s : State} (h : Kept o s) : Kept o (State.workSession s) := by
  unfold State.workSession
  split
  · exact kept_session h id
  · exact h

@[simp] theorem changeSeal_kept {o s : State} (h : Kept o s) (level : SealLevel) :
    Kept o (State.changeSeal s level) := by
  unfold State.changeSeal
  try dsimp only
  repeat' split
  all_goals simp +contextual (maxDischargeDepth := 40) [h]

@[simp] theorem initialSeal_kept {o s : State} (h : Kept o s) (level : SealLevel) :
    Kept o (State.initialSeal s level) := by
  unfold State.initialSeal
  repeat' split
  all_goals simp +contextual (maxDischargeDepth := 40) [h]

/-! SiteClock. -/

@[simp] theorem setSiteOrder_kept {o s : State} (h : Kept o s) (k : SlotId) :
    Kept o (State.setSiteOrder s k) := by
  unfold State.setSiteOrder
  repeat' split
  all_goals simp +contextual (maxDischargeDepth := 40) [h]

@[simp] theorem siteCompleted_kept {o s : State} (h : Kept o s) (k : SlotId) (x : Site) :
    Kept o (State.siteCompleted s k x) := by
  unfold State.siteCompleted
  apply answer_kept
  exact kept_site h

@[simp] theorem readSiteOrder_kept {o s : State} (h : Kept o s) (k : SlotId) :
    Kept o (State.readSiteOrder s k) := by
  simp [State.readSiteOrder, h]

@[simp] theorem setTime_kept {o s : State} (h : Kept o s) (c : EngineClock) :
    Kept o (State.setTime s c) := by
  unfold State.setTime
  simp +contextual (maxDischargeDepth := 40) [h]

@[simp] theorem setClockOrder_kept {o s : State} (h : Kept o s) (k : SlotId) :
    Kept o (State.setClockOrder s k) := by
  unfold State.setClockOrder
  simp +contextual (maxDischargeDepth := 40) [h]

@[simp] theorem advanceTime_kept {o s : State} (h : Kept o s) :
    Kept o (State.advanceTime s) := by
  unfold State.advanceTime
  split <;> simp [h]

@[simp] theorem workClock_kept {o s : State} (h : Kept o s) :
    Kept o (State.workClock s) := by
  simp [State.workClock, h]

/-! StoreQueue. -/

@[simp] theorem writeRow_kept {o s : State} (h : Kept o s) (w : RowWrite) :
    Kept o (State.writeRow s w) := by
  unfold State.writeRow
  split <;> exact kept_store h id

@[simp] theorem leaveRow_kept {o s : State} (h : Kept o s) (w : RowWrite) (left : Residue) :
    Kept o (State.leaveRow s w left) := by
  unfold State.leaveRow
  split
  all_goals first | exact h | exact kept_store h id

@[simp] theorem enterJobs_kept {o s : State} (h : Kept o s) :
    Kept o (State.enterJobs s) := by
  exact kept_store h fun w => enterAll_queued w _

@[simp] theorem jobCompleted_kept {o s : State} (h : Kept o s) (j : JobKind) :
    Kept o (State.jobCompleted s j) := by
  unfold State.jobCompleted
  split <;> simp [h]

@[simp] theorem jobFailed_kept {o s : State} (h : Kept o s) (j : JobKind) :
    Kept o (State.jobFailed s j) := by
  unfold State.jobFailed
  split <;> simp [h]

@[simp] theorem setLatch_kept {o s : State} (h : Kept o s) :
    Kept o (State.setLatch s) := by
  unfold State.setLatch
  refine setCause_kept (writeWord_kept ?_ _ _) _ inFive_store
  exact kept_store h id

@[simp] theorem failJob_kept {o s : State} (h : Kept o s) (j : Job) (w : RowWrite) :
    Kept o (State.failJob s j w) := by
  unfold State.failJob
  dsimp only
  apply kept_foldl (fun _ _ k => jobFailed_kept k _)
  apply jobFailed_kept
  apply writeAudit_kept
  apply setLatch_kept
  exact kept_store h fun _ => Nat.zero_le _

theorem finishRow_kept {o s : State} (h : Kept o s) {j : Job} {w : RowWrite} {rest : List RowWrite}
    (e : s.writing = some (j, w, rest)) : Kept o (State.finishRow s j w rest) := by
  obtain ⟨q, hq, hr⟩ := writing_queue e
  have m : (s.writeRow w).store.queue = s.store.queue := by
    unfold State.writeRow
    split <;> rfl
  unfold State.finishRow
  dsimp only
  split
  · apply jobCompleted_kept
    apply kept_store (writeRow_kept h w)
    intro x
    simp only [queued_iff, m, hq, List.drop_one, List.tail_cons, List.map_cons, List.sum_cons, hr,
      List.length_cons] at x ⊢
    omega
  · apply kept_store (writeRow_kept h w)
    intro x
    simp only [queued_iff, m, hq, List.drop_one, List.tail_cons, List.map_cons, List.sum_cons, hr,
      List.length_cons] at x ⊢
    omega

@[simp] theorem rowWritten_kept {o s : State} (h : Kept o s) (matched : Bool) (left : Residue) :
    Kept o (State.rowWritten s matched left) := by
  unfold State.rowWritten
  dsimp only
  split
  · exact enterJobs_kept h
  · rename_i e
    repeat' split
    · exact finishRow_kept (enterJobs_kept h) e
    · exact failJob_kept (leaveRow_kept (enterJobs_kept h) _ _) _ _
    · exact kept_store (enterJobs_kept h) id

@[simp] theorem finishStore_kept {o s : State} (h : Kept o s) (f : RowFinish) :
    Kept o (State.finishStore s f) := by
  unfold State.finishStore
  dsimp only
  refine kept_store ?_ fun _ => Nat.zero_le _
  split
  · exact enterJobs_kept h
  · rename_i e
    split
    · exact finishRow_kept (enterJobs_kept h) e
    · exact failJob_kept (leaveRow_kept (enterJobs_kept h) _ _) _ _

@[simp] theorem cutStore_kept {o s : State} (h : Kept o s) (left : Residue) :
    Kept o (State.cutStore s left) := by
  unfold State.cutStore
  dsimp only
  refine kept_store ?_ fun _ => Nat.zero_le _
  split
  · exact enterJobs_kept h
  · exact leaveRow_kept (enterJobs_kept h) _ _

/-! OrderIntake. -/

@[simp] theorem setLink_kept {o s : State} (h : Kept o s) (st : LinkState) :
    Kept o (State.setLink s st) := by
  simp [State.setLink, h]

@[simp] theorem setLinkFault_kept {o s : State} (h : Kept o s) (on : Bool) :
    Kept o (State.setLinkFault s on) := by
  unfold State.setLinkFault
  exact kept_foldl (fun _ _ k => mapFlags_kept k _ _) _ h

@[simp] theorem linkNotice_kept {o s : State} (h : Kept o s) :
    Kept o (State.linkNotice s) := by
  simp [State.linkNotice, h]

@[simp] theorem clearLinkOrder_kept {o s : State} (h : Kept o s) (k : SlotId) :
    Kept o (State.clearLinkOrder s k) := by
  unfold State.clearLinkOrder
  split <;> simp +contextual (maxDischargeDepth := 40) [h]

@[simp] theorem beginOrder_kept {o s : State} (h : Kept o s) (k : SlotId) (kind : OrderKind) :
    Kept o (State.beginOrder s k kind) := by
  unfold State.beginOrder
  simp +contextual (maxDischargeDepth := 40) [h]

@[simp] theorem claimStaging_kept {o s : State} (h : Kept o s) (k : SlotId) :
    Kept o (State.claimStaging s k) := by
  simp [State.claimStaging, h]

theorem takeOrder_kept {o s : State} (h : Kept o s) (k : SlotId) (kind : OrderKind) {owner : State → SlotId → State}
    (x : ∀ t, Kept o t → Kept o (owner t k)) : Kept o (State.takeOrder s k kind owner) := by
  have b := beginOrder_kept h k kind
  unfold State.takeOrder
  dsimp only
  repeat' split
  · exact badParam_kept b _ _
  · exact answer_kept b _ _ _
  · exact x _ (claimStaging_kept b _)
  · exact x _ b

@[simp] theorem publishOrder_kept {o s : State} (h : Kept o s) (k : SlotId) : Kept o (State.publishOrder s k) := by
  unfold State.publishOrder
  dsimp only
  split
  · exact answer_kept h _ _ _
  · split
    · exact answer_kept h _ _ _
    · split
      · apply answer_kept
        exact kept_journal h id id
      · exact answer_kept (publish_kept h) _ _ _

@[simp] theorem setPosition_kept {o s : State} (h : Kept o s) (k : SlotId) :
    Kept o (State.setPosition s k) := by
  simp [State.setPosition, h]

/-- What an owner does with an order (R107). -/
theorem ownerOf_kept {o t : State} (h : Kept o t) (kind : OrderKind) (k : SlotId) : Kept o (ownerOf kind t k) := by
  cases kind <;> simp [ownerOf, h]

@[simp] theorem takeSlot_kept {o s : State} (h : Kept o s) (k : SlotId) : Kept o (State.takeSlot s k) := by
  unfold State.takeSlot
  split
  · exact takeOrder_kept h _ _ fun _ x => ownerOf_kept x _ _
  · exact answer_kept (writeWord_kept h _ _) _ _ _

@[simp] theorem markWithdrawn_kept {o s : State} (h : Kept o s) (k : SlotId) :
    Kept o (State.markWithdrawn s k) := by
  simp [State.markWithdrawn, h]

@[simp] theorem handWithdrawal_kept {o s : State} (h : Kept o s) (k : SlotId) :
    Kept o (State.handWithdrawal s k) := by
  unfold State.handWithdrawal
  repeat' split
  all_goals simp +contextual (maxDischargeDepth := 40) [h]

theorem examineSlot_kept {o : State} {p : State × Option SlotId} (h : Kept o p.1) (k : SlotId) :
    Kept o (examineSlot p k).1 := by
  unfold examineSlot
  repeat' split
  · exact takeSlot_kept h _
  · exact handWithdrawal_kept h _
  · exact h

theorem examineSlots_kept {o : State} (l : List SlotId) {p : State × Option SlotId} (h : Kept o p.1) :
    Kept o (l.foldl examineSlot p).1 := by
  induction l generalizing p with
  | nil => exact h
  | cons k l ih => exact ih (examineSlot_kept h k)

@[simp] theorem sweep_kept {o s : State} (h : Kept o s) : Kept o (State.sweep s) := by
  have x := examineSlots_kept (rotation s.intake.position) (p := (s, none)) h
  unfold State.sweep
  split
  · dsimp only
    split
    · exact setPosition_kept x _
    · exact x
  · exact h

theorem takePosted_kept {o s : State} (h : Kept o s) (k : SlotId) (kind : OrderKind) {owner : State → SlotId → State}
    (x : ∀ t, Kept o t → Kept o (owner t k)) : Kept o (State.takePosted s k kind owner) := by
  unfold State.takePosted
  split
  · exact setPosition_kept (takeOrder_kept h _ _ x) _
  · exact h

/-! Board. -/

@[simp] theorem writeBoard_kept {o s : State} (h : Kept o s) :
    Kept o (State.writeBoard s) := by
  simp [State.writeBoard, h]

@[simp] theorem bumpBoard_kept {o s : State} (h : Kept o s) :
    Kept o (State.bumpBoard s) := by
  simp [State.bumpBoard, h]

@[simp] theorem refreshBoard_kept {o s : State} (h : Kept o s) :
    Kept o (State.refreshBoard s) := by
  unfold State.refreshBoard
  simp +contextual (maxDischargeDepth := 40) [h]

/-! Cadence. -/

@[simp] theorem acceptFrame_kept {o s : State} (h : Kept o s) (f : Frame) :
    Kept o (State.acceptFrame s f) := by
  simp [State.acceptFrame, h]

@[simp] theorem countCadence_kept {o s : State} (h : Kept o s) :
    Kept o (State.countCadence s) := by
  simp [State.countCadence, h]

@[simp] theorem clearRuns_kept {o s : State} (h : Kept o s) :
    Kept o (State.clearRuns s) := by
  simp [State.clearRuns, h]

@[simp] theorem enterLost_kept {o s : State} (h : Kept o s) :
    Kept o (State.enterLost s) := by
  unfold State.enterLost
  simp +contextual (maxDischargeDepth := 40) [h]

@[simp] theorem enterLive_kept {o s : State} (h : Kept o s) : Kept o (State.enterLive s) := by
  unfold State.enterLive
  simp +contextual (maxDischargeDepth := 40) [h]

@[simp] theorem enterResumed_kept {o s : State} (h : Kept o s) : Kept o (State.enterResumed s) := by
  unfold State.enterResumed
  simp +contextual (maxDischargeDepth := 40) [h]

@[simp] theorem enterLink_kept {o s : State} (h : Kept o s) (st : LinkState) : Kept o (State.enterLink s st) := by
  unfold State.enterLink
  split <;> simp [h]

/-- One piece of a cadence event neither stops it nor ends the part's power. -/
@[simp] theorem doPiece_kept {o s : State} (h : Kept o s) (p : Piece) : Kept o (State.doPiece s p) := by
  unfold State.doPiece
  split <;> simp +contextual (maxDischargeDepth := 40) [h]

/-- An event with a row of its own neither stops the cadence event nor ends the part's power. -/
@[simp] theorem takeOwn_kept {o s : State} (h : Kept o s) (e : Own) : Kept o (State.takeOwn s e) := by
  unfold State.takeOwn
  split <;> simp +contextual (maxDischargeDepth := 40) [h]

/-- What `run` does with an event of its own that is not due: nothing. -/
theorem run_skip {apart : Bool} {s : State} {e : Own} {ps : List Piece} (d : s.ownDue e = false) :
    s.run apart (.own e :: ps) = s.run apart ps := by
  simp [State.run, d]

/-- What `run` does with an event of its own that is due, taken apart: it stops there. -/
theorem run_stop {s : State} {e : Own} {ps : List Piece} (d : s.ownDue e = true) :
    s.run true (.own e :: ps) = { s with unfinished := .own e :: ps } := by
  simp [State.run, d]

/-- What `run` does with an event of its own that is due, not taken apart: it takes it and goes on. -/
theorem run_take {s : State} {e : Own} {ps : List Piece} (d : s.ownDue e = true) :
    s.run false (.own e :: ps) = (s.takeOwn e).run false ps := by
  simp [State.run, d]

/-- What `run` does with a piece that is no event of its own. -/
theorem run_piece {apart : Bool} {s : State} {p : Piece} {ps : List Piece} (n : ∀ e, p ≠ .own e) :
    s.run apart (p :: ps) = (s.doPiece p).run apart ps :=
  State.run.eq_3 apart s p ps n

/-- Whether an event is due does not depend on what is left of the cadence event. -/
@[simp] theorem ownDue_unfinished (s : State) (ps : List Piece) (e : Own) :
    ({ s with unfinished := ps } : State).ownDue e = s.ownDue e := by
  cases e <;> rfl

theorem keeps_unfinished {o s : State} (h : Keeps o s) (ps : List Piece) : Keeps o { s with unfinished := ps } :=
  ⟨h.memory, h.red, h.exclusive, h.edges, h.outbox, h.entries, h.rows, h.bits, h.steady, h.pending⟩

/-- The pieces of a cadence event keep the invariants. -/
theorem run_keeps (apart : Bool) {o s : State} (h : Keeps o s) (ps : List Piece) : Keeps o (s.run apart ps) := by
  induction ps generalizing s with
  | nil => exact h
  | cons p ps ih =>
    by_cases n : ∀ e, p ≠ .own e
    · rw [run_piece n]
      exact ih (h.trans (doPiece_kept (Kept.refl s) p).keeps)
    · obtain ⟨e, rfl⟩ : ∃ e, p = .own e := by simpa using n
      cases d : s.ownDue e with
      | false =>
        rw [run_skip d]
        exact ih h
      | true =>
        cases apart with
        | true =>
          rw [run_stop d]
          exact keeps_unfinished h _
        | false =>
          rw [run_take d]
          exact ih (h.trans (takeOwn_kept (Kept.refl s) e).keeps)

/-- A cadence event stops, if at all, at an event that is due, and its part still runs. -/
theorem run_stops (apart : Bool) {s : State} (w : s.power = .on) (h : s.unfinished = []) (ps : List Piece) :
    (s.run apart ps).stopsAtDue := by
  induction ps generalizing s with
  | nil => exact stops_nil h
  | cons p ps ih =>
    by_cases n : ∀ e, p ≠ .own e
    · rw [run_piece n]
      have k := doPiece_kept (Kept.refl s) p
      exact ih (k.power.trans w) (k.unfinished.trans h)
    · obtain ⟨e, rfl⟩ : ∃ e, p = .own e := by simpa using n
      cases d : s.ownDue e with
      | false =>
        rw [run_skip d]
        exact ih w h
      | true =>
        cases apart with
        | true =>
          rw [run_stop d]
          intro q qs x
          obtain ⟨rfl, rfl⟩ := List.cons.inj x
          exact ⟨w, e, rfl, by simpa using d⟩
        | false =>
          rw [run_take d]
          have k := takeOwn_kept (Kept.refl s) e
          exact ih (k.power.trans w) (k.unfinished.trans h)

/-- A cadence event that is not taken apart does not stop, and its part still runs. -/
theorem run_whole {s : State} (ps : List Piece) :
    (s.run false ps).power = s.power ∧ (s.run false ps).unfinished = s.unfinished := by
  induction ps generalizing s with
  | nil => exact ⟨rfl, rfl⟩
  | cons p ps ih =>
    by_cases n : ∀ e, p ≠ .own e
    · rw [run_piece n]
      have k := doPiece_kept (Kept.refl s) p
      exact ⟨ih.1.trans k.power, ih.2.trans k.unfinished⟩
    · obtain ⟨e, rfl⟩ : ∃ e, p = .own e := by simpa using n
      cases d : s.ownDue e with
      | false =>
        rw [run_skip d]
        exact ih
      | true =>
        rw [run_take d]
        have k := takeOwn_kept (Kept.refl s) e
        exact ⟨ih.1.trans k.power, ih.2.trans k.unfinished⟩

/-- Finishing a cadence event keeps the invariants. -/
theorem finish_keeps {o s : State} (h : Keeps o s) : Keeps o s.finish :=
  run_keeps _ (keeps_unfinished h []) _

/-- After it nothing is left, and the part still runs. -/
@[simp] theorem finish_unfinished (s : State) : s.finish.unfinished = [] := (run_whole _).2
@[simp] theorem finish_power (s : State) : s.finish.power = s.power := (run_whole _).1

/-- A command that was given to a part that runs has been taken: the invariants are kept, and a cadence event has
stopped, if at all, at an event that is due. -/
structure Taken (o s : State) : Prop where
  keeps : Keeps o s
  stops : s.stopsAtDue

/-- What is taken whole stops at nothing. -/
theorem Kept.taken {o x s : State} (h : Keeps o x) (w : x.unfinished = []) (k : Kept x s) : Taken o s :=
  ⟨h.trans k.keeps, stops_nil (k.unfinished.trans w)⟩

/-- The pieces of a cadence event, in a part that runs and has finished the one before. -/
theorem run_taken (apart : Bool) {o s : State} (h : Keeps o s) (w : s.power = .on) (u : s.unfinished = [])
    (ps : List Piece) : Taken o (s.run apart ps) :=
  ⟨run_keeps _ h _, run_stops _ w u _⟩

theorem cadenceEvent_taken {o s : State} (h : Keeps o s) (w : s.power = .on) (u : s.unfinished = []) (frame : Bool)
    (change : List Piece) (plan : Plan) : Taken o (s.cadenceEvent frame change plan) := by
  have k := countCadence_kept (Kept.refl s)
  exact run_taken _ (h.trans k.keeps) (k.power.trans w) (k.unfinished.trans u) _

/-- A cadence event at a state that an operation has left. -/
theorem cadenceEvent_after {o s x : State} (h : Keeps o s) (w : s.power = .on) (u : s.unfinished = []) (k : Kept s x)
    (frame : Bool) (change : List Piece) (plan : Plan) : Taken o (x.cadenceEvent frame change plan) :=
  cadenceEvent_taken (h.trans k.keeps) (k.power.trans w) (k.unfinished.trans u) _ _ _

theorem expireTimer_taken {o s : State} (h : Keeps o s) (w : s.power = .on) (u : s.unfinished = []) (plan : Plan) :
    Taken o (s.expireTimer plan) := by
  unfold State.expireTimer
  dsimp only
  split
  · exact Kept.taken h u (kept_link (Kept.refl s))
  · exact cadenceEvent_after h w u (kept_link (kept_link (Kept.refl s))) _ _ _

/-- An expiry that is not taken apart is taken whole. -/
theorem expireTimer_whole {s : State} (plan : Plan) (p : plan.apart = false) :
    (s.expireTimer plan).power = s.power ∧ (s.expireTimer plan).unfinished = s.unfinished := by
  unfold State.expireTimer
  dsimp only
  split
  · exact ⟨rfl, rfl⟩
  · unfold State.cadenceEvent
    rw [p]
    exact run_whole _

theorem useFrame_taken {o s : State} (h : Keeps o s) (w : s.power = .on) (u : s.unfinished = []) (plan : Plan) :
    Taken o (s.useFrame plan) := by
  unfold State.useFrame
  repeat' split
  · exact cadenceEvent_taken h w u _ _ _
  · exact cadenceEvent_taken h w u _ _ _
  · exact run_taken _ h w u _
  · exact ⟨h, stops_nil u⟩
  · exact run_taken _ h w u _
  · exact ⟨h, stops_nil u⟩

theorem receiveFrame_taken {o s : State} (h : Keeps o s) (w : s.power = .on) (u : s.unfinished = [])
    (bytes : List Byte) (plan : Plan) : Taken o (s.receiveFrame bytes plan) := by
  unfold State.receiveFrame
  dsimp only
  split
  · have x : ∀ t : State, Keeps o t → t.power = .on → t.unfinished = [] →
        Taken o ((t.acceptFrame (parseFrame bytes)).useFrame plan) := fun t k p q =>
      useFrame_taken (k.trans (acceptFrame_kept (Kept.refl t) _).keeps) p q _
    split
    · have e := expireTimer_whole (s := s) plainPlan rfl
      exact x _ (expireTimer_taken h w u _).keeps (e.1.trans w) (e.2.trans u)
    · exact x _ h w u
  · exact ⟨h, stops_nil u⟩

theorem tick_taken {o s : State} (h : Keeps o s) (w : s.power = .on) (u : s.unfinished = []) (plan : Plan) :
    Taken o (s.tick plan) := by
  unfold State.tick
  split
  · exact cadenceEvent_after h w u (kept_link (Kept.refl s)) _ _ _
  · exact ⟨h, stops_nil u⟩

theorem frameTimerExpires_taken {o s : State} (h : Keeps o s) (w : s.power = .on) (u : s.unfinished = [])
    (plan : Plan) : Taken o (s.frameTimerExpires plan) := by
  unfold State.frameTimerExpires
  split
  · exact expireTimer_taken h w u _
  · exact ⟨h, stops_nil u⟩

/-- The row of an event at which a cadence event can stop. -/
theorem onOwn_taken {o s : State} (h : Keeps o s) (w : s.power = .on) (z : s.stopsAtDue) (e : Own)
    (rest : List Piece → List Piece) (apart : Bool) : Taken o (s.onOwn e rest apart) := by
  unfold State.onOwn
  repeat' split
  · have k := takeOwn_kept (Kept.refl ({ s with unfinished := [] } : State)) e
    exact run_taken _ ((keeps_unfinished h []).trans k.keeps) (k.power.trans w) k.unfinished _
  · exact ⟨h, z⟩
  · exact ⟨h, z⟩

/-! StartUp. -/

@[simp] theorem readCounters_kept {o s : State} (h : Kept o s) (cause : StartCause) :
    Kept o (State.readCounters s cause) := by
  unfold State.readCounters
  dsimp only
  split
  · exact kept_store h id
  · apply setLatch_kept
    exact kept_store h id

@[simp] theorem readSet_kept {o s : State} (h : Kept o s) :
    Kept o (State.readSet s) := by
  unfold State.readSet
  dsimp only
  split <;> simp +contextual (maxDischargeDepth := 40) [h]

@[simp] theorem readAuditLog_kept {o s : State} (h : Kept o s) (cause : StartCause) :
    Kept o (State.readAuditLog s cause) := by
  unfold State.readAuditLog
  split
  · exact kept_audit h id
  · exact kept_audit h fun _ => rebuiltEntries_length _

@[simp] theorem writeVerified_kept {o s : State} (h : Kept o s) (countersLost : Bool) (test : Option Nat) :
    Kept o (State.writeVerified s countersLost test) := by
  unfold State.writeVerified
  try dsimp only
  repeat' split
  all_goals simp +contextual (maxDischargeDepth := 40) [h]

@[simp] theorem loseSession_kept {o s : State} (h : Kept o s) :
    Kept o (State.loseSession s) := by
  unfold State.loseSession
  split
  · exact kept_store (writeAudit_kept h _ _) id
  · exact h

@[simp] theorem raiseBoot_kept {o s : State} (h : Kept o s) (cause : StartCause) :
    Kept o (State.raiseBoot s cause) := by
  unfold State.raiseBoot
  split
  · exact h
  · exact kept_store h id

@[simp] theorem queueStartUp_kept {o s : State} (h : Kept o s) (repair : List RowWrite) (changed : Bool) :
    Kept o (State.queueStartUp s repair changed) := by
  unfold State.queueStartUp
  split <;> simp [h]

@[simp] theorem startBlocks_kept {o s : State} (h : Kept o s) (r : Rows) :
    Kept o (State.startBlocks s r) := by
  exact ⟨h.memory, fun _ => start_red, fun _ c => (nomatch c), fun _ => Nat.zero_le _, h.outbox, h.entries, h.rows,
    h.bits, h.steady, h.pending, h.power, h.unfinished⟩

@[simp] theorem verify_kept {o s : State} (h : Kept o s) (cause : StartCause) :
    Kept o (State.verify s cause) := by
  unfold State.verify
  simp +contextual (maxDischargeDepth := 40) [h]

@[simp] theorem writeHeader_kept {o s : State} (h : Kept o s) (cause : StartCause) :
    Kept o (State.writeHeader s cause) := by
  unfold State.writeHeader
  simp +contextual (maxDischargeDepth := 40) [h]

@[simp] theorem releaseHeld_kept {o s : State} (h : Kept o s) :
    Kept o (State.releaseHeld s) := by
  exact kept_foldl (fun _ _ k => offer_kept k _) _ (kept_journal h id fun _ => rfl)

@[simp] theorem noticeSite_kept {o s : State} (h : Kept o s) :
    Kept o (State.noticeSite s) := by
  unfold State.noticeSite
  split <;> simp [h]

/-- Once the held records are released, records are held no longer. -/
theorem releaseHeld_steady (s : State) : s.releaseHeld.journal.holding = false :=
  (kept_foldl (fun _ _ k => offer_kept k _) _
    (Kept.refl ({ s with journal := { s.journal with holding := false, held := [] } } : State))).steady rfl

/-- A start-up keeps what it keeps after it has begun to hold records, if it holds none in the end. -/
theorem kept_holding {o s : State} (h : Kept o.holdRecords s) (w : s.journal.holding = false) : Kept o s :=
  ⟨h.memory, h.red, h.exclusive, h.edges, h.outbox, h.entries, h.rows, h.bits, fun _ => w, h.pending, h.power,
    h.unfinished⟩

/-- A part cleared by power-on or pin reset has every invariant, whatever came before. -/
theorem cleared_inv (s : State) (p : Power) : (s.cleared p).Inv :=
  ⟨rfl, start_red, fun c => (nomatch c), ⟨Nat.zero_le _, Nat.zero_le _, Nat.zero_le _, Nat.zero_le _⟩,
    ⟨BitVec.zero_and, BitVec.zero_and⟩, rfl, stops_nil rfl⟩

/-- Between two states that have every invariant. -/
theorem Keeps.of_inv {o s : State} (i : s.Inv) (h : s.pending = o.pending) : Keeps o s :=
  ⟨fun _ => i.memory, fun _ => i.red, fun _ => i.exclusive, fun _ => i.bounded.edges, fun _ => i.bounded.outbox,
    fun _ => i.bounded.entries, fun _ => i.bounded.rows, fun _ => i.bits, fun _ => i.steady, h⟩

theorem cleared_taken {o s : State} (h : s.pending = o.pending) (p : Power) : Taken o (s.cleared p) :=
  ⟨Keeps.of_inv (cleared_inv s p) h, stops_nil rfl⟩

theorem startPart_taken {o s : State} (h : s.pending = o.pending) (cause : StartCause) :
    Taken o (State.startPart s cause) := by
  refine Kept.taken (cleared_taken h .on).keeps rfl ?_
  unfold State.startPart
  dsimp only
  refine kept_holding ?_ ((noticeSite_kept (Kept.refl _)).steady (releaseHeld_steady _))
  apply noticeSite_kept
  apply releaseHeld_kept
  apply offer_kept
  apply writeBoard_kept
  apply writeHeader_kept
  refine kept_mem ?_ fun _ => rfl
  apply verify_kept
  exact Kept.refl _

@[simp] theorem restartJournal_kept {o s : State} (h : Kept o s) :
    Kept o (State.restartJournal s) := by
  unfold State.restartJournal
  dsimp only
  refine kept_journal ?_ id id
  refine setOutbox_kept ?_ _ fun _ => Nat.zero_le _
  apply kept_foldl (fun _ _ k => dropRecord_kept k _)
  repeat' split
  · exact endReservation_kept h
  · exact publish_kept (endReservation_kept h)
  · exact endReservation_kept h

@[simp] theorem abandonOrders_kept {o s : State} (h : Kept o s) (finish : RowFinish) :
    Kept o (State.abandonOrders s finish) := by
  unfold State.abandonOrders
  dsimp only
  have x : Kept o (((({ s with regs := { s.regs with restart := true, run := false } } : State).finishStore
      finish).clearRun 0x400 0x800)) := by
    apply clearRun_kept
    apply finishStore_kept
    exact kept_regs h id
  exact ⟨x.memory, x.red, fun _ c => (nomatch c), x.edges, x.outbox, x.entries, x.rows, fun b => ⟨BitVec.zero_and, (x.bits b).2⟩, x.steady,
    x.pending, x.power, x.unfinished⟩

@[simp] theorem restartEngine_kept {o s : State} (h : Kept o s) (finish : RowFinish) :
    Kept o (State.restartEngine s finish) := by
  unfold State.restartEngine
  dsimp only
  refine kept_regs ?_ fun b => ⟨b.1, b.2⟩
  refine h.trans (kept_holding ?_ ((noticeSite_kept (Kept.refl _)).steady (releaseHeld_steady _)))
  apply noticeSite_kept
  apply releaseHeld_kept
  apply drain_kept
  apply offer_kept
  apply restartJournal_kept
  apply refreshBoard_kept
  apply writeHeader_kept
  apply verify_kept
  apply abandonOrders_kept
  exact Kept.refl _

theorem losePower_taken {o s : State} (h : s.pending = o.pending) (left : Residue) :
    Taken o (State.losePower s left) := by
  unfold State.losePower
  refine cleared_taken ?_ _
  split
  · exact (cutStore_kept (Kept.refl s) left).pending.trans h
  · exact h

theorem applyPower_taken {o s : State} (h : s.pending = o.pending) (hold : Bool) (left : Residue) :
    Taken o (State.applyPower s hold left) := by
  have x : (if s.power = .off then s else s.losePower left).pending = o.pending := by
    split
    · exact h
    · exact (losePower_taken h left).keeps.pending
  unfold State.applyPower
  dsimp only
  split
  · exact cleared_taken x _
  · exact startPart_taken x _

theorem resetPin_taken {o s : State} (h : Keeps o s) (z : s.stopsAtDue) (hold : Bool) (left : Residue) :
    Taken o (State.resetPin s hold left) := by
  have x := (cutStore_kept (Kept.refl s) left).pending.trans h.pending
  unfold State.resetPin
  split
  · exact ⟨h, z⟩
  · split
    · exact ⟨h, z⟩
    · exact startPart_taken h.pending _
  · dsimp only
    split
    · exact cleared_taken x _
    · exact startPart_taken x _

/-! The commands' shared frames. -/

theorem settled_taken {o s : State} (h : Keeps o s) (z : s.stopsAtDue) : Taken o s.settled := by
  unfold State.settled
  split
  · exact ⟨finish_keeps h, stops_nil (finish_unfinished s)⟩
  · exact ⟨h, z⟩

theorem whenOn_taken {o s : State} (h : Keeps o s) (z : s.stopsAtDue) {f : State → State}
    (x : ∀ t, t.power = .on → t.unfinished = [] → Keeps o t → Taken o (f t)) : Taken o (s.whenOn f) := by
  unfold State.whenOn
  split
  · rename_i w
    exact x _ ((finish_power s).trans w) (finish_unfinished s) (finish_keeps h)
  · exact ⟨h, z⟩

/-- A command whose meaning is one operation. -/
theorem whenOn_of_kept {o s : State} (h : Keeps o s) (z : s.stopsAtDue) {f : State → State}
    (x : ∀ t, Kept t (f t)) : Taken o (s.whenOn f) :=
  whenOn_taken h z fun t _ u k => Kept.taken k u (x t)

theorem stamped_taken {o s : State} (h : Keeps o s) (z : s.stopsAtDue) (dt : W32) {f : State → State}
    (x : ∀ t, t.power = .on → t.unfinished = [] → Keeps o t → Taken o (f t)) : Taken o (s.stamped dt f) :=
  whenOn_taken h z fun t w u k =>
    have a := advance_kept (Kept.refl t) dt
    x _ (a.power.trans w) (a.unfinished.trans u) (k.trans a.keeps)

theorem takeStopped_taken {o s : State} (h : Keeps o s) (z : s.stopsAtDue) (e : Own) : Taken o (s.takeStopped e) := by
  unfold State.takeStopped
  split
  · exact onOwn_taken h (by assumption) z _ _ _
  · exact ⟨h, z⟩

theorem takeChange_taken {o s : State} (h : Keeps o s) (z : s.stopsAtDue) (e : Own) (st : LinkState) (plan : Plan) :
    Taken o (s.takeChange e st plan) := by
  unfold State.takeChange
  split
  · exact onOwn_taken h (by assumption) z _ _ _
  · exact ⟨h, z⟩

theorem stripChanged_kept {o s : State} (h : Kept o s) (l : Line) (pressed : Bool) :
    Kept o (s.stripChanged l pressed) := by
  unfold State.stripChanged
  dsimp only
  split
  · exact acceptEdge_kept h _ _ _
  · exact h

theorem holdEnds_kept {o s : State} (h : Kept o s) (l : Line) : Kept o (s.holdEnds l) := by
  unfold State.holdEnds
  split
  · exact endHold_kept h _ _
  · exact h

theorem hostWrite_kept {o s : State} (h : Kept o s) (a : WordAddr) (v : W16) : Kept o (s.hostWrite a v) := by
  unfold State.hostWrite State.storeWrite
  repeat' split
  · exact returnPage_kept h _
  · exact writeWord_kept h _ _
  · exact h
  · exact refuseWrite_kept h _

/-- One job entering the queue. -/
theorem enterOne_kept {o s : State} (h : Kept o s) : Kept o { s with store := s.store.enter } :=
  kept_store h fun w => enter_queued w

end Sys2Proof.Machine
end

