-- ==== Sys2Proof/Laws/Monitor.lean ====
section
/-! SUPPORT. What the operations on deck flags, link states and seal states do, deck by deck. -/

namespace Sys2Proof.Machine

@[simp] theorem Four.get_set {α : Type} (f : Four α) (d e : DeckId) (x : α) :
    (f.set d x).get e = if e = d then x else f.get e := by
  fin_cases d <;> fin_cases e <;> rfl

@[simp] theorem Four.set_set {α : Type} (f : Four α) (d : DeckId) (x y : α) : (f.set d x).set d y = f.set d y := by
  fin_cases d <;> rfl

@[simp] theorem Four.set_get {α : Type} (f : Four α) (d : DeckId) : f.set d (f.get d) = f := by
  fin_cases d <;> rfl

@[simp] theorem Four.get_map {α β : Type} (f : Four α) (g : DeckId → α → β) (d : DeckId) :
    (f.map g).get d = g d (f.get d) := by
  fin_cases d <;> rfl

theorem Four.ext_get {α : Type} {f g : Four α} (h : ∀ d, f.get d = g.get d) : f = g := by
  cases f
  cases g
  exact congr (congr (congr (congrArg _ (h 0)) (h 1)) (h 2)) (h 3)

/-- Operations that change the decks of the deck monitor and nothing else. -/
def OnlyDecks (s t : State) : Prop :=
  t = { s with monitor := { s.monitor with decks := t.monitor.decks } }

theorem OnlyDecks.refl (s : State) : OnlyDecks s s := rfl

theorem OnlyDecks.trans {s t u : State} (h : OnlyDecks s t) (k : OnlyDecks t u) : OnlyDecks s u := by
  unfold OnlyDecks at *
  rw [h] at k
  exact k

/-- The flags of one deck replaced by a function of them, if it is enabled (R44). -/
theorem mapFlags_spec (s : State) (d : DeckId) (f : DeckFlags → DeckFlags) :
    OnlyDecks s (s.mapFlags d f) ∧ ∀ e, (s.mapFlags d f).monitor.decks.get e =
      if e = d ∧ s.metro.active.isEnabled d = true then { s.monitor.decks.get e with flags := f (s.flagsOf e) }
      else s.monitor.decks.get e := by
  unfold State.mapFlags
  split
  · rename_i h
    refine ⟨rfl, fun e => ?_⟩
    dsimp only
    rw [Four.get_set]
    by_cases c : e = d
    · subst c
      simp [h, State.flagsOf]
    · simp [c]
  · rename_i h
    exact ⟨rfl, fun e => by simp [h]⟩

/-- The flags of every deck of a list replaced, where enabled. -/
theorem mapFlags_fold (f : DeckFlags → DeckFlags) (l : List DeckId) (n : l.Nodup) (s : State) :
    OnlyDecks s (l.foldl (fun t d => t.mapFlags d f) s) ∧
      ∀ e, (l.foldl (fun t d => t.mapFlags d f) s).monitor.decks.get e =
        if e ∈ l ∧ s.metro.active.isEnabled e = true then { s.monitor.decks.get e with flags := f (s.flagsOf e) }
        else s.monitor.decks.get e := by
  induction l generalizing s with
  | nil => exact ⟨OnlyDecks.refl s, fun e => by simp⟩
  | cons d l ih =>
    obtain ⟨a, b⟩ := mapFlags_spec s d f
    obtain ⟨p, q⟩ := ih (List.nodup_cons.mp n).2 (s.mapFlags d f)
    have m : (s.mapFlags d f).metro = s.metro := by rw [a]
    refine ⟨a.trans p, fun e => ?_⟩
    have g : (s.mapFlags d f).flagsOf e = ((s.mapFlags d f).monitor.decks.get e).flags := rfl
    rw [List.foldl_cons, q e, m, g, b e]
    by_cases c : e = d
    · subst c
      have := (List.nodup_cons.mp n).1
      simp [this]
    · simp [c, State.flagsOf]

/-- LINK_FAULT on every enabled deck (R11). -/
theorem setLinkFault_spec (s : State) (on : Bool) :
    OnlyDecks s (s.setLinkFault on) ∧ ∀ d, (s.setLinkFault on).monitor.decks.get d =
      if s.metro.active.isEnabled d = true then
        { s.monitor.decks.get d with flags := { s.flagsOf d with linkFault := on } }
      else s.monitor.decks.get d := by
  obtain ⟨a, b⟩ := mapFlags_fold (fun f => { f with linkFault := on }) allDecks (by decide) s
  refine ⟨a, fun d => (b d).trans ?_⟩
  have : d ∈ allDecks := by fin_cases d <;> decide
  simp [this]

/-- IN_TEST on every enabled deck (R46). -/
theorem setInTest_spec (s : State) (on : Bool) :
    OnlyDecks s (s.setInTest on) ∧ ∀ d, (s.setInTest on).monitor.decks.get d =
      if s.metro.active.isEnabled d = true then
        { s.monitor.decks.get d with flags := { s.flagsOf d with inTest := on } }
      else s.monitor.decks.get d := by
  obtain ⟨a, b⟩ := mapFlags_fold (fun f => { f with inTest := on }) allDecks (by decide) s
  refine ⟨a, fun d => (b d).trans ?_⟩
  have : d ∈ allDecks := by fin_cases d <;> decide
  simp [this]

end Sys2Proof.Machine
end

