-- ==== Sys2Proof/Laws/PerInstr.lean ====
section
/-! SUPPORT. What holds of every command as syntax, one lemma for each: family `OneWork`, that the plan of a
well-formed command names each block's work at most once. -/

namespace Sys2Proof.Laws

/-- The plan of a command that is a cadence event. -/
def planOf : Instr → Option Plan
  | .frameReceived _ _ plan => some plan
  | .tickTimerEvent _ plan => some plan
  | .frameTimerExpiry _ plan => some plan
  | .warmUpComplete plan => some plan
  | .linkResumed plan => some plan
  | _ => none

/-- A well-formed command names each work at most once in its plan. -/
def OneWork.Statement (i : Instr) : Prop :=
  i.wellFormed = true → ∀ plan, planOf i = some plan → plan.order.Nodup

/-- A well-formed plan names each work at most once. -/
theorem nodup_of_wellFormed {p q : Plan} (h : p.wellFormed = true) (e : some p = some q) : q.order.Nodup := by
  cases e
  exact of_decide_eq_true h

theorem OneWork.powerOn (hold : Bool) (left : Residue) : OneWork.Statement (.powerOn hold left) :=
  fun _ _ e => nomatch e

theorem OneWork.pinReset (hold : Bool) (left : Residue) : OneWork.Statement (.pinReset hold left) :=
  fun _ _ e => nomatch e

theorem OneWork.frameReceived (dt : W32) (bytes : List Byte) (plan : Plan) : OneWork.Statement (.frameReceived dt bytes plan) :=
  fun h _ e => nodup_of_wellFormed (by simp only [Instr.wellFormed, Bool.and_eq_true] at h; exact h.2) e

theorem OneWork.frameAbandoned (dt : W32) (bytes : List Byte) : OneWork.Statement (.frameAbandoned dt bytes) :=
  fun _ _ e => nomatch e

theorem OneWork.tickTimerEvent (dt : W32) (plan : Plan) : OneWork.Statement (.tickTimerEvent dt plan) :=
  fun h _ e => nodup_of_wellFormed h e

theorem OneWork.frameTimerExpiry (dt : W32) (plan : Plan) : OneWork.Statement (.frameTimerExpiry dt plan) :=
  fun h _ e => nodup_of_wellFormed h e

theorem OneWork.linkNoStart : OneWork.Statement .linkNoStart :=
  fun _ _ e => nomatch e

theorem OneWork.warmUpComplete (plan : Plan) : OneWork.Statement (.warmUpComplete plan) :=
  fun h _ e => nodup_of_wellFormed h e

theorem OneWork.linkResumed (plan : Plan) : OneWork.Statement (.linkResumed plan) :=
  fun h _ e => nodup_of_wellFormed h e

theorem OneWork.cellFault (cell : CellId) : OneWork.Statement (.cellFault cell) :=
  fun _ _ e => nomatch e

theorem OneWork.cellRecovered (cell : CellId) : OneWork.Statement (.cellRecovered cell) :=
  fun _ _ e => nomatch e

theorem OneWork.restartDue (cell : CellId) : OneWork.Statement (.restartDue cell) :=
  fun _ _ e => nomatch e

theorem OneWork.channelRestart : OneWork.Statement .channelRestart :=
  fun _ _ e => nomatch e

theorem OneWork.filterFilled (deck : DeckId) : OneWork.Statement (.filterFilled deck) :=
  fun _ _ e => nomatch e

theorem OneWork.zeroWatchExpired (deck : DeckId) : OneWork.Statement (.zeroWatchExpired deck) :=
  fun _ _ e => nomatch e

theorem OneWork.trackingExamination : OneWork.Statement .trackingExamination :=
  fun _ _ e => nomatch e

theorem OneWork.stripEdge (dt : W32) (line : Line) (pressed : Bool) : OneWork.Statement (.stripEdge dt line pressed) :=
  fun _ _ e => nomatch e

theorem OneWork.debounceHoldEnd (dt : W32) (line : Line) : OneWork.Statement (.debounceHoldEnd dt line) :=
  fun _ _ e => nomatch e

theorem OneWork.settleWindowEnd : OneWork.Statement .settleWindowEnd :=
  fun _ _ e => nomatch e

theorem OneWork.crossingAbandoned (bridgeEnd : BridgeEnd) : OneWork.Statement (.crossingAbandoned bridgeEnd) :=
  fun _ _ e => nomatch e

theorem OneWork.stripStuck (line : Line) : OneWork.Statement (.stripStuck line) :=
  fun _ _ e => nomatch e

theorem OneWork.closingTimeout : OneWork.Statement .closingTimeout :=
  fun _ _ e => nomatch e

theorem OneWork.hornToggle : OneWork.Statement .hornToggle :=
  fun _ _ e => nomatch e

theorem OneWork.burstEnd : OneWork.Statement .burstEnd :=
  fun _ _ e => nomatch e

theorem OneWork.slotPosted (slot : SlotId) : OneWork.Statement (.slotPosted slot) :=
  fun _ _ e => nomatch e

theorem OneWork.slotWithdraw (slot : SlotId) : OneWork.Statement (.slotWithdraw slot) :=
  fun _ _ e => nomatch e

theorem OneWork.slotEmptied (slot : SlotId) : OneWork.Statement (.slotEmptied slot) :=
  fun _ _ e => nomatch e

theorem OneWork.pageReturn (page : PageId) : OneWork.Statement (.pageReturn page) :=
  fun _ _ e => nomatch e

theorem OneWork.hostMemoryWrite (addr : WordAddr) (value : W16) : OneWork.Statement (.hostMemoryWrite addr value) :=
  fun _ _ e => nomatch e

theorem OneWork.clearAnswer : OneWork.Statement .clearAnswer :=
  fun _ _ e => nomatch e

theorem OneWork.clearJournal : OneWork.Statement .clearJournal :=
  fun _ _ e => nomatch e

theorem OneWork.clearCondition : OneWork.Statement .clearCondition :=
  fun _ _ e => nomatch e

theorem OneWork.clearProtocol : OneWork.Statement .clearProtocol :=
  fun _ _ e => nomatch e

theorem OneWork.clearStore : OneWork.Statement .clearStore :=
  fun _ _ e => nomatch e

theorem OneWork.attnEnableWrite (value : W16) : OneWork.Statement (.attnEnableWrite value) :=
  fun _ _ e => nomatch e

theorem OneWork.run (value : Bool) : OneWork.Statement (.run value) :=
  fun _ _ e => nomatch e

theorem OneWork.restart (finish : RowFinish) : OneWork.Statement (.restart finish) :=
  fun _ _ e => nomatch e

theorem OneWork.registerWrite (high : Bool) (value : W16) : OneWork.Statement (.registerWrite high value) :=
  fun _ _ e => nomatch e

theorem OneWork.engineTimeAdvance : OneWork.Statement .engineTimeAdvance :=
  fun _ _ e => nomatch e

theorem OneWork.clearLink (slot : SlotId) : OneWork.Statement (.clearLink slot) :=
  fun _ _ e => nomatch e

theorem OneWork.clearCell (slot : SlotId) : OneWork.Statement (.clearCell slot) :=
  fun _ _ e => nomatch e

theorem OneWork.zero (slot : SlotId) : OneWork.Statement (.zero slot) :=
  fun _ _ e => nomatch e

theorem OneWork.armClass (slot : SlotId) : OneWork.Statement (.armClass slot) :=
  fun _ _ e => nomatch e

theorem OneWork.loadClasses (slot : SlotId) : OneWork.Statement (.loadClasses slot) :=
  fun _ _ e => nomatch e

theorem OneWork.setSignals (slot : SlotId) : OneWork.Statement (.setSignals slot) :=
  fun _ _ e => nomatch e

theorem OneWork.setSite (slot : SlotId) : OneWork.Statement (.setSite slot) :=
  fun _ _ e => nomatch e

theorem OneWork.readSite (slot : SlotId) : OneWork.Statement (.readSite slot) :=
  fun _ _ e => nomatch e

theorem OneWork.setClock (slot : SlotId) : OneWork.Statement (.setClock slot) :=
  fun _ _ e => nomatch e

theorem OneWork.firstWeigh (slot : SlotId) : OneWork.Statement (.firstWeigh slot) :=
  fun _ _ e => nomatch e

theorem OneWork.secondWeigh (slot : SlotId) : OneWork.Statement (.secondWeigh slot) :=
  fun _ _ e => nomatch e

theorem OneWork.captureDeadline : OneWork.Statement .captureDeadline :=
  fun _ _ e => nomatch e

theorem OneWork.voidVisit (slot : SlotId) : OneWork.Statement (.voidVisit slot) :=
  fun _ _ e => nomatch e

theorem OneWork.findVisit (slot : SlotId) : OneWork.Statement (.findVisit slot) :=
  fun _ _ e => nomatch e

theorem OneWork.recallTicket (slot : SlotId) : OneWork.Statement (.recallTicket slot) :=
  fun _ _ e => nomatch e

theorem OneWork.publishNow (slot : SlotId) : OneWork.Statement (.publishNow slot) :=
  fun _ _ e => nomatch e

theorem OneWork.openSession (slot : SlotId) : OneWork.Statement (.openSession slot) :=
  fun _ _ e => nomatch e

theorem OneWork.stageParams (slot : SlotId) : OneWork.Statement (.stageParams slot) :=
  fun _ _ e => nomatch e

theorem OneWork.zeroCal (slot : SlotId) : OneWork.Statement (.zeroCal slot) :=
  fun _ _ e => nomatch e

theorem OneWork.spanCal (slot : SlotId) : OneWork.Statement (.spanCal slot) :=
  fun _ _ e => nomatch e

theorem OneWork.cornerRead (slot : SlotId) : OneWork.Statement (.cornerRead slot) :=
  fun _ _ e => nomatch e

theorem OneWork.testLoad (slot : SlotId) : OneWork.Statement (.testLoad slot) :=
  fun _ _ e => nomatch e

theorem OneWork.commitSession (slot : SlotId) : OneWork.Statement (.commitSession slot) :=
  fun _ _ e => nomatch e

theorem OneWork.abortSession (slot : SlotId) : OneWork.Statement (.abortSession slot) :=
  fun _ _ e => nomatch e

theorem OneWork.readMetrology (slot : SlotId) : OneWork.Statement (.readMetrology slot) :=
  fun _ _ e => nomatch e

theorem OneWork.readAudit (slot : SlotId) : OneWork.Statement (.readAudit slot) :=
  fun _ _ e => nomatch e

theorem OneWork.sessionInstall : OneWork.Statement .sessionInstall :=
  fun _ _ e => nomatch e

theorem OneWork.sessionExpired : OneWork.Statement .sessionExpired :=
  fun _ _ e => nomatch e

theorem OneWork.sealChange (level : SealLevel) : OneWork.Statement (.sealChange level) :=
  fun _ _ e => nomatch e

theorem OneWork.sealInitial (level : SealLevel) : OneWork.Statement (.sealInitial level) :=
  fun _ _ e => nomatch e

theorem OneWork.storeJobEnter : OneWork.Statement .storeJobEnter :=
  fun _ _ e => nomatch e

theorem OneWork.storeRowWritten (matched : Bool) (left : Residue) : OneWork.Statement (.storeRowWritten matched left) :=
  fun _ _ e => nomatch e

theorem OneWork.publishDelay : OneWork.Statement .publishDelay :=
  fun _ _ e => nomatch e

theorem OneWork.backChannelSendEnd : OneWork.Statement .backChannelSendEnd :=
  fun _ _ e => nomatch e

theorem OneWork.powerLoss (left : Residue) : OneWork.Statement (.powerLoss left) :=
  fun _ _ e => nomatch e

end Sys2Proof.Laws
end

