-- ==== Sys2Proof/Laws/Rows.lean ====
section
/-! SUPPORT. The rows of the retained store: what is written in them is read back (R178). -/

namespace Sys2Proof.Machine

theorem withCrc_length {n : Nat} (h : 0 < n) (content : List Byte) : (withCrc n content).length = 64 * n := by
  unfold withCrc
  dsimp only
  rw [List.length_append, padTo_length (by rw [List.length_take]; omega)]
  simp only [bytes16, List.length_cons, List.length_nil]
  omega

/-- The rows of some bytes, one after another, are those bytes. -/
theorem flatMap_rowOf (bytes : List Byte) (n : Nat) :
    (List.range n).flatMap (rowOf bytes) = bytes.take (64 * n) := by
  induction n with
  | zero => simp
  | succ n ih =>
    rw [List.range_succ, List.flatMap_append, ih, List.flatMap_singleton, rowOf, ← List.take_add, Nat.mul_succ]

/-- Rows written whole check, and give back what was put in them (R178). -/
theorem checkedBytes_withCrc {n : Nat} (h : 0 < n) (content : List Byte) :
    checkedBytes ((List.range n).map fun r => some (rowOf (withCrc n content) r))
      = some (padTo (64 * n - 2) (content.take (64 * n - 2))) := by
  have all : ((List.range n).map fun r => some (rowOf (withCrc n content) r)).all Option.isSome = true := by simp
  have bytes : (((List.range n).map fun r => some (rowOf (withCrc n content) r)).flatMap fun r => r.getD [])
      = withCrc n content := by
    rw [List.flatMap_map]
    show (List.range n).flatMap (rowOf (withCrc n content)) = _
    rw [flatMap_rowOf, List.take_of_length_le (Nat.le_of_eq (withCrc_length h content))]
  have body : (padTo (64 * n - 2) (content.take (64 * n - 2))).length = 64 * n - 2 :=
    padTo_length (by rw [List.length_take]; omega)
  have low : (withCrc n content).take (64 * n - 2) = padTo (64 * n - 2) (content.take (64 * n - 2)) :=
    List.take_left' body
  have high : (withCrc n content).drop (64 * n - 2)
      = bytes16 (crc16 (padTo (64 * n - 2) (content.take (64 * n - 2)))) := List.drop_left' body
  unfold checkedBytes
  rw [if_pos all, bytes]
  simp only [List.length_map, List.length_range]
  rw [low, high, if_pos rfl]

/-- The same for a single row. -/
theorem checkedBytes_row (content : List Byte) :
    checkedBytes [some (withCrc 1 content)] = some (padTo 62 (content.take 62)) := by
  have h := checkedBytes_withCrc (n := 1) (by decide) content
  rwa [show ((List.range 1).map fun r => some (rowOf (withCrc 1 content) r)) = [some (withCrc 1 content)] by
    rw [show List.range 1 = [0] from rfl, List.map_singleton, rowOf, Nat.mul_zero, List.drop_zero,
      show List.take 64 _ = _ from List.take_of_length_le (Nat.le_of_eq (withCrc_length (by decide) content))]] at h

/-- A 32-bit field is read as it was written (R186). -/
theorem ofNat_natOfBytes_bytes32 (w : W32) : BitVec.ofNat 32 (natOfBytes (bytes32 w)) = w := by
  have h := w.isLt
  apply BitVec.eq_of_toNat_eq
  simp only [bytes32, natOfBytes, BitVec.toNat_ofNat, BitVec.extractLsb'_toNat, Nat.shiftRight_eq_div_pow]
  omega

/-- The counters row reads as it was written (R178). -/
@[simp] theorem countersOf_stored (x : CountersRow) : countersOf (some x.stored) = some x := by
  obtain ⟨⟨epoch, ticket, closed, visit, audit, boot, flag⟩, generation⟩ := x
  have field : ∀ w : W32, BitVec.ofNat 32 (natOfBytes [w.extractLsb' 0 8, w.extractLsb' 8 8, w.extractLsb' 16 8,
      w.extractLsb' 24 8]) = w := ofNat_natOfBytes_bytes32
  unfold countersOf CountersRow.stored
  dsimp only
  rw [checkedBytes_row]
  simp only [Option.map_some, Option.some.injEq]
  simp only [padTo, bytes32, u8, imageLong, fieldByte, List.cons_append, List.nil_append,
    List.take_succ_cons, List.take_nil, List.drop_zero, List.drop_succ_cons, List.take_zero, field,
    List.getD_cons_succ, List.getD_cons_zero]
  cases flag <;> rfl

/-- The place of the counters row that a write goes to, and the current one, which it leaves alone (R178). -/
theorem putCounters_current (r : Rows) (v : Row) : (r.putCounters v).countersAt r.currentSecond = r.countersRow := by
  unfold Rows.putCounters Rows.countersRow Rows.countersAt
  cases r.currentSecond <;> rfl

theorem putCounters_other (r : Rows) (v : Row) : (r.putCounters v).countersAt (!r.currentSecond) = countersOf v := by
  unfold Rows.putCounters Rows.countersAt
  cases r.currentSecond <;> rfl

/-! Fields of what a row holds. -/

theorem fieldByte_append (a b : List Byte) (x : Nat) : fieldByte (a ++ b) (a.length + x) = fieldByte b x := by
  unfold fieldByte
  rw [List.getD_append_right _ _ _ _ (by omega)]
  simp

theorem imageLong_append (a b : List Byte) (x : Nat) : imageLong (a ++ b) (a.length + x) = imageLong b x := by
  unfold imageLong
  rw [List.drop_append, List.drop_of_length_le (by omega)]
  simp

theorem groupOf_append (a b : List Byte) (x : Nat) : groupOf (a ++ b) (a.length + x) = groupOf b x := by
  unfold groupOf fieldSigned
  simp only [fieldByte_append, Nat.add_assoc, imageLong_append]

theorem summaryOf_append (a b : List Byte) (x : Nat) : summaryOf (a ++ b) (a.length + x) = summaryOf b x := by
  unfold summaryOf
  simp only [fieldByte_append, Nat.add_assoc, groupOf_append]

/-- A number that fits an s32 field is read as it was written. -/
theorem toInt_fieldS32 {n : Int} (h : Fits32 n) : (fieldS32 n).toInt = n := by
  unfold fieldS32
  obtain ⟨a, b⟩ := h
  rw [if_pos ⟨a, b⟩, BitVec.toInt_ofInt, Int.bmod_def]
  split <;> omega

theorem toNat_fieldU32 {n : Int} (a : 0 ≤ n) (b : n < 4294967296) : ((fieldU32 n).toNat : Int) = n := by
  unfold fieldU32
  rw [if_pos ⟨a, b⟩, BitVec.toNat_ofInt]
  omega

theorem ticketGroup_length (g : SummaryGroup) : (ticketGroup g).length = 12 := rfl

/-- A group is read as it was written (12.7). -/
theorem groupOf_ticketGroup (g : SummaryGroup) (z : List Byte) (h : g.axles < 256 ∧ Fits32 g.load ∧ Fits32 g.limit) :
    groupOf (ticketGroup g ++ z) 0 = g := by
  have field : ∀ w : W32, BitVec.ofNat 32 (natOfBytes [w.extractLsb' 0 8, w.extractLsb' 8 8, w.extractLsb' 16 8,
      w.extractLsb' 24 8]) = w := ofNat_natOfBytes_bytes32
  obtain ⟨kind, axles, load, limit, overload⟩ := g
  obtain ⟨a, b, c⟩ := h
  dsimp only at a b c
  have na : (BitVec.ofNat 8 axles).toNat = axles := by rw [BitVec.toNat_ofNat]; omega
  simp only [groupOf, ticketGroup, u8, s32, bytes32, fieldSigned, imageLong, fieldByte, List.cons_append,
      List.nil_append,
    List.take_succ_cons, List.drop_succ_cons, List.drop_zero, List.take_zero, List.getD_cons_succ, List.getD_cons_zero,
    field, toInt_fieldS32 b, toInt_fieldS32 c, na, Nat.zero_add]
  congr 1
  · cases kind <;> rfl
  · cases overload <;> rfl

/-- The groups of a summary are read as they were written (12.7). -/
theorem groups_read (gs : List SummaryGroup) (z : List Byte)
    (h : ∀ g ∈ gs, g.axles < 256 ∧ Fits32 g.load ∧ Fits32 g.limit) :
    (List.range gs.length).map (fun j => groupOf (gs.flatMap ticketGroup ++ z) (12 * j)) = gs := by
  induction gs with
  | nil => rfl
  | cons g gs ih =>
    rw [List.length_cons, List.range_succ_eq_map, List.map_cons, List.map_map]
    congr 1
    · rw [List.flatMap_cons, List.append_assoc]
      exact groupOf_ticketGroup g _ (h g (by simp))
    · refine Eq.trans (List.map_congr_left fun j _ => ?_) (ih fun g m => h g (by simp [m]))
      show groupOf ((g :: gs).flatMap ticketGroup ++ z) (12 * (j + 1)) = _
      rw [List.flatMap_cons, List.append_assoc, Nat.mul_add, Nat.add_comm]
      exact groupOf_append (ticketGroup g) _ _

/-- A summary is read as it was written (12.7). -/
theorem summaryOf_summaryBytes (m : Summary) (z : List Byte) (h : m.retainable) : summaryOf (summaryBytes (some m)
    ++ z) 0 = m := by
  obtain ⟨verdict, quality, groups⟩ := m
  obtain ⟨n, h⟩ := h
  dsimp only at n h
  have nn : (BitVec.ofNat 8 groups.length).toNat = groups.length := by rw [BitVec.toNat_ofNat]; omega
  have g := groups_read groups z h
  have head : ∀ j, groupOf (summaryBytes (some ⟨verdict, quality, groups⟩) ++ z) (0 + 4 + 12 * j)
      = groupOf (groups.flatMap ticketGroup ++ z) (12 * j) := fun j => by
    rw [Nat.zero_add, show summaryBytes (some ⟨verdict, quality, groups⟩) ++ z
      = ([BitVec.ofNat 8 verdict.code, BitVec.ofNat 8 quality.code, BitVec.ofNat 8 groups.length,
          BitVec.ofNat 8 0] : List Byte)
        ++ (groups.flatMap ticketGroup ++ z) from by simp [summaryBytes, u8]]
    exact groupOf_append [_, _, _, _] _ _
  unfold summaryOf
  simp only [head]
  simp only [summaryBytes, u8, fieldByte, List.cons_append, List.nil_append, List.getD_cons_succ, List.getD_cons_zero,
    nn, g, Nat.zero_add]
  congr 1
  · cases verdict <;> rfl
  · cases quality <;> rfl

theorem summaryBytes_length (m : Option Summary) (h : ∀ x,
    m = some x → x.retainable) : (summaryBytes m).length ≤ 148 := by
  cases m with
  | none => simp [summaryBytes]
  | some m =>
    have := (h m rfl).1
    have e : (m.groups.flatMap ticketGroup).length = 12 * m.groups.length := by
      rw [List.length_flatMap]
      simp [ticketGroup_length, Nat.mul_comm]
    simp only [summaryBytes, u8, List.length_append, List.length_cons, List.length_nil, e]
    omega

theorem orZero_read (o : Option W32) (h : o ≠ some 0) : (if orZero o = 0 then none else some (orZero o)) = o := by
  cases o with
  | none => rfl
  | some w =>
    have : w ≠ 0 := fun e => h (by rw [e])
    show (if w = 0 then none else some w) = some w
    rw [if_neg this]

theorem padTo_take {n : Nat} {bs : List Byte} (h : bs.length ≤ n) :
    padTo n (bs.take n) = bs ++ List.replicate (n - bs.length) 0 := by
  rw [List.take_of_length_le h]; rfl


/-! Reading field by field. -/

theorem imageLong_skip32 (w : W32) (r : List Byte) (n : Nat) : imageLong (bytes32 w ++ r) (n + 4) = imageLong r n := by
  rw [Nat.add_comm]; exact imageLong_append (bytes32 w) r n
theorem imageLong_bytes32 (w : W32) (r : List Byte) : imageLong (bytes32 w ++ r) 0 = w := ofNat_natOfBytes_bytes32 w
theorem fieldByte_skip32 (w : W32) (r : List Byte) (n : Nat) : fieldByte (bytes32 w ++ r) (n + 4) = fieldByte r n := by
  rw [Nat.add_comm]; exact fieldByte_append (bytes32 w) r n
theorem summaryOf_skip32 (w : W32) (r : List Byte) (n : Nat) : summaryOf (bytes32 w ++ r) (n + 4) = summaryOf r n := by
  rw [Nat.add_comm]; exact summaryOf_append (bytes32 w) r n
theorem fieldWord_append (a b : List Byte) (x : Nat) : fieldWord (a ++ b) (a.length + x) = fieldWord b x := by
  unfold fieldWord
  rw [List.drop_append, List.drop_of_length_le (by omega)]
  simp
theorem fieldWord_skip32 (w : W32) (r : List Byte) (n : Nat) : fieldWord (bytes32 w ++ r) (n + 4) = fieldWord r n := by
  rw [Nat.add_comm]; exact fieldWord_append (bytes32 w) r n
theorem fieldWord_skip16 (w : W16) (r : List Byte) (n : Nat) : fieldWord (bytes16 w ++ r) (n + 2) = fieldWord r n := by
  rw [Nat.add_comm]; exact fieldWord_append (bytes16 w) r n
theorem imageLong_skip16 (w : W16) (r : List Byte) (n : Nat) : imageLong (bytes16 w ++ r) (n + 2) = imageLong r n := by
  rw [Nat.add_comm]; exact imageLong_append (bytes16 w) r n
theorem summaryOf_skip16 (w : W16) (r : List Byte) (n : Nat) : summaryOf (bytes16 w ++ r) (n + 2) = summaryOf r n := by
  rw [Nat.add_comm]; exact summaryOf_append (bytes16 w) r n
theorem fieldWord_bytes16 (w : W16) (r : List Byte) : fieldWord (bytes16 w ++ r) 0 = w.toNat := by
  have h := w.isLt
  simp only [fieldWord, bytes16, List.drop_zero, List.cons_append, List.nil_append, List.take_succ_cons, List.take_zero,
    natOfBytes, BitVec.extractLsb'_toNat, Nat.shiftRight_eq_div_pow]
  omega
theorem fieldByte_head (b : Byte) (r : List Byte) : fieldByte (b :: r) 0 = b.toNat := rfl
theorem fieldByte_cons (b : Byte) (r : List Byte) (n : Nat) : fieldByte (b :: r) (n + 1) = fieldByte r n := by
  simp [fieldByte]
theorem summaryOf_cons (b : Byte) (r : List Byte) (n : Nat) : summaryOf (b :: r) (n + 1) = summaryOf r n := by
  rw [Nat.add_comm]; exact summaryOf_append [b] r n
theorem drop_bytes32 (w : W32) (r : List Byte) : (bytes32 w ++ r).drop 4 = r := rfl

/-- A visit entry reads as it was written in its three rows (R131). -/
theorem visitOf_stored (e : VisitEntry) (h : e.retainable) :
    visitOf ((List.range 3).map fun r => some (rowOf e.stored r)) = some e := by
  obtain ⟨number, vehicle, lot, weight, time, epoch, bound, summary⟩ := e
  obtain ⟨l, w, b, s⟩ := h
  dsimp only at l w b s
  have sl := summaryBytes_length summary s
  have lv : ∀ (r : List Byte) n, imageLong (vehicle ++ r) (n + 12) = imageLong r n := fun r n => by
    rw [Nat.add_comm, ← l]; exact imageLong_append vehicle r n
  have bv : ∀ (r : List Byte) n, fieldByte (vehicle ++ r) (n + 12) = fieldByte r n := fun r n => by
    rw [Nat.add_comm, ← l]; exact fieldByte_append vehicle r n
  have sv : ∀ (r : List Byte) n, summaryOf (vehicle ++ r) (n + 12) = summaryOf r n := fun r n => by
    rw [Nat.add_comm, ← l]; exact summaryOf_append vehicle r n
  have tv : ∀ r : List Byte, (vehicle ++ r).take 12 = vehicle := fun r => List.take_left' l
  unfold visitOf VisitEntry.stored
  rw [checkedBytes_withCrc (by decide), Option.map_some, padTo_take (by
    simp only [VisitEntry.fields, bytes32, s32, u8, List.length_append, List.length_cons, List.length_nil]; omega)]
  generalize List.replicate _ (0 : Byte) = z
  simp only [VisitEntry.fields, s32, u8, List.append_assoc, List.cons_append, List.nil_append, fieldSigned, fieldOrNone,
    imageLong_skip32, imageLong_bytes32, fieldByte_skip32, fieldByte_head, summaryOf_skip32, summaryOf_cons, lv, bv,
        sv, tv, drop_bytes32, toInt_fieldS32 w,
    orZero_read bound b]
  congr 2
  cases summary with
  | none => rfl
  | some m => simp [bit, summaryOf_summaryBytes m z (s m rfl)]

theorem content_length (t : Ticket) (h : t.visit.retainable) : t.content.length ≤ 220 := by
  have := summaryBytes_length t.visit.summary h.2.2.2
  simp only [Ticket.content, bytes32, bytes16, s32, u32, u16, List.length_append, List.length_cons, List.length_nil,
      h.1]
  omega

theorem field16_toNat {n : Int} (a : 0 ≤ n) (b : n < 65536) : ((field16 n).toNat : Int) = n := by
  unfold field16
  rw [if_pos ⟨a, b⟩, BitVec.toNat_ofInt]
  omega

theorem flags_read (a b c : Bool) : (flagWord [a, b, c]).toNat.testBit 0 = a ∧ (flagWord [a, b, c]).toNat.testBit 1 = b
    ∧ (flagWord [a, b, c]).toNat.testBit 2 = c := by
  revert a b c; decide

/-- A ticket is read from the content of its record (12.7). -/
theorem ticketOf_content (t : Ticket) (z : List Byte) (hv : t.visit.retainable) (h2 : Fits32 t.weight2) (hg : Fits32
    t.gross)
    (ht : Fits32 t.tare) (hn : Fits32 t.net) (he : 0 ≤ t.e) (he' : t.e < 4294967296) : ticketOf (t.content ++ z) = t
        := by
  obtain ⟨number, ⟨vn, vehicle, lot, weight, time, epoch, bound, summary⟩, w2, t2, e2, gross, tare, net, second, e,
      cross, ind⟩ := t
  obtain ⟨l, w, b, s⟩ := hv
  dsimp only at l w b s h2 hg ht hn he he'
  have lv : ∀ (r : List Byte) n, imageLong (vehicle ++ r) (n + 12) = imageLong r n := fun r n => by
    rw [Nat.add_comm, ← l]; exact imageLong_append vehicle r n
  have wv : ∀ (r : List Byte) n, fieldWord (vehicle ++ r) (n + 12) = fieldWord r n := fun r n => by
    rw [Nat.add_comm, ← l]; exact fieldWord_append vehicle r n
  have sv : ∀ (r : List Byte) n, summaryOf (vehicle ++ r) (n + 12) = summaryOf r n := fun r n => by
    rw [Nat.add_comm, ← l]; exact summaryOf_append vehicle r n
  have tv : ∀ r : List Byte, (vehicle ++ r).take 12 = vehicle := fun r => List.take_left' l
  have d8 : ∀ (x y : W32) (r : List Byte), (bytes32 x ++ (bytes32 y ++ r)).drop 8 = r := fun _ _ _ => rfl
  obtain ⟨f0, f1, f2⟩ := flags_read cross ind summary.isSome
  have en := toNat_fieldU32 he he'
  unfold ticketOf
  simp only [Ticket.content, Ticket.flags, s32, u32, u16, List.append_assoc, fieldSigned, fieldOrNone,
    imageLong_skip32, imageLong_skip16, imageLong_bytes32, fieldWord_skip32, fieldWord_skip16, fieldWord_bytes16,
        summaryOf_skip32, summaryOf_skip16, lv, wv, sv, tv, d8,
    toInt_fieldS32 w, toInt_fieldS32 h2, toInt_fieldS32 hg, toInt_fieldS32 ht, toInt_fieldS32 hn,
        orZero_read bound b, f0, f1, f2,
    en]
  have sm : (if summary.isSome = true then some (summaryOf (summaryBytes summary ++ z) 0) else none) = summary := by
    cases summary with
    | none => rfl
    | some m => simp [summaryOf_summaryBytes m z (s m rfl)]
  have sc : ((field16 ((bit second : Nat) : Int)).toNat == 1) = second := by cases second <;> rfl
  rw [sm, sc]

/-- A recent-ticket copy reads as it was written in its four rows (R137). -/
theorem copyOf_stored (c : TicketCopy) (h : c.retainable) :
    copyOf ((List.range 4).map fun r => some (rowOf c.stored r)) = some c := by
  obtain ⟨hv, h2, hg, ht, hn, he, he', hr⟩ := h
  have cl := content_length c.ticket hv
  obtain ⟨t, recalls⟩ := c
  dsimp only at hv h2 hg ht hn he he' hr cl
  have len : (padTo 252 (t.content.take 252)).length = 252 := padTo_length (by simp)
  unfold copyOf TicketCopy.stored
  dsimp only
  rw [checkedBytes_withCrc (by decide), Option.map_some, padTo_take (by
    rw [List.length_append, len]; simp [u16, bytes16])]
  generalize List.replicate _ (0 : Byte) = z
  have rc := fieldWord_append (padTo 252 (t.content.take 252)) (u16 recalls ++ z) 0
  rw [len, u16, fieldWord_bytes16] at rc
  have rn : (field16 (recalls : Int)).toNat = recalls := by
    have := field16_toNat (n := (recalls : Int)) (by omega) (by omega)
    exact_mod_cast this
  rw [List.append_assoc, u16, rc, padTo_take (Nat.le_trans cl (by decide)), List.append_assoc,
    ticketOf_content t _ hv h2 hg ht hn he he', rn]

/-- A class reads as it was written in its row (R81). -/
theorem classOf_stored (c : ClassEntry) (n : c.name.length = 8) (h : c.badField = none) : classOf (some c.stored) =
    some c := by
  obtain ⟨name, steer, single, tandem, tri, quad, gross, tolerance⟩ := c
  have hs : steer ≤ 1000000000 ∧ single ≤ 1000000000 ∧ tandem ≤ 1000000000 ∧ tri ≤ 1000000000 ∧ quad ≤ 1000000000
      ∧ gross ≤ 1000000000 ∧ tolerance ≤ 100 := by
    unfold ClassEntry.badField at h
    dsimp only at h
    repeat' split at h
    all_goals cases h
    simp_all
  obtain ⟨a1, a2, a3, a4, a5, a6, a7⟩ := hs
  dsimp only at n
  have u : ∀ x : Nat, x ≤ 1000000000 → (fieldU32 (x : Int)).toNat = x := fun x k => by
    have := toNat_fieldU32 (n := (x : Int)) (by omega) (by omega)
    exact_mod_cast this
  have v : (field16 (tolerance : Int)).toNat = tolerance := by
    have := field16_toNat (n := (tolerance : Int)) (by omega) (by omega)
    exact_mod_cast this
  have lv : ∀ (r : List Byte) m, imageLong (name ++ r) (m + 8) = imageLong r m := fun r m => by
    rw [Nat.add_comm, ← n]; exact imageLong_append name r m
  have wv : ∀ (r : List Byte) m, fieldWord (name ++ r) (m + 8) = fieldWord r m := fun r m => by
    rw [Nat.add_comm, ← n]; exact fieldWord_append name r m
  have tv : ∀ r : List Byte, (name ++ r).take 8 = name := fun r => List.take_left' n
  unfold classOf ClassEntry.stored
  rw [checkedBytes_row, Option.map_some, padTo_take (by
    simp only [bytes32, u32, u16, bytes16, List.length_append, List.length_cons, List.length_nil]; omega)]
  generalize List.replicate _ (0 : Byte) = z
  simp only [u32, u16, List.append_assoc, imageLong_skip32, imageLong_bytes32, fieldWord_skip32, fieldWord_bytes16,
      lv, wv, tv, u _ a1, u _ a2, u _ a3,
    u _ a4, u _ a5, u _ a6, v]

/-- The site settings read as they were written in their row (R116). -/
theorem settingsOf_stored (x : Site) (h : x.badField = none) : settingsOf (some x.stored) = some x := by
  have ok : ∀ n, n < 11 → x.fields.getD n 0 < 65536 := by
    intro n hn
    unfold Site.badField at h
    have := List.find?_eq_none.mp h n (List.mem_range.mpr hn)
    simp only [siteFieldOk, Bool.not_eq_true, Bool.not_eq_false', Bool.and_eq_true, decide_eq_true_eq] at this
    have r : (siteRange n).2 ≤ 20000 := by
      unfold siteRange
      split <;> decide
    have := this.2
    omega
  have u : ∀ n : Nat, n < 65536 → (field16 (n : Int)).toNat = n := fun n k => by
    have := field16_toNat (n := (n : Int)) (by omega) (by omega)
    exact_mod_cast this
  obtain ⟨a0, a1, a2, a3, a4, a5, a6, a7, a8, a9, a10⟩ := x
  have h0 := u _ (ok 0 (by decide))
  have h1 := u _ (ok 1 (by decide))
  have h2 := u _ (ok 2 (by decide))
  have h3 := u _ (ok 3 (by decide))
  have h4 := u _ (ok 4 (by decide))
  have h5 := u _ (ok 5 (by decide))
  have h6 := u _ (ok 6 (by decide))
  have h7 := u _ (ok 7 (by decide))
  have h8 := u _ (ok 8 (by decide))
  have h9 := u _ (ok 9 (by decide))
  have h10 := u _ (ok 10 (by decide))
  simp only [Site.fields, List.getD_cons_zero, List.getD_cons_succ] at h0 h1 h2 h3 h4 h5 h6 h7 h8 h9 h10
  unfold settingsOf Site.stored
  rw [checkedBytes_row, Option.map_some, padTo_take (by
    simp only [Site.fields, u16, bytes16, List.flatMap_cons, List.flatMap_nil, List.length_append, List.length_cons,
        List.length_nil]; omega)]
  generalize List.replicate _ (0 : Byte) = z
  simp only [Site.fields, siteOf, List.flatMap_cons, List.flatMap_nil, List.append_nil, u16, List.append_assoc,
    fieldWord_skip16, fieldWord_bytes16, Nat.mul_zero, Nat.mul_one, Nat.reduceMul, h0, h1, h2, h3, h4, h5, h6, h7,
        h8, h9, h10]

theorem bitsNat_testBit (bs : List Bool) (i : Nat) : (bitsNat bs).testBit i = bs.getD i false := by
  induction bs generalizing i with
  | nil => simp [bitsNat]
  | cons b bs ih =>
    cases i with
    | zero => cases b <;> simp [bitsNat, bit, Nat.testBit_zero]
    | succ i =>
      have low : bit b < 2 := by cases b <;> decide
      rw [bitsNat, Nat.testBit_succ, show (bit b + 2 * bitsNat bs) / 2 = bitsNat bs by omega, ih]
      simp

/-- A bit of the list of a COMMIT entry in its row (assumption 9). -/
theorem listedByte_bit (ns : List Nat) (i j : Nat) (h : j < 8) : (listedByte ns i).getLsbD j = ns.contains (8 * i +
    j) := by
  unfold listedByte
  rw [BitVec.getLsbD_ofNat, bitsNat_testBit]
  simp [h, List.getD_eq_getElem?_getD]

/-- The list of a COMMIT entry is read as it was written (assumption 9). -/
theorem listedNumbers_listedByte (ns : List Nat) (z : List Byte) (p : ns.Pairwise (· < ·)) (h : ∀ n ∈ ns, n < 137) :
    listedNumbers ((List.range 18).map (listedByte ns) ++ z) = ns := by
  unfold listedNumbers
  have e : ∀ n, n < 137 → ((((List.range 18).map (listedByte ns) ++ z).getD (n / 8) 0).getLsbD (n % 8)) =
      ns.contains n := by
    intro n k
    rw [List.getD_append _ _ _ _ (by simp; omega), List.getD_eq_getElem?_getD, List.getElem?_map,
        List.getElem?_range (by omega)]
    simp only [Option.map_some, Option.getD_some]
    rw [listedByte_bit _ _ _ (Nat.mod_lt _ (by decide)), Nat.div_add_mod]
  rw [List.filter_congr (q := fun n => ns.contains n) (fun n m => e n (List.mem_range.mp m))]
  have sorted : ((List.range 137).filter fun n => ns.contains n).Pairwise (· < ·) := List.pairwise_lt_range.filter _
  refine List.Perm.eq_of_pairwise (le := (· < ·)) (fun a b _ _ x y => absurd x (Nat.lt_asymm y)) sorted p ?_
  refine (List.perm_ext_iff_of_nodup (sorted.imp Nat.ne_of_lt) (p.imp Nat.ne_of_lt)).mpr fun a => ?_
  simp only [List.mem_filter, List.mem_range, List.contains_iff_mem]
  exact ⟨fun q => q.2, fun q => ⟨h a q, q⟩⟩

/-- An audit entry reads as it was written in its row (R184). -/
theorem auditOf_stored (e : AuditEntry) (h : e.retainable) : auditOf (some e.stored) = some e := by
  obtain ⟨serial, epoch, time, clock, kind, detail⟩ := e
  have kc : AuditKind.ofCode (BitVec.ofNat 8 kind.code).toNat = some kind := by cases kind <;> rfl
  have bc : ((BitVec.ofNat 8 (bit clock)).toNat == 1) = clock := by cases clock <;> rfl
  have d16 : ∀ (x y w : W32) (a b : Byte) (v : W16) (r : List Byte),
      (bytes32 x ++ (bytes32 y ++ (bytes32 w ++ (a :: b :: (bytes16 v ++ r))))).drop 16 = r := fun _ _ _ _ _ _ _ => rfl
  have skip2 : ∀ (a b : Byte) (r : List Byte) n, fieldWord (a :: b :: r) (n + 2) = fieldWord r n := fun a b r n => by
    rw [Nat.add_comm]; exact fieldWord_append [a, b] r n
  have main : ∀ packed : List Byte, packed.length ≤ 46 → detail.length < 65536 →
      (∀ z, unpackedDetail kind detail.length (packed ++ z) = detail) →
      AuditEntry.packed ⟨serial, epoch, time, clock, kind, detail⟩ = packed →
      auditOf (some (AuditEntry.stored ⟨serial, epoch, time, clock, kind, detail⟩))
        = some ⟨serial, epoch, time, clock, kind, detail⟩ := by
    intro packed l dl u e
    have n : (field16 (detail.length : Int)).toNat = detail.length := by
      have := field16_toNat (n := (detail.length : Int)) (by omega) (by omega)
      exact_mod_cast this
    unfold auditOf AuditEntry.stored
    rw [e, checkedBytes_row, padTo_take (by
      simp only [bytes32, u8, u16, bytes16, List.length_append, List.length_cons, List.length_nil]; omega)]
    generalize List.replicate _ (0 : Byte) = z
    simp only [u8, u16, List.append_assoc, List.cons_append, List.nil_append, fieldByte_skip32, fieldByte_head,
        fieldByte_cons, kc,
      Option.map_some, imageLong_skip32, imageLong_bytes32, fieldWord_skip32, skip2, fieldWord_bytes16, n, d16, u, bc]
  unfold AuditEntry.retainable at h
  dsimp only at h
  split at h
  · rename_i k
    obtain ⟨a, b, c, listed, restored, rfl, hl⟩ := h
    cases listed with
    | none =>
      let head : List Byte := bytes32 a ++ bytes32 b ++ bytes16 c ++ u8 255 ++ u8 (bit restored)
      have hh : head.length = 12 := rfl
      have form : commitDetail a b c none restored = head := by
        have z : ∀ bs : List Byte, bs.length = 12 → padTo ((bs.length + 3) / 4 * 4) bs = bs := fun bs l => by
          rw [l]; simp [padTo, l]
        simp only [commitDetail]
        rw [z _ rfl]
        simp only [head, List.append_assoc]
      rw [form] at main ⊢
      refine main (head ++ (List.range 18).map (listedByte [])) ?_ ?_ ?_ ?_
      · simp [hh]
      · simp [hh]
      · intro z
        unfold unpackedDetail
        rw [if_pos k, List.append_assoc, List.take_left' hh, List.drop_left' hh,
          listedNumbers_listedByte [] z List.Pairwise.nil (by simp), hh]
        simp [padTo, hh]
      · unfold AuditEntry.packed
        rw [if_pos k]
        have b10 : fieldByte head 10 = 255 := rfl
        simp only [b10, if_pos]
        rw [List.take_of_length_le (by omega)]
        rfl
    | some ns =>
      obtain ⟨len, p, lt⟩ := hl ns rfl
      have nn : (BitVec.ofNat 8 ns.length).toNat = ns.length := by rw [BitVec.toNat_ofNat]; omega
      let head : List Byte := bytes32 a ++ bytes32 b ++ bytes16 c ++ u8 ns.length ++ u8 (bit restored)
      have hh : head.length = 12 := rfl
      have form : ∃ m, commitDetail a b c (some ns) restored = head ++ ns.map (BitVec.ofNat 8) ++ List.replicate m 0
          ∧ 12 + ns.length + m ≤ 52 := by
        refine ⟨_, by simp only [commitDetail, padTo, head, List.append_assoc]; rfl, ?_⟩
        simp only [bytes32, bytes16, u8, List.length_append, List.length_cons, List.length_nil, List.length_map]
        omega
      obtain ⟨m, form, hm⟩ := form
      rw [form] at main ⊢
      have back : (ns.map (BitVec.ofNat 8)).map BitVec.toNat = ns := by
        rw [List.map_map]
        refine (List.map_congr_left fun n q => ?_).trans (List.map_id ns)
        show (BitVec.ofNat 8 n).toNat = n
        rw [BitVec.toNat_ofNat]
        have := lt n q
        omega
      refine main (head ++ (List.range 18).map (listedByte ns)) ?_ ?_ ?_ ?_
      · simp [hh]
      · simp [hh]; omega
      · intro z
        unfold unpackedDetail
        rw [if_pos k, List.append_assoc, List.append_assoc head _ z, List.take_left' hh, List.drop_left' hh,
            listedNumbers_listedByte ns z p lt]
        simp only [padTo, List.length_append, hh, List.length_map, List.length_replicate]
        have am : 12 + (ns.length + m) - (12 + ns.length) = m := by clear_value head; clear nn; omega
        rw [am, List.append_assoc]
      · unfold AuditEntry.packed
        rw [if_pos k]
        have b10 : fieldByte (head ++ ns.map (BitVec.ofNat 8) ++ List.replicate m 0) 10 = ns.length := by
          rw [← nn]; rfl
        have ne : ¬ns.length = 255 := by clear_value head; clear nn b10; omega
        rw [b10, if_neg ne, List.append_assoc, List.take_left' hh, List.drop_left' hh,
          List.take_left' (by simp)]
        dsimp only
        rw [back]
  · rename_i k
    refine main detail h (by omega) (fun z => ?_) ?_
    · unfold unpackedDetail
      rw [if_neg k, List.take_left' rfl]
    · unfold AuditEntry.packed
      rw [if_neg k]

end Sys2Proof.Machine
end

