-- ==== Sys2Proof/Laws/StartUp.lean ====
section
/-! SUPPORT. What a start-up can do, said once: the verification of the store (R183) with the entries it makes, the
header that it writes (R118, R119), and that nothing the store reports ends the holding of records (R160). -/

namespace Sys2Proof.Machine

/-! Audit entries while records are held (R160, R184). -/

/-- All that writing audit entries changes while a start holds the records. -/
def Logs (s t : State) : Prop :=
  ∃ (a : Audit) (ws : List Job) (rs : List Record),
    t = { s with
      audit := a
      store := { s.store with waiting := ws }
      journal := { s.journal with held := s.journal.held ++ rs } } ∧
    ∀ r ∈ rs, r.kind = .audit

theorem Logs.refl (s : State) : Logs s s :=
  ⟨s.audit, s.store.waiting, [], by simp, by simp⟩

theorem Logs.trans {s t u : State} (h : Logs s t) (k : Logs t u) : Logs s u := by
  obtain ⟨_, _, rs, rfl, hr⟩ := h
  obtain ⟨a, ws, rs', rfl, hr'⟩ := k
  exact ⟨a, ws, rs ++ rs', by simp, fun r m => (List.mem_append.1 m).elim (hr r) (hr' r)⟩

theorem Logs.holding {s t : State} (h : Logs s t) (k : s.journal.holding = true) : t.journal.holding = true := by
  obtain ⟨_, _, _, rfl, _⟩ := h
  exact k

theorem auditPump_logs (s : State) : Logs s s.auditPump := by
  have job : ∀ (a : Audit) (j : Job),
      Logs s { s with audit := a, store := { s.store with waiting := s.store.waiting ++ [j] } } :=
    fun a j => ⟨a, s.store.waiting ++ [j], [], by simp, by simp⟩
  unfold State.auditPump
  dsimp only
  repeat' split
  all_goals first | exact Logs.refl s | exact job _ _

theorem record_held {s : State} (h : s.journal.holding = true) (r : Record) :
    s.record r = { s with journal := { s.journal with held := s.journal.held ++ [r] } } := by
  unfold State.record
  rw [if_pos h]

theorem writeAudit_logs {s : State} (h : s.journal.holding = true) (k : AuditKind) (d : List Byte) :
    Logs s (s.writeAudit k d) := by
  unfold State.writeAudit
  dsimp only
  rw [record_held (by exact h)]
  refine Logs.trans ⟨_, s.store.waiting, [_], rfl, fun r m => ?_⟩ (auditPump_logs _)
  rw [List.mem_singleton.1 m]
  rfl

theorem writeVerified_logs {s : State} (h : s.journal.holding = true) (lost : Bool) (test : Option Nat) :
    Logs s (s.writeVerified lost test) := by
  have first : Logs s (if lost = true then s.writeAudit .countersLost [] else s.auditPump) := by
    split
    · exact writeAudit_logs h _ _
    · exact auditPump_logs s
  have more : ∀ {u : State} (k : AuditKind) (d : List Byte), Logs s u → Logs s (u.writeAudit k d) :=
    fun k d l => l.trans (writeAudit_logs (l.holding h) k d)
  unfold State.writeVerified
  dsimp only
  cases test
  all_goals
    dsimp only
    split
  · exact more _ _ first
  · exact first
  · exact more _ _ (more _ _ first)
  · exact more _ _ first

/-! The verification, step by step (R183). -/

/-- Step 1: the counters of the row or of the images, with the latch set where no row checks. -/
theorem readCounters_spec (s : State) (cause : StartCause) :
    ∃ (boot : W32) (latch : Bool) (m : Memory) (r : Registers),
      s.readCounters cause =
        { s with
          store := { s.store with counters := { s.store.rows.countersAtStart with bootCount := boot }, latch := latch }
          mem := m
          regs := r } ∧
      r.run = s.regs.run ∧ r.restart = s.regs.restart ∧ r.refused = s.regs.refused ∧ r.enable = s.regs.enable ∧
      (m = s.mem ∨ m = s.mem.write16 hdrStoreFault 1) := by
  unfold State.readCounters Rows.countersAtStart
  dsimp only
  cases s.store.rows.countersRow <;> dsimp only <;> split
  · exact ⟨_, true, _, _, rfl, rfl, rfl, rfl, rfl, .inr rfl⟩
  · exact ⟨_, true, _, _, rfl, rfl, rfl, rfl, rfl, .inr rfl⟩
  · exact ⟨_, _, s.mem, s.regs, rfl, rfl, rfl, rfl, rfl, .inl rfl⟩
  · exact ⟨_, _, s.mem, s.regs, rfl, rfl, rfl, rfl, rfl, .inl rfl⟩

/-- Step 2: the set of the image of the epoch where it is valid, and the manufacture set otherwise (R181). -/
theorem readSet_spec (s : State) :
    let epoch := s.store.counters.epoch
    let active := s.store.rows.image (placeOfEpoch epoch)
    ∃ m : Metrology, s.readSet = { s with metro := m } ∧
      (∀ i, active = some i → i.epoch = epoch → i.set.valid = true → m = ⟨i.set, i.epoch, false⟩) ∧
      ((∀ i, active = some i → i.epoch = epoch → i.set.valid = false) → m = ⟨manufactureSet, epoch, true⟩) := by
  unfold State.readSet Rows.imageTest
  dsimp only
  cases s.store.rows.image (placeOfEpoch s.store.counters.epoch) with
  | none => exact ⟨_, rfl, by simp, by simp⟩
  | some i =>
    by_cases e : i.epoch = s.store.counters.epoch <;> cases v : i.set.valid
    all_goals exact ⟨_, by simp [e, v]; rfl, by simp_all, by simp_all⟩

/-- Step 3, before the entries: the log is rebuilt or kept. -/
theorem readAuditLog_eq (s : State) (cause : StartCause) : ∃ a : Audit, s.readAuditLog cause = { s with audit := a } := by
  unfold State.readAuditLog
  split <;> exact ⟨_, rfl⟩

/-- Step 5: a set session-open flag is audited and cleared. -/
theorem loseSession_spec {s : State} (h : s.journal.holding = true) :
    ∃ (t : State) (b : Bool), Logs s t ∧
      s.loseSession =
        { t with store := { t.store with counters := { t.store.counters with sessionOpen := b } } } := by
  unfold State.loseSession
  split
  · exact ⟨_, false, writeAudit_logs h _ _, rfl⟩
  · exact ⟨s, s.store.counters.sessionOpen, Logs.refl s, rfl⟩

/-- Steps 6 and 7: the boot count changes, and a job is requested or none is. -/
theorem raiseBoot_queueStartUp (s : State) (cause : StartCause) (repair : List RowWrite) (changed : Bool) :
    ∃ (n : W32) (ws : List Job),
      (s.raiseBoot cause).queueStartUp repair changed =
        { s with
          store := { s.store with counters := { s.store.counters with bootCount := n }, waiting := ws } } := by
  unfold State.raiseBoot State.queueStartUp
  split <;> split
  · exact ⟨s.store.counters.bootCount, s.store.waiting, rfl⟩
  · exact ⟨s.store.counters.bootCount, _, rfl⟩
  · exact ⟨_, s.store.waiting, rfl⟩
  · exact ⟨_, _, rfl⟩

/-- The whole verification: the rows and the queue stand, the counters are those of the start but for the boot count
and the session-open flag, the active set is that of the image of the epoch or stands in, AUDIT records are held, and
the blocks start with the working state of the rows as repaired. -/
theorem verify_spec (s : State) (cause : StartCause) (h : s.journal.holding = true) :
    ∃ (st : Store) (m : Metrology) (mem : Memory) (regs : Registers) (a : Audit) (rs : List Record),
      s.verify cause =
        ({ s with
          store := st
          metro := m
          mem := mem
          regs := regs
          audit := a
          journal := { s.journal with held := s.journal.held ++ rs } } : State).startBlocks st.rows.repaired ∧
      (∀ r ∈ rs, r.kind = .audit) ∧ st.rows = s.store.rows ∧ st.queue = s.store.queue ∧
      st.counters.epoch = st.rows.countersAtStart.epoch ∧
      st.counters.lastTicket = st.rows.countersAtStart.lastTicket ∧
      (∀ i, st.rows.image (placeOfEpoch st.rows.countersAtStart.epoch) = some i →
        i.epoch = st.rows.countersAtStart.epoch → i.set.valid = true → m = ⟨i.set, i.epoch, false⟩) ∧
      ((∀ i, st.rows.image (placeOfEpoch st.rows.countersAtStart.epoch) = some i →
        i.epoch = st.rows.countersAtStart.epoch → i.set.valid = false) →
        m = ⟨manufactureSet, st.rows.countersAtStart.epoch, true⟩) ∧
      regs.run = s.regs.run ∧ regs.restart = s.regs.restart ∧ regs.refused = s.regs.refused ∧
      regs.enable = s.regs.enable ∧ (mem = s.mem ∨ mem = s.mem.write16 hdrStoreFault 1) := by
  obtain ⟨boot, latch, mem, regs, e1, run, restart, refused, enable, hm⟩ := readCounters_spec s cause
  unfold State.verify
  dsimp only
  rw [e1]
  generalize hs1 : ({ s with
    store := { s.store with counters := { s.store.rows.countersAtStart with bootCount := boot }, latch := latch }
    mem := mem
    regs := regs } : State) = s1
  obtain ⟨m, e2, valid, standIn⟩ := readSet_spec s1
  rw [e2]
  obtain ⟨log, e3⟩ := readAuditLog_eq { s1 with metro := m } cause
  rw [e3]
  have held : ({ s1 with metro := m, audit := log } : State).journal.holding = true := by
    rw [← hs1]
    exact h
  have l4 := writeVerified_logs held s.store.rows.countersRow.isNone (s1.store.rows.imageTest s1.store.counters.epoch)
  generalize ({ s1 with metro := m, audit := log } : State).writeVerified s.store.rows.countersRow.isNone
    (s1.store.rows.imageTest s1.store.counters.epoch) = s4 at l4 ⊢
  obtain ⟨s5, flag, l5, e5⟩ := loseSession_spec (l4.holding held)
  rw [e5]
  generalize hs6 : ({ s5 with
    store := { s5.store with counters := { s5.store.counters with sessionOpen := flag } } } : State) = s6
  obtain ⟨n, ws, e7⟩ := raiseBoot_queueStartUp s6 cause (s4.store.rows.repair s4.store.counters)
    (!(s4.store.rows.repair s4.store.counters).isEmpty || s4.store.counters.sessionOpen || cause != .engineRestart)
  rw [e7]
  obtain ⟨_, _, rs4, rfl, k4⟩ := l4
  obtain ⟨a5, ws5, rs5, rfl, k5⟩ := l5
  subst hs6 hs1
  refine ⟨{ s.store with
      counters := { s.store.rows.countersAtStart with bootCount := n, sessionOpen := flag }
      waiting := ws
      latch := latch }, m, mem, regs, a5, rs4 ++ rs5, ?_, fun r k => (List.mem_append.1 k).elim (k4 r) (k5 r), rfl, rfl,
    rfl, rfl, valid, standIn, run, restart, refused, enable, hm⟩
  have same : s.store.rows.repair { s.store.rows.countersAtStart with bootCount := boot } =
      s.store.rows.repair s.store.rows.countersAtStart := rfl
  simp only [Rows.repaired, List.append_assoc, same]

/-! The header and the board (R118, R119). -/

/-- The header that a start writes over a memory (R118, R119), by its values. -/
def headerOf (m : Memory) (boot time cadence epoch ticket : W32)
    (cause clockSet link session visits sweep fault : W16) : Memory :=
  let a := ((m.write32 hdrIdent ident).write32 hdrBoot boot).write16 hdrCause cause
  let b := ((a.write16 hdrClockSet clockSet).write32 hdrTime time).write32 hdrCadence cadence
  let c := ((b.write16 hdrLink link).write16 hdrSession session).write32 hdrEpoch epoch
  let d := ((c.write32 hdrTicket ticket).write16 hdrVisits visits).write16 hdrSweep sweep
  (d.write16 hdrStoreFault fault).write16 hdrRefused 0xFFFF

/-- Every value of the header reads back, and nothing else has changed. -/
theorem headerOf_reads (m : Memory) (w : m.wf = true) (boot time cadence epoch ticket : W32)
    (cause clockSet link session visits sweep fault : W16) :
    let n := headerOf m boot time cadence epoch ticket cause clockSet link session visits sweep fault
    n.wf = true ∧ n.read32 hdrIdent = ident ∧ n.read32 hdrBoot = boot ∧ n.read16 hdrCause = cause
      ∧ n.read16 hdrClockSet = clockSet ∧ n.read32 hdrTime = time ∧ n.read32 hdrCadence = cadence
      ∧ n.read16 hdrLink = link ∧ n.read16 hdrSession = session ∧ n.read32 hdrEpoch = epoch
      ∧ n.read32 hdrTicket = ticket ∧ n.read16 hdrVisits = visits ∧ n.read16 hdrSweep = sweep
      ∧ n.read16 hdrStoreFault = fault ∧ n.read16 hdrRefused = 0xFFFF
      ∧ Memory.SameBut (fun x => x < 36 ∨ (48 ≤ x ∧ x < 52)) m n := by
  unfold headerOf hdrIdent hdrBoot hdrCause hdrClockSet hdrTime hdrCadence hdrLink hdrSession hdrEpoch hdrTicket
    hdrVisits hdrSweep hdrStoreFault hdrRefused
  dsimp only
  refine ⟨?_, ?_, ?_, ?_, ?_, ?_, ?_, ?_, ?_, ?_, ?_, ?_, ?_, ?_, ?_, fun x h => ?_⟩
  all_goals
    repeat with_reducible first
      | exact w
      | apply Memory.write16_wf
      | apply Memory.write32_wf
      | rw [Memory.read16_write16_other ?_ (by decide)]
      | rw [Memory.read16_write32_other ?_ (by decide)]
      | rw [Memory.read32_write16_other ?_ (by decide)]
      | rw [Memory.read32_write32_other ?_ (by decide)]
      | rw [Memory.readByte_write16_other ?_ (by omega) (by omega)]
      | rw [Memory.readByte_write32_other ?_ (by omega)]
      | refine Memory.read16_write16 ?_ (by decide)
      | refine Memory.read32_write32 ?_ (by decide)

/-- The header after a start (R118, R119), but for the journal's fields. -/
theorem writeHeader_spec (s : State) (cause : StartCause) (w : s.mem.wf = true) :
    ∃ m : Memory, s.writeHeader cause = { s with mem := m } ∧ m.wf = true ∧ m.read32 hdrIdent = ident
      ∧ m.read32 hdrBoot = s.store.counters.bootCount ∧ m.read16 hdrCause = BitVec.ofNat 16 cause.code
      ∧ m.read16 hdrClockSet = BitVec.ofNat 16 (bit s.time.isSet) ∧ m.read32 hdrTime = s.time.time
      ∧ m.read32 hdrCadence = s.link.cadence ∧ m.read16 hdrLink = BitVec.ofNat 16 s.link.state.code
      ∧ m.read16 hdrSession = BitVec.ofNat 16 s.session.state.code ∧ m.read32 hdrEpoch = s.store.counters.epoch
      ∧ m.read32 hdrTicket = s.store.counters.lastTicket ∧ m.read16 hdrVisits = BitVec.ofNat 16 s.visitCount
      ∧ m.read16 hdrSweep = BitVec.ofNat 16 s.intake.position.val
      ∧ m.read16 hdrStoreFault = BitVec.ofNat 16 (bit s.store.latch) ∧ m.read16 hdrRefused = 0xFFFF
      ∧ Memory.SameBut (fun x => x < 36 ∨ (48 ≤ x ∧ x < 52)) s.mem m := by
  have first : s.writeLong hdrIdent ident = { s with mem := s.mem.write32 hdrIdent ident } := rfl
  have long : ∀ (m : Memory) x v, ({ s with mem := m } : State).writeLong x v = { s with mem := m.write32 x v } :=
    fun _ _ _ => rfl
  have word : ∀ (m : Memory) x v, ({ s with mem := m } : State).writeWord x v = { s with mem := m.write16 x v } :=
    fun _ _ _ => rfl
  refine ⟨_, ?_, headerOf_reads s.mem w _ _ _ _ _ _ _ _ _ _ _ _⟩
  unfold State.writeHeader
  dsimp only
  rw [first, long, word, word, long, long, word, word, long, long, word, word, word, word]
  rfl

theorem boardBytes_length {s : State} (h : s.cells.length = 24) : s.boardBytes.length = 156 := by
  have f : ∀ l : List Cell, (l.flatMap fun c => u16 c.state.code).length = 2 * l.length := by
    intro l; induction l with
    | nil => rfl
    | cons c l ih => simp only [List.flatMap_cons, List.length_append, ih, List.length_cons]; simp [u16, bytes16]; omega
  simp only [State.boardBytes, List.length_append, f, h, allDecks, List.flatMap_cons, List.flatMap_nil]
  rfl

/-! Records that follow a STARTUP record (R160). -/

theorem foldl_offer_journaled (rs : List Record) (s : State) : Journaled causeJournal s (rs.foldl State.offer s) := by
  induction rs generalizing s with
  | nil => exact Journaled.refl _ s
  | cons r rs ih => exact (offer_journaled s r).trans (ih _)

theorem followed_journaled (s : State) : Journaled recordCauses s (followed s) := by
  unfold followed
  dsimp only
  have h := ((journaled_journal (e := causeJournal) s { s.journal with holding := false, held := [] }).trans
    (foldl_offer_journaled s.journal.held _)).mono (e := recordCauses) (by decide)
  split
  · exact h.trans (notice_journaled _ _ _ _ _ _)
  · exact h

/-! Only the start-up itself begins and ends the holding of records (R160). -/

@[simp] theorem setOutbox_holding (s : State) (rs : List Record) :
    (s.setOutbox rs).journal.holding = s.journal.holding := rfl

@[simp] theorem openPage_holding (s : State) : (s.openPage).journal.holding = s.journal.holding := by
  unfold State.openPage
  dsimp only
  split <;> simp

@[simp] theorem judgeAttention_holding (s : State) : (s.judgeAttention).journal.holding = s.journal.holding := by
  unfold State.judgeAttention
  dsimp only
  split <;> simp

@[simp] theorem publish_holding (s : State) : (s.publish).journal.holding = s.journal.holding := by
  unfold State.publish
  split <;> simp

@[simp] theorem placeOn_holding (s : State) (p : PageId) (r : Record) :
    (s.placeOn p r).journal.holding = s.journal.holding := rfl

@[simp] theorem dropRecord_holding (s : State) (r : Record) :
    (s.dropRecord r).journal.holding = s.journal.holding := rfl

@[simp] theorem queueRecord_holding (s : State) (r : Record) :
    (s.queueRecord r).journal.holding = s.journal.holding := by
  unfold State.queueRecord
  dsimp only
  split <;> simp

@[simp] theorem offer_holding (s : State) (r : Record) : (s.offer r).journal.holding = s.journal.holding := by
  unfold State.offer
  dsimp only
  repeat' split
  all_goals simp

@[simp] theorem record_holding (s : State) (r : Record) : (s.record r).journal.holding = s.journal.holding := by
  unfold State.record
  split <;> simp

@[simp] theorem placeSummary_holding (s : State) : (s.placeSummary).journal.holding = s.journal.holding := by
  unfold State.placeSummary
  dsimp only
  repeat' split
  all_goals simp

@[simp] theorem drainOutbox_holding (s : State) (rs : List Record) :
    (s.drainOutbox rs).journal.holding = s.journal.holding := by
  induction rs generalizing s with
  | nil => rfl
  | cons _ _ ih =>
    unfold State.drainOutbox
    dsimp only
    repeat' split
    all_goals simp [ih]

@[simp] theorem judgePage_holding (s : State) : (s.judgePage).journal.holding = s.journal.holding := by
  unfold State.judgePage
  repeat' split
  all_goals simp

@[simp] theorem drain_holding (s : State) : (s.drain).journal.holding = s.journal.holding := by
  unfold State.drain
  dsimp only
  repeat' split
  all_goals simp

@[simp] theorem endReservation_holding (s : State) : (s.endReservation).journal.holding = s.journal.holding := rfl

@[simp] theorem placeReserved_holding (s : State) (r : Record) :
    (s.placeReserved r).journal.holding = s.journal.holding := by
  unfold State.placeReserved
  split <;> simp

@[simp] theorem releaseReservation_holding (s : State) :
    (s.releaseReservation).journal.holding = s.journal.holding := by
  unfold State.releaseReservation
  repeat' split
  all_goals simp

@[simp] theorem auditPump_holding (s : State) : (s.auditPump).journal.holding = s.journal.holding := by
  unfold State.auditPump
  repeat' split
  all_goals simp

@[simp] theorem writeAudit_holding (s : State) (k : AuditKind) (b : List Byte) :
    (s.writeAudit k b).journal.holding = s.journal.holding := by
  simp [State.writeAudit]

@[simp] theorem answer_holding (s : State) (k : SlotId) (c : AnswerCode) (b : List Byte) :
    (s.answer k c b).journal.holding = s.journal.holding := rfl

@[simp] theorem setStatus_holding (s : State) (n : W32) (x : VisitStatus) :
    (s.setStatus n x).journal.holding = s.journal.holding := by
  unfold State.setStatus
  repeat' split
  all_goals simp

@[simp] theorem removeVisit_holding (s : State) (n : W32) :
    (s.removeVisit n).journal.holding = s.journal.holding := by
  unfold State.removeVisit
  split <;> rfl

@[simp] theorem writeSummary_holding (s : State) (i : Nat) (v : Visit) (m : Summary) :
    (s.writeSummary i v m).journal.holding = s.journal.holding := by
  unfold State.writeSummary
  split <;> simp

@[simp] theorem endCapture_holding (s : State) (k : SlotId) (c : AnswerCode) (b : List Byte) :
    (s.endCapture k c b).journal.holding = s.journal.holding := rfl

@[simp] theorem dropTicket_holding (s : State) : (s.dropTicket).journal.holding = s.journal.holding := by
  unfold State.dropTicket
  split <;> rfl

@[simp] theorem commitTicket_holding (s : State) : (s.commitTicket).journal.holding = s.journal.holding := by
  unfold State.commitTicket
  split <;> rfl

@[simp] theorem endSession_holding (s : State) : (s.endSession).journal.holding = s.journal.holding := by
  show ((s.setSession .closed).setInTest false).journal.holding = _
  rw [(setInTest_spec (s.setSession .closed) false).1]
  rfl

@[simp] theorem endPass_holding (s : State) : (s.endPass).journal.holding = s.journal.holding := rfl

@[simp] theorem closeSession_holding (s : State) (k : AuditKind) :
    (s.closeSession k).journal.holding = s.journal.holding := by
  unfold State.closeSession
  dsimp only
  split <;> simp

@[simp] theorem expiryStep_holding (s : State) (a : Nat) (ns : List W32) :
    (s.expiryStep a ns).journal.holding = s.journal.holding := by
  induction ns generalizing s with
  | nil => rfl
  | cons _ _ ih =>
    unfold State.expiryStep
    dsimp only
    repeat' split
    all_goals simp [ih]

@[simp] theorem firstWeighCompleted_holding (s : State) :
    (s.firstWeighCompleted).journal.holding = s.journal.holding := by
  unfold State.firstWeighCompleted
  dsimp only
  repeat' split
  all_goals (try simp_all)
  all_goals (try rfl)

@[simp] theorem firstWeighFailed_holding (s : State) : (s.firstWeighFailed).journal.holding = s.journal.holding := by
  unfold State.firstWeighFailed
  repeat' split
  all_goals simp

@[simp] theorem ticketCompleted_holding (s : State) : (s.ticketCompleted).journal.holding = s.journal.holding := by
  unfold State.ticketCompleted
  split <;> simp

@[simp] theorem ticketFailed_holding (s : State) : (s.ticketFailed).journal.holding = s.journal.holding := by
  unfold State.ticketFailed
  split <;> simp

@[simp] theorem recallCompleted_holding (s : State) (k : SlotId) (i : Nat) (c : TicketCopy) :
    (s.recallCompleted k i c).journal.holding = s.journal.holding := by
  unfold State.recallCompleted
  dsimp only
  repeat' split
  all_goals (try simp_all)
  all_goals (try rfl)

@[simp] theorem recallFailed_holding (s : State) (k : SlotId) (c : TicketCopy) :
    (s.recallFailed k c).journal.holding = s.journal.holding := by
  unfold State.recallFailed
  simp
  rfl

@[simp] theorem openFailed_holding (s : State) (k : SlotId) (n : Nat) :
    (s.openFailed k n).journal.holding = s.journal.holding := by
  unfold State.openFailed
  split <;> simp

@[simp] theorem commitCompleted_holding (s : State) : (s.commitCompleted).journal.holding = s.journal.holding := by
  unfold State.commitCompleted
  dsimp only
  split <;> (simp; try rfl)

@[simp] theorem commitFailed_holding (s : State) (k : SlotId) (n : Nat) :
    (s.commitFailed k n).journal.holding = s.journal.holding := by
  unfold State.commitFailed
  split <;> simp

@[simp] theorem voidCompleted_holding (s : State) (k : SlotId) (n : W32) :
    (s.voidCompleted k n).journal.holding = s.journal.holding := by
  unfold State.voidCompleted
  dsimp only
  split <;> (simp; try rfl)

@[simp] theorem voidFailed_holding (s : State) (k : SlotId) (n : W32) :
    (s.voidFailed k n).journal.holding = s.journal.holding := by
  simp [State.voidFailed]

@[simp] theorem expiryCompleted_holding (s : State) (n : W32) :
    (s.expiryCompleted n).journal.holding = s.journal.holding := by
  unfold State.expiryCompleted
  dsimp only
  split <;> (simp; try rfl)

@[simp] theorem expiryFailed_holding (s : State) (n : W32) :
    (s.expiryFailed n).journal.holding = s.journal.holding := by
  simp [State.expiryFailed]

@[simp] theorem jobCompleted_holding (s : State) (j : JobKind) :
    (s.jobCompleted j).journal.holding = s.journal.holding := by
  cases j <;> first | rfl | simp [State.jobCompleted]

@[simp] theorem jobFailed_holding (s : State) (j : JobKind) :
    (s.jobFailed j).journal.holding = s.journal.holding := by
  cases j <;> simp [State.jobFailed]

@[simp] theorem writeRow_holding (s : State) (w : RowWrite) :
    (s.writeRow w).journal.holding = s.journal.holding := by
  unfold State.writeRow
  dsimp only
  split <;> (simp; try rfl)

@[simp] theorem leaveRow_holding (s : State) (w : RowWrite) (l : Residue) :
    (s.leaveRow w l).journal.holding = s.journal.holding := by
  unfold State.leaveRow
  dsimp only
  split <;> (simp; try rfl)

theorem foldl_jobFailed_holding (js : List Job) (s : State) :
    (js.foldl (fun t o => t.jobFailed o.kind) s).journal.holding = s.journal.holding := by
  induction js generalizing s with
  | nil => rfl
  | cons _ _ ih => simp [ih]

@[simp] theorem failJob_holding (s : State) (j : Job) (w : RowWrite) :
    (s.failJob j w).journal.holding = s.journal.holding := by
  simp [State.failJob, foldl_jobFailed_holding]
  rfl

@[simp] theorem finishRow_holding (s : State) (j : Job) (w : RowWrite) (rest : List RowWrite) :
    (s.finishRow j w rest).journal.holding = s.journal.holding := by
  unfold State.finishRow
  dsimp only
  split <;> (simp; try rfl)

@[simp] theorem finishStore_holding (s : State) (f : RowFinish) :
    (s.finishStore f).journal.holding = s.journal.holding := by
  unfold State.finishStore
  dsimp only
  repeat' split
  all_goals (try simp_all)
  all_goals (try rfl)

end Sys2Proof.Machine
end

