-- ==== Sys2Proof/Tests/Slice0.lean ====
section
/-! SUPPORT. Tests on small states: ill-formed commands that the check refuses, values the manual's worked cases give,
and for each statement states and operands that meet its hypotheses, clause by clause. -/

namespace Sys2Proof.Tests

open Sys2Proof.Machine

set_option Elab.async false

/-! Ill-formed commands. -/

/-- A plan that lists nothing, taken whole or with its events left apart. -/
def plain : Plan := ⟨[], false⟩
def apart : Plan := ⟨[], true⟩

/-- A frame of a number and 96 bytes of cell words, with its CRC (R1, R2). -/
def frameOf (number : Byte) (words : List Byte) : List Byte :=
  let c := crc16 (number :: words)
  [0xA5, 0x5A, number] ++ words ++ [c.extractLsb' 8 8, c.extractLsb' 0 8]

/-- A frame in which no cell is fitted. -/
def emptyFrame : List Byte :=
  frameOf 7 ((List.range 24).flatMap fun _ => [0, 0, 0, 3])

theorem test_frame_is_complete : (Instr.frameReceived 0 emptyFrame plain).wellFormed = true := by decide +kernel
theorem test_short_frame_is_refused : (Instr.frameReceived 0 (emptyFrame.take 100) plain).wellFormed = false := by
  decide +kernel
theorem test_frame_without_sync_is_refused :
    (Instr.frameReceived 0 (0x5A :: emptyFrame.drop 1) plain).wellFormed = false := by decide +kernel
theorem test_abandoned_whole_frame_is_refused : (Instr.frameAbandoned 0 emptyFrame).wellFormed = false := by
  decide +kernel
theorem test_plan_with_a_repeat_is_refused_in_a_frame :
    (Instr.frameReceived 0 emptyFrame ⟨[.board, .board], false⟩).wellFormed = false := by decide +kernel
theorem test_plan_with_a_repeat_is_refused_at_a_tick :
    (Instr.tickTimerEvent 50 ⟨[.board, .sweep, .board], false⟩).wellFormed = false := by decide
theorem test_plan_with_a_repeat_is_refused_at_an_expiry :
    (Instr.frameTimerExpiry 150 ⟨[.sweep, .sweep], false⟩).wellFormed = false := by decide
theorem test_plan_with_a_repeat_is_refused_at_warm_up :
    (Instr.warmUpComplete ⟨[.clock, .clock], true⟩).wellFormed = false := by decide
theorem test_plan_with_a_repeat_is_refused_at_resumption :
    (Instr.linkResumed ⟨[.clock, .clock], true⟩).wellFormed = false := by decide

theorem test_short_row_is_refused_at_power_loss : (Instr.powerLoss (.other [])).wellFormed = false := by decide
theorem test_short_row_is_refused_at_power_on : (Instr.powerOn true (.other [])).wellFormed = false := by decide
theorem test_short_row_is_refused_at_pin_reset : (Instr.pinReset true (.other [])).wellFormed = false := by decide
theorem test_long_row_is_refused_at_a_comparison :
    (Instr.storeRowWritten false (.other (List.replicate 65 0))).wellFormed = false
      ∧ (Instr.storeRowWritten false (.other (List.replicate 64 0))).wellFormed = true := by decide

/-! Values of the manual. -/

theorem test_rounding_of_a_half : roundDiv 3 2 = 2 ∧ roundDiv (-3) 2 = -2 ∧ roundDiv (-30000) 20000 = -2 := by decide
theorem test_horn_half_periods : [100, 500, 2000, 105].map halfPeriod = [10, 50, 200, 11] := by decide
theorem test_crc16_check_value : crc16 [0x31, 0x32, 0x33, 0x34, 0x35, 0x36, 0x37, 0x38, 0x39] = 0x29B1 := by
  decide +kernel
theorem test_crc32_check_value : crc32 [0x31, 0x32, 0x33, 0x34, 0x35, 0x36, 0x37, 0x38, 0x39] = 0xCBF43926 := by
  decide +kernel
theorem test_no_word_spells_a_command : decodeTableWord 16 0 = none ∧ decodeTableWord 8 0x25 = none := by decide

/-! States. -/

/-- The state a command leaves. -/
def after (c : Instr) (s : State) : State :=
  match exec c s with
  | .next t => t
  | _ => s

/-- The part after reset with its start-up row written: nothing waits in the store. -/
def idle : State :=
  { State.reset with store := { State.reset.store with waiting := [] } }

/-- RUN is 1, and a slot is POSTED with an order of a kind and the words of its body by their offsets. -/
def posting (k : SlotId) (kind : W16) (body : List (Nat × W16)) (s : State) : State :=
  { s with
    regs := { s.regs with run := true }
    mem :=
      writeWords s.mem
        ([(slotBase k, slotPosted), (slotBase k + 2, kind)] ++ body.map fun w => (slotBase k + 16 + w.1, w.2)) }

/-- A state of a link. -/
def linked (st : LinkState) (run : Nat) (s : State) : State :=
  { s with link := { s.link with state := st, runCount := run } }

theorem test_power_on_of_a_new_part : after (.powerOn false .old) { idle with power := .off } = State.reset := by
  decide +kernel

theorem noHolds_of {s : State} (h : (allLines.all fun l => (s.tracker.lines.get l).hold.isNone) = true) : s.noHolds := by
  intro l
  have := List.all_eq_true.mp h l (by cases l <;> decide)
  exact Option.isNone_iff_eq_none.mp this

theorem ready_of {s : State} (h : s.power = .on ∧ s.unfinished = []) : s.Ready := ⟨h.1, h.2⟩

theorem idle_ready : idle.Ready := ready_of (by decide +kernel)

/-- A cadence event stopped at an event with a row of its own. -/
def stopped (e : Own) (s : State) : State := { s with unfinished := [.own e] }

theorem stopped_due (e : Own) (s : State) : (stopped e s).ownDue e = s.ownDue e := by cases e <;> rfl

theorem stopped_of {s : State} {e : Own} (h : s.power = .on ∧ s.ownDue e = true) : (stopped e s).StoppedAt e [] :=
  ⟨h.1, rfl, (stopped_due e s).trans h.2⟩

/-- One short of its condition the event is not due, and no row stops there. -/
theorem short_of {s : State} {e : Own} (h : s.ownDue e = false) : (stopped e s).NotStoppedAt e := fun _ k =>
  absurd k.due (by rw [stopped_due, h]; decide)

/-! The hypotheses of the statements, met. Each theorem names its statement. -/

theorem test_met_StepRunsTheFrontCommand : State.reset.pending = [] := rfl

theorem test_met_StepKeepsTheInvariant :
    ({ State.reset with pending := [.clearAnswer] } : State).Inv
      ∧ step { State.reset with pending := [.clearAnswer] } = .next (after .clearAnswer State.reset) :=
  ⟨⟨by decide +kernel, fun c => absurd c (by decide), fun c => absurd c (by decide),
    ⟨by decide +kernel, by decide +kernel, by decide +kernel, by decide +kernel⟩, ⟨by decide, by decide⟩,
    by decide +kernel, fun p ps h => absurd h.symm (List.cons_ne_nil p ps)⟩, rfl⟩

/-- The part without power, and held in a reset. -/
def dark : State := { idle with power := .off }
def heldPart : State := { idle with power := .held .pin }

theorem test_met_UnpoweredPartTakesNoCommand : dark.power ≠ .on ∧ heldPart.power ≠ .on := by decide

theorem test_met_PowerLoss :
    dark.power = .off ∧ idle.power ≠ .off ∧ exec (.powerLoss .corrupt) idle = .next (after (.powerLoss .corrupt) idle)
      ∧ idle.unfinished = [] ∧ idle.store.queue = [] ∧ idle.store.waiting = [] :=
  ⟨rfl, by decide, rfl, rfl, rfl, rfl⟩

theorem test_met_PinResetStartsThePart :
    idle.Ready ∧ idle.store.queue = [] ∧ idle.store.waiting = []
      ∧ idle.store.rows.countersRow = some ⟨manufactureCounters, 1⟩ ∧ heldPart.power = .held .pin
      ∧ dark.power = .off :=
  ⟨idle_ready, by decide +kernel⟩

theorem test_met_RestartKeepsEnableClockAndBootCount :
    idle.Ready ∧ idle.mem.wf = true ∧ idle.regs.restart = false ∧ idle.store.queue = [] ∧ idle.store.waiting = []
      ∧ idle.store.rows.countersRow = some ⟨manufactureCounters, 1⟩
      ∧ idle.store.rows.imageTest manufactureCounters.epoch = none
      ∧ manufactureCounters.sessionOpen = false ∧ manufactureCounters.epoch = 0
      ∧ ({ idle with regs := { idle.regs with restart := true } } : State).regs.restart = true :=
  ⟨idle_ready, by decide +kernel⟩

/-- A journal filling a page that holds a number of records, or blocked with two records in the outbox. -/
def journalled (count used : W16) : State :=
  { idle with mem := writeWords idle.mem [(pageBase 0 + 2, count), (pageBase 0 + 8, used)] }

def blockedJournal : State :=
  let r : Record := ⟨.startup, 0, startUpContent .powerOn idle⟩
  { idle with journal := { idle.journal with current := none, blocked := true, outbox := [r, r], attention := 9 } }

/-- A restart publishes a page that holds records and offers STARTUP to the next, with the SUMMARY behind it; on a
blocked journal STARTUP alone waits in the outbox, and the SUMMARY stays owed. -/
theorem test_met_restart_of_the_journal :
    let open' := after (.restart ⟨true, false, .old⟩) (journalled 3 108)
    let blocked := after (.restart ⟨true, false, .old⟩) blockedJournal
    (journalled 3 108).journal.current = some 0 ∧ (journalled 3 108).pageCount 0 = 3 ∧ (journalled 0 0).pageCount 0 = 0
      ∧ blockedJournal.journal.current = none ∧ open'.pageState 0 = pagePublished ∧ open'.journal.current = some 1
      ∧ open'.pageCount 1 = 2 ∧ open'.journal.owed = false ∧ open'.journal.notes = Notes.start
      ∧ open'.mem.readBytes (pageBody 1 + 8) 28 = startUpContent .engineRestart open'
      ∧ blocked.journal.outbox.map (·.kind) = [.startup] ∧ blocked.journal.owed = true
      ∧ blocked.journal.owedRestart = true ∧ blocked.journal.attention = 0 ∧ blocked.mem.read16 hdrOutbox = 1
      ∧ blocked.journal.notes ≠ Notes.start := by decide +kernel

/-- What the offer of STARTUP at a restart finds: no reservation, an empty outbox, a SUMMARY owed, an empty page. -/
theorem test_met_start_up_offered_on_an_owed_summary :
    let s := ({ journalled 0 0 with journal := { idle.journal with outbox := [] } } : State).restartJournal
    let b := blockedJournal.restartJournal
    ([s, b].all fun t =>
        decide
          (t.journal.reservation = none ∧ t.journal.outbox = [] ∧ t.journal.owed = true ∧ t.cells.length = 24
            ∧ (startUpContent .engineRestart t).length = 28)) = true
      ∧ s.journal.blocked = false ∧ s.journal.current = some 0 ∧ s.pageUsed 0 = 0 ∧ s.mem.wf = true ∧ b.journal.blocked = true := by
  decide +kernel

theorem test_met_ResetIsThePowerOnOfANewPart :
    dark.pending = [] ∧ dark.pins = Pins.start ∧ dark.store.rows = manufactureRows ∧ dark.power ≠ .on
      ∧ exec (.powerLoss .old) dark = .next (after (.powerLoss .old) dark) :=
  ⟨rfl, rfl, rfl, by decide, rfl⟩

/-! The link. -/

/-- A link that has accepted a frame at clock 0, in a state, with a run count. -/
def fed (st : LinkState) (run : Nat) : State :=
  { idle with
    link :=
      { idle.link with
        state := st
        runCount := run
        timer := true
        lastArrival := some 0
        lastFrame := some (parseFrame emptyFrame) } }

theorem test_met_FramesFeedTheLink :
    (∀ st : LinkState, (fed st 10).Ready ∧ (fed st 10).noHolds
      ∧ ((fed st 10).later 20).spacedOk = true ∧ ((fed st 10).later 19).spacedOk = false
      ∧ ((fed st 10).later 150).timerOver 151 = false)
      ∧ isFrame emptyFrame = true ∧ frameCrcOk emptyFrame = true
      ∧ frameCrcOk (emptyFrame.set 50 1) = false ∧ isFrame (emptyFrame.take 100) = false
      ∧ (fed .waiting 398).link.runCount + 1 < 400 ∧ (fed .lost 198).link.runCount + 1 < 200
      ∧ 400 ≤ (fed .waiting 399).link.runCount + 1 ∧ 200 ≤ (fed .lost 199).link.runCount + 1 :=
  ⟨fun st => by
    cases st <;>
      exact ⟨ready_of (by decide +kernel), noHolds_of (by decide +kernel), by decide +kernel, by decide +kernel,
        by decide +kernel⟩,
    by decide +kernel⟩

/-- A frame that comes after the frame timer has run out unnoticed: one tick before it has not. The LOST link begins a
run at that frame; any other is lost first. -/
theorem test_met_a_frame_after_the_timer_ran_out :
    let lost := after (.frameReceived 151 emptyFrame plain) (fed .lost 10)
    let live := after (.frameReceived 151 emptyFrame plain) (fed .live 10)
    (∀ st : LinkState, ((fed st 10).later 151).spacedOk = true ∧ ((fed st 10).later 151).timerOver 151 = true)
      ∧ (fed .live 10).link.state ≠ .lost ∧ lost.link.runCount = 1 ∧ live.link.state = .lost ∧ live.link.runCount = 1
      ∧ live.link.timer = true ∧ ({ idle with link := { idle.link with state := .lost } } : State).link.timer = false :=
  ⟨fun st => by cases st <;> exact ⟨by decide +kernel, by decide +kernel⟩, by decide +kernel⟩

theorem test_met_CadenceEventDoesEachWorkOnce :
    idle.mem.wf = true ∧ idle.ownDue .toggle = false ∧ idle.power = .on
      ∧ (∀ e plan, Instr.clearAnswer ≠ ownCommand plan e) :=
  ⟨by decide +kernel, by decide +kernel, rfl, fun e plan => by cases e <;> exact fun h => nomatch h⟩

/-- A computation that a plan puts after the snapshot comes after the examinations of that snapshot. -/
theorem test_plans_put_the_examinations_before_a_late_computation :
    planWorks plain = canonicalOrder
      ∧ (planWorks ⟨[.snapshot, .compute, .tracking], false⟩).take 5
        = [.snapshot, .link, .zeroWatch, .tracking, .compute]
      ∧ (planWorks ⟨[.snapshot, .sweep, .compute, .tracking], false⟩).take 6
        = [.snapshot, .sweep, .link, .zeroWatch, .tracking, .compute]
      ∧ (planWorks ⟨[.tracking, .compute], false⟩).take 5 = [.snapshot, .tracking, .link, .zeroWatch, .compute]
      ∧ (planWorks ⟨[.compute, .board, .tracking], false⟩).take 5
        = [.link, .compute, .board, .snapshot, .tracking] := by decide

/-- A part whose board shows something in every field. -/
def shown : State :=
  let decks := (Monitor.start manufactureSet false).snapshot.decks
  { idle with
    cells := idle.cells.set 23 { Cell.start with state := .recovered }
    lane := { Lane.start with burst := some 77, report := { Lane.start.report with aspectA := .green, burst := some 77 } }
    tracker := { idle.tracker with report := { idle.tracker.report with state := .active, axlesOn := 5, number := 0x12345678 } }
    monitor :=
      { Monitor.start manufactureSet false with
        snapshot :=
          { (Monitor.start manufactureSet false).snapshot with
            legal := -5
            fine := 300
            decks := { decks with d3 := { decks.d3 with legal := 70000, fine := -70000 } } } } }

/-- The addresses of the live board's fields (12.4). -/
theorem test_board_shows_each_field_at_its_place :
    let m := shown.refreshBoard.mem
    shown.mem.wf = true ∧ m.read32 0x134 = fieldS32 70000 ∧ m.read32 0x138 = fieldS32 (-70000)
      ∧ m.read16 0x13C = (shown.monitor.snapshot.decks.get 3).flags.word ∧ m.read32 0x140 = 0
      ∧ m.read32 0x144 = fieldS32 (-5) ∧ m.read32 0x148 = 300 ∧ m.read16 0x14C = shown.monitor.snapshot.flags.word
      ∧ m.read16 0x150 = BitVec.ofNat 16 TrackState.active.code ∧ m.read16 0x152 = 5 ∧ m.read32 0x154 = 0x12345678
      ∧ m.read16 0x15A = BitVec.ofNat 16 Aspect.green.code ∧ m.read16 0x15E = laneWord shown.lane.report
      ∧ m.read16 0x164 = 77 ∧ shown.cells[23]? = some { Cell.start with state := .recovered }
      ∧ m.read16 (0x170 + 2 * 23) = BitVec.ofNat 16 CellState.recovered.code
      ∧ m.read16 boardBase = shown.mem.read16 boardBase + 2 := by decide +kernel

/-- The link of a part that has counted some cadence events of the tick timer. -/
def counted (n : W32) : State := { idle with link := { idle.link with cadence := n } }

theorem test_met_TickTimerGivesCadenceEvents :
    (counted 9).Ready ∧ (counted 9).noHolds ∧ (fed .lost 0).Ready ∧ (fed .lost 0).noHolds ∧ (fed .live 0).Ready
      ∧ (fed .live 0).noHolds ∧ (counted 9).link.state = .waiting ∧ (fed .lost 0).link.state = .lost
      ∧ 50 ≤ ticksFrom (counted 9).link.tickBase ((counted 9).clock + 50)
      ∧ ticksFrom (counted 9).link.tickBase ((counted 9).clock + 49) < 50
      ∧ ¬((fed .live 0).link.state = .waiting ∨ (fed .live 0).link.state = .lost) :=
  ⟨ready_of (by decide +kernel), noHolds_of (by decide +kernel), ready_of (by decide +kernel),
    noHolds_of (by decide +kernel), ready_of (by decide +kernel), noHolds_of (by decide +kernel), by decide +kernel⟩

theorem test_met_FrameTimerExpiryLosesTheLink :
    (fed .live 5).Ready ∧ (fed .live 5).noHolds ∧ (fed .lost 5).Ready ∧ (fed .lost 5).noHolds
      ∧ ((fed .live 5).later 149).timerOver 150 = false ∧ ((fed .live 5).later 150).timerOver 150 = true
      ∧ (fed .live 5).link.state ≠ .lost ∧ ((fed .lost 5).later 150).timerOver 150 = true
      ∧ (fed .lost 5).link.state = .lost :=
  ⟨ready_of (by decide +kernel), noHolds_of (by decide +kernel), ready_of (by decide +kernel),
    noHolds_of (by decide +kernel), by decide +kernel⟩

theorem test_met_LinkNoStartLosesTheLink :
    (counted 200).mem.wf = true ∧ (stopped .noStart (counted 200)).StoppedAt .noStart []
      ∧ (stopped .noStart (counted 199)).NotStoppedAt .noStart :=
  ⟨by decide +kernel, stopped_of (by decide +kernel), short_of (by decide +kernel)⟩

theorem test_met_WarmUpCompleteMakesTheLinkLive :
    (fed .waiting 400).mem.wf = true ∧ (stopped .warmUp (fed .waiting 400)).StoppedAt .warmUp []
      ∧ (stopped .warmUp (fed .waiting 399)).NotStoppedAt .warmUp :=
  ⟨by decide +kernel, stopped_of (by decide +kernel), short_of (by decide +kernel)⟩

theorem test_met_LinkResumedRestartsTheFilters :
    (fed .lost 200).mem.wf = true ∧ (stopped .resumed (fed .lost 200)).StoppedAt .resumed []
      ∧ (fed .lost 200).metro.active.isEnabled 0 = true ∧ (fed .lost 200).metro.active.isEnabled 1 = false
      ∧ (stopped .resumed (fed .lost 199)).NotStoppedAt .resumed :=
  ⟨by decide +kernel, stopped_of (by decide +kernel), by decide +kernel, by decide +kernel, short_of (by decide +kernel)⟩

/-- Cell C3 in a state, with its counts. -/
def cellAs (st : CellState) (run recovery : Nat) : State :=
  { idle with cells := idle.cells.set 3 { Cell.start with state := st, faultRun := run, recovery := recovery } }

theorem test_met_CellFaultAndRecovery :
    (cellAs .active 20 0).mem.wf = true ∧ (stopped (.cellFault 3) (cellAs .active 20 0)).StoppedAt (.cellFault 3) []
      ∧ (stopped (.cellFault 3) (cellAs .recovered 1 0)).StoppedAt (.cellFault 3) []
      ∧ (stopped (.cellFault 3) (cellAs .active 19 0)).NotStoppedAt (.cellFault 3)
      ∧ (stopped (.cellRecovered 3) (cellAs .faulted 0 400)).StoppedAt (.cellRecovered 3) []
      ∧ (stopped (.cellRecovered 3) (cellAs .faulted 0 399)).NotStoppedAt (.cellRecovered 3) :=
  ⟨by decide +kernel, stopped_of (by decide +kernel), stopped_of (by decide +kernel), short_of (by decide +kernel),
    stopped_of (by decide +kernel), short_of (by decide +kernel)⟩

/-- C3 restarted last at a count of 50, at a count of 450, and requests in the queue. -/
def restarting (st : CellState) (queue : List CellId) (sending : List Byte) : State :=
  { idle with
    link := { idle.link with cadence := 450 }
    cells := idle.cells.set 3 { Cell.start with state := st, restarts := 2, lastRestart := some 50 }
    back := ⟨queue, sending⟩ }

/-- The last frame gives C3 a count of 5 and a status. -/
def framed (status : CellStatus) (s : State) : State :=
  { s with
    link := { s.link with lastFrame := some ⟨1, (List.replicate 24 (0, .notFitted)).set 3 (5, status)⟩ } }

/-- The examination of a status, about the counts that bring about a fault and a recovery. -/
theorem test_met_examination_of_a_status :
    let due := fun (e : Own) (status : CellStatus) (s : State) => ((framed status s).examineCell 3).ownDue e
    ((framed .good (cellAs .active 7 0)).examineCell 3).cell 3
        = { Cell.start with state := .active, faultRun := 0, lastGood := some 5 }
      ∧ due (.cellFault 3) .openCircuit (cellAs .active 19 0) = true
      ∧ due (.cellFault 3) .openCircuit (cellAs .active 18 0) = false
      ∧ due (.cellFault 3) .good (cellAs .active 19 0) = false
      ∧ due (.cellFault 3) .notFitted (cellAs .recovered 0 0) = true
      ∧ due (.cellFault 3) .good (cellAs .recovered 0 0) = false
      ∧ due (.cellRecovered 3) .good (cellAs .faulted 0 399) = true
      ∧ due (.cellRecovered 3) .good (cellAs .faulted 0 398) = false
      ∧ ((framed .overRange (cellAs .faulted 0 399)).examineCell 3).cell 3 = { Cell.start with state := .faulted }
      ∧ (framed .good (cellAs .unfitted 0 0)).examineCell 3 = framed .good (cellAs .unfitted 0 0)
      ∧ (3 : CellId).val < (cellAs .active 19 0).cells.length := by decide +kernel

/-- RESTART_DUE is due at the count 400 after the last restart alone, with fewer than three restarts. -/
theorem test_met_restart_conditions :
    let s := restarting .faulted [] []
    let at' := fun n : W32 => ({ s with link := { s.link with cadence := n } } : State).ownDue (.restartDue 3)
    at' 450 = true ∧ at' 449 = false ∧ at' 451 = false ∧ (restarting .recovered [] []).ownDue (.restartDue 3) = false
      ∧ ({ s with cells := s.cells.set 3 { s.cell 3 with restarts := 3 } } : State).ownDue (.restartDue 3) = false
      ∧ (restarting .faulted [3] []).requestRestart 3 = restarting .faulted [3] []
      ∧ ((restarting .faulted [5] []).requestRestart 3).back.queue = [5, 3]
      ∧ restartBytes 3 = [0xC3, 0x01, 0x03] ++ (bytes16 (crc16 [0x01, 0x03])).reverse := by decide +kernel

theorem test_met_BackChannelSendsRestarts :
    (stopped (.restartDue 3) (restarting .faulted [] [])).StoppedAt (.restartDue 3) []
      ∧ (stopped (.restartDue 3) (restarting .faulted [3] [])).NotStoppedAt (.restartDue 3)
      ∧ (∀ st queue sending, (restarting st queue sending).Ready)
      ∧ (restarting .faulted [3, 5] []).back.sending = [] ∧ (restarting .faulted [3, 5] []).back.queue = 3 :: [5]
      ∧ ((restarting .faulted [3, 5] []).cell 3).state = .faulted
      ∧ ((restarting .active [3] []).cell 3).state ≠ .faulted
      ∧ (restarting .faulted [3] [0xC3]).back.sending ≠ [] ∧ (restarting .faulted [] []).back.queue = [] :=
  ⟨stopped_of (by decide +kernel), short_of (by decide +kernel), fun _ _ _ => ⟨rfl, rfl⟩, by decide +kernel⟩

/-! The measurement. -/

theorem test_met_QuotientsRoundHalfAwayFromZero : (0 : Int) < 2 := by decide

/-- The manufacture set with C0 and C1 mapped to D0. -/
def fittedSet : MetroSet := (manufactureSet.put 1 0 0).put 1 1 0

/-- A part without power whose image is that of a set, or whose image does not check. -/
def imaged (image : List Row) : State :=
  { dark with store := { dark.store with rows := { dark.store.rows with image0 := image } } }

/-- A start from an image that checks takes its set and gives its cells; from one that does not, the manufacture set
stands in and no cell is fitted. STARTUP is the first record of page 0, behind it the records held. -/
theorem test_met_starts_read_the_image :
    let valid := after (.powerOn false .old) (imaged (MetroImage.rows ⟨fittedSet, 0⟩))
    let other := after (.powerOn false .old) (imaged (List.replicate 9 none))
    valid.store.rows.image (placeOfEpoch 0) = some ⟨fittedSet, 0⟩ ∧ fittedSet.valid = true
      ∧ valid.metro = ⟨fittedSet, 0, false⟩ ∧ (valid.cell 0).state = .active ∧ (valid.cell 2).state = .unfitted
      ∧ other.store.rows.image (placeOfEpoch 0) = none ∧ other.metro = ⟨manufactureSet, 0, true⟩
      ∧ (other.cell 0).state = .unfitted ∧ valid.store.rows.countersAtStart.epoch = 0
      ∧ ([valid, other].all fun t =>
        t.mem.readBytes (pageBody 0) 36 == u16 1 ++ u16 9 ++ bytes32 1 ++ startUpContent .powerOn t) = true
      ∧ valid.pageState 0 = pageFilling ∧ valid.pageCount 0 = 1 ∧ other.pageCount 0 = 2
      ∧ valid.journal.current = some 0 ∧ valid.pageState 1 = pageFree := by decide +kernel

/-- A part with that set, C0 in a state. -/
def fitted (st : CellState) : State :=
  { idle with
    metro := ⟨fittedSet, 0, false⟩
    cells := (idle.cells.set 0 { Cell.start with state := st, lastGood := some 5000, held := 7 }).set 1
      { Cell.start with state := .active, lastGood := some (-3) }
    monitor := Monitor.start fittedSet false }

theorem test_met_DeckSumAddsCorrectedValues :
    (fitted .active).metro.active.isEnabled 0 = true ∧ idle.metro.active.cellsOf 0 = []
      ∧ (fitted .active).metro.active.deckOf 0 = some 0 ∧ ((fitted .active).cell 0).state = .active
      ∧ ((fitted .active).cell 0).released = false
      ∧ (({ (fitted .active).cell 0 with released := true } : Cell)).state = .active
      ∧ ((fitted .faulted).cell 0).state = .faulted ∧ ((fitted .recovered).cell 0).state = .recovered := by
  decide +kernel

theorem test_deck_sum_of_two_cells :
    (fitted .active).computeChain.chain.decks.d0.deckSum = 4997
      ∧ (fitted .faulted).computeChain.chain.decks.d0.deckSum = 4 := by decide +kernel

theorem test_met_MassIsTheFilteredSumTimesTheGain :
    (fitted .active).metro.active.isEnabled 0 = true
      ∧ ((fittedSet.put 5 0 1310720).get 5 0 = 1310720)
      ∧ roundDiv (4997 * 1310720) 65536 = 20 * 4997
      ∧ 2000000000 < roundDiv (8388607 * 4294967295) 65536
      ∧ roundDiv (-8388607 * 4294967295) 65536 < -2000000000 := by decide +kernel

theorem test_met_FilterKeepsTheLatestSums :
    0 < fittedSet.lengthOf 0 ∧ (fitted .active).metro.active.isEnabled 0 = true := by decide +kernel

theorem test_met_GrossRoundingAndLimitFlags :
    (fitted .active).metro.active.isEnabled 0 = true ∧ (fitted .active).metro.active.isEnabled 1 = false
      ∧ (let ps : List (Int × Int) := [(1000, 10), (3000, -20)]
        ((0, 0) :: ps).Pairwise (fun a b => a.1 < b.1) ∧ ((0, 0) :: ps)[0]? = some (0, 0)
          ∧ ((0, 0) :: ps)[1]? = some (1000, 10) ∧ ps.getLast? = some (3000, -20) ∧ (∀ q ∈ ps, q.1 < 3001)
          ∧ linearity ps 0 = 0 ∧ linearity ps 1000 = 10 ∧ linearity ps 2000 = -5 ∧ linearity ps 3000 = -20
          ∧ linearity ps 3001 = -20) := by
  decide +kernel

/-- D0 with its filter full and its watch at a count. -/
def filled (fill : Nat) (watch : ZeroWatch) : State :=
  { fitted .active with
    chain :=
      { Chain.start with decks := { Chain.start.decks with d0 := { DeckChain.start with fill := fill } } }
    monitor :=
      { Monitor.start fittedSet false with
        decks :=
          { (Monitor.start fittedSet false).decks with
            d0 := { (Monitor.start fittedSet false).decks.d0 with watch := watch } } } }

theorem test_met_FilterFilledAndZeroWatchExpired :
    (stopped (.filterFilled 0) (filled 16 (.notStarted none))).StoppedAt (.filterFilled 0) []
      ∧ (stopped (.filterFilled 0) (filled 15 (.notStarted none))).NotStoppedAt (.filterFilled 0)
      ∧ (stopped (.watchExpired 0) (filled 16 (.watching 0))).StoppedAt (.watchExpired 0) []
      ∧ (stopped (.watchExpired 0) (filled 15 (.watching 1))).NotStoppedAt (.watchExpired 0)
      ∧ (filled 16 .ended).metro.active.isEnabled 0 = true
      ∧ ((filled 16 (.notStarted (some 7))).monitor.decks.get 0).watch = .notStarted (some 7)
      ∧ (7 : W32) ≠ (filled 16 (.notStarted (some 7))).link.cadence :=
  ⟨stopped_of (by decide +kernel), short_of (by decide +kernel), stopped_of (by decide +kernel),
    short_of (by decide +kernel), by decide +kernel⟩

/-- A live link, D0 still and watched, with LINK_FAULT as it stands or not, its snapshot showing a corrected mass. -/
def watched (fault : Bool) (n : Int) : State :=
  let s := filled 16 (.watching 5)
  { s with
    link := (fed .live 5).link
    monitor :=
      { s.monitor with
        decks :=
          { s.monitor.decks with
            d0 :=
              { s.monitor.decks.d0 with flags := { DeckFlags.none with zeroUnset := true, linkFault := fault } } }
        snapshot :=
          { s.monitor.snapshot with
            decks := { s.monitor.snapshot.decks with d0 := { DeckSnapshot.start DeckFlags.none with corrected := n } } } } }

/-- A start-up zero is taken at the end of its range, not beyond it, and not while LINK_FAULT stands. -/
theorem test_start_up_zero_range :
    (((watched false 6000000).watchDeck 0).monitor.decks.get 0).watch = .ended
      ∧ (((watched false 6000000).watchDeck 0).monitor.decks.get 0).zero = 6000000
      ∧ (((watched false 6000001).watchDeck 0).monitor.decks.get 0).watch = .watching 4
      ∧ (((watched true 6000000).watchDeck 0).monitor.decks.get 0).watch = .watching 4 := by decide +kernel

/-- A link loss taken before the examination keeps a deck from its start-up zero, also after the snapshot; one taken
after it does not (R51). -/
theorem test_link_loss_before_the_examination :
    let watchAfter := fun order : List Work =>
      ((after (.frameTimerExpiry 150 ⟨order, false⟩) (watched false 0)).monitor.decks.get 0).watch
    (planWorks ⟨[.snapshot, .link, .zeroWatch], false⟩).take 3 = [.snapshot, .link, .zeroWatch]
      ∧ watchAfter [.snapshot, .link, .zeroWatch] = .watching 4 ∧ watchAfter [.link] = .watching 4
      ∧ watchAfter [.snapshot, .zeroWatch, .link] = .ended := by decide +kernel

/-- D0 clean and still with a gross of 9,000 g, its zero a distance from its reference, at a tracking count. -/
def tracked (count : Nat) (zero : Int) : State :=
  { fitted .active with
    monitor :=
      { tracking := count
        decks :=
          { (Monitor.start fittedSet false).decks with
            d0 :=
              { (Monitor.start fittedSet false).decks.d0 with
                flags := DeckFlags.none, zero := zero, watch := .ended } }
        snapshot :=
          { (Monitor.start fittedSet false).snapshot with
            decks :=
              { (Monitor.start fittedSet false).snapshot.decks with
                d0 := { DeckSnapshot.start DeckFlags.none with gross := 9000 } } } } }

theorem test_met_TrackingStepsWithinTheBand :
    (stopped .tracking (tracked 200 1195000)).StoppedAt .tracking []
      ∧ (stopped .tracking (tracked 199 1195000)).NotStoppedAt .tracking
      ∧ (∀ d, (tracked 200 1195000).trackingEligible d = true ↔ d = 0)
      ∧ ((tracked 200 1195000).trackDeck 0).monitor.decks.d0.zero = 1200000
      ∧ ((tracked 200 1195001).trackDeck 0).monitor.decks.d0.zero = 1195001
      ∧ ((tracked 200 1195001).trackDeck 0).monitor.decks.d0.limitMark = true ∧ (tracked 200 0).mem.wf = true :=
  ⟨stopped_of (by decide +kernel), short_of (by decide +kernel), by decide +kernel⟩

/-! The bridge and the lane. -/

/-- A line with an accepted level, stuck or not, behind a queue of some edges. -/
def striped (pressed stuck : Bool) (edges : Nat) (tr : Option Traverse) : State :=
  { idle with
    tracker :=
      { idle.tracker with
        lines := { idle.tracker.lines with aOut := { StripLine.start pressed 0 with stuck := stuck } }
        queue := List.replicate edges ⟨.bIn, true, 0, some 0⟩
        traverse := tr } }

/-- An axle with a settle window, and a traverse of it. -/
def oneAxle (window : Option Nat) : Axle :=
  { stamp := 0
    speed := 500
    overspeed := false
    slow := false
    spacing := .first
    pre := 100
    post := none
    estimate := 0
    short := false
    window := window }

def oneTraverse (window : Option Nat) (closing : Option Nat) (binding : Option W32) : Traverse :=
  { number := 1
    entryEnd := .a
    classNumber := 0
    classEntry := manufactureClass
    lenient := false
    entries := 1
    exits := 0
    axlesOn := 1
    axles := [oneAxle window]
    reasons := Reasons.none
    static := none
    binding := binding
    closing := closing }

theorem test_met_StripEdgeJoinsTheQueue :
    (striped false false 63 none).mem.wf = true ∧ (∀ a b n tr, (striped a b n tr).Ready)
      ∧ (∀ a b n tr, (striped a b n tr).noHolds)
      ∧ ((striped false false 63 none).tracker.lines.get .aOut).pressed = false
      ∧ (striped false false 63 none).tracker.queue.length < 64 ∧ 64 ≤ (striped false false 64 none).tracker.queue.length
      ∧ (striped false false 64 none).tracker.traverse = none
      ∧ (striped false false 64 (some (oneTraverse none none none))).tracker.traverse
        = some (oneTraverse none none none)
      ∧ ((striped true true 0 none).tracker.lines.get .aOut).stuck = true
      ∧ ((striped true true 0 none).tracker.lines.get .aOut).pressed = true :=
  ⟨by decide +kernel, fun _ _ _ _ => ⟨rfl, rfl⟩, fun _ _ _ _ l => by cases l <;> rfl,
    by decide +kernel⟩

/-- A line whose hold runs. -/
def debouncing : State :=
  { idle with
    tracker :=
      { idle.tracker with
        lines := { idle.tracker.lines with aOut := { StripLine.start true 0 with hold := some 7 } } } }

theorem debouncing_holdsRun : debouncing.holdsRun 7 := fun l h k => by
  cases l
  · cases k
    exact .inl (by decide +kernel)
  all_goals exact nomatch k

/-- A change of the input of a line whose hold runs changes the pin alone (R61). -/
theorem test_met_change_during_a_hold :
    debouncing.Ready ∧ (debouncing.tracker.lines.get .aOut).hold ≠ none
      ∧ (after (.stripEdge 7 .aOut false) debouncing).tracker = debouncing.tracker
      ∧ (after (.stripEdge 7 .aOut false) debouncing).pins.strips.aOut = false :=
  ⟨⟨rfl, rfl⟩, by decide +kernel⟩

/-- A stuck line that is released onto a full queue, with a traverse and without: the mark goes, a notice is placed,
and the overrun is noted. -/
theorem test_met_stuck_release_onto_a_full_queue :
    let empty := after (.stripEdge 0 .aOut false) (striped true true 64 none)
    let open' := after (.stripEdge 0 .aOut false) (striped true true 64 (some (oneTraverse none none none)))
    (empty.tracker.lines.get .aOut).stuck = false ∧ empty.tracker.queue.length = 64 ∧ empty.tracker.overrun = true
      ∧ empty.regs.cause &&& causeCondition = causeCondition ∧ open'.tracker.overrun = false
      ∧ open'.tracker.traverse.map (·.reasons.edgeOverrun) = some true
      ∧ open'.regs.cause &&& causeCondition = causeCondition := by decide +kernel

/-- An edge of a line with a stamp and a value. -/
def wheelOn (l : Line) (stamp : W32) (v : Int) : Edge := ⟨l, true, stamp, some v⟩

/-- Outer strip then inner, 90,000 ticks apart, is an ENTRY that opens a traverse; one tick more abandons it. -/
theorem test_crossings_close_within_the_limit :
    let first := idle.consumeEdge (wheelOn .aOut 0 5)
    (first.consumeEdge (wheelOn .aIn 90000 7)).tracker.traverse.map (fun t => (t.number, t.entryEnd, t.axlesOn))
        = some (1, .a, 1)
      ∧ (first.consumeEdge (wheelOn .aIn 90001 7)).tracker.traverse = none
      ∧ (first.consumeEdge (wheelOn .aIn 90001 7)).tracker.crossA = some ⟨false, 90001, 7⟩
      ∧ first.consumeEdge (wheelOn .aOut 9 7) = first
      ∧ (first.consumeEdge ⟨.aIn, false, 9, none⟩) = first := by decide +kernel

/-- A_IN with a hold that ends at clock 100, its accepted level and its input. -/
def holding (pressed input : Bool) : State :=
  { idle with
    pins := { idle.pins with strips := { idle.pins.strips with aIn := input } }
    tracker :=
      { idle.tracker with
        lines := { idle.tracker.lines with aIn := { StripLine.start pressed 0 with hold := some 100 } } } }

/-- A hold that ends on a stuck line released meanwhile, with room in the queue and with a full one. -/
theorem test_met_hold_end_on_a_stuck_line :
    let s := fun n : Nat =>
      let h := holding true false
      { h with
        tracker :=
          { h.tracker with
            lines := { h.tracker.lines with aIn := { h.tracker.lines.aIn with stuck := true } }
            queue := List.replicate n ⟨.bIn, true, 0, some 0⟩ } }
    let t := fun n => after (.debounceHoldEnd 100 .aIn) (s n)
    (s 63).pins.strips.get .aIn = false ∧ ((s 63).tracker.lines.get .aIn).stuck = true
      ∧ (∀ n, n = 63 ∨ n = 64 → ((t n).tracker.lines.get .aIn).stuck = false ∧ (t n).tracker.queue.length = 64
        ∧ (t n).regs.cause &&& causeCondition = causeCondition)
      ∧ (t 63).tracker.overrun = false ∧ (t 64).tracker.overrun = true := by
  refine ⟨by decide +kernel, by decide +kernel, fun n h => ?_, by decide +kernel, by decide +kernel⟩
  rcases h with rfl | rfl <;> decide +kernel

/-- A_OUT pressed since clock 0, at a clock. -/
def pressedTo (clock : W32) : State := { striped true false 0 none with clock := clock }

theorem test_met_HoldEndAndStuckStrip :
    (∀ a b : Bool, (holding a b).Ready
      ∧ (∀ k, k ≠ Line.aIn → ((holding a b).tracker.lines.get k).hold = none)
      ∧ ((holding a b).tracker.lines.get .aIn).hold = some ((holding a b).clock + 100)
      ∧ (holding a b).pins.strips.get .aIn = b ∧ ((holding a b).tracker.lines.get .aIn).pressed = a
      ∧ ((holding a b).tracker.lines.get .aIn).stuck = false ∧ (holding a b).tracker.queue.length < 64)
      ∧ idle.noHolds ∧ idle.Ready ∧ (pressedTo 600001).mem.wf = true
      ∧ (stopped (.stuck .aOut) (pressedTo 600001)).StoppedAt (.stuck .aOut) []
      ∧ (stopped (.stuck .aOut) (pressedTo 600000)).NotStoppedAt (.stuck .aOut)
      ∧ idle.tracker.traverse = none
      ∧ (striped false false 0 (some (oneTraverse none none none))).judgeContained = true
      ∧ (striped false false 0 (some (oneTraverse (some 1) none none))).judgeContained = false :=
  ⟨fun a b => ⟨⟨rfl, rfl⟩, fun k h => by cases k <;> first | rfl | exact absurd rfl h, rfl, rfl, rfl, rfl,
      by cases a <;> cases b <;> decide +kernel⟩,
    noHolds_of (by decide +kernel), idle_ready, by decide +kernel, stopped_of (by decide +kernel),
    short_of (by decide +kernel), by decide +kernel⟩

/-- A crossing open at each end since clock 0, at a clock. -/
def crossed (outer : Bool) (clock : W32) (tr : Option Traverse) : State :=
  { idle with
    clock := clock
    tracker := { idle.tracker with crossA := some ⟨outer, 0, 0⟩, crossB := some ⟨outer, 0, 0⟩, traverse := tr } }

/-- A bridge with a traverse. -/
def bridge (tr : Traverse) : State := striped false false 0 (some tr)

theorem test_met_WindowEndsAndAbandonedCrossings :
    (stopped .windowEnd (bridge (oneTraverse (some 0) none none))).StoppedAt .windowEnd []
      ∧ (stopped .windowEnd (bridge (oneTraverse (some 1) none none))).NotStoppedAt .windowEnd
      ∧ (∀ side, (stopped (.crossing side) (crossed true 90001 none)).StoppedAt (.crossing side) [])
      ∧ (∀ side, (stopped (.crossing side) (crossed false 90001 (some (oneTraverse none none none)))).StoppedAt
        (.crossing side) [])
      ∧ (∀ side, (stopped (.crossing side) (crossed true 90000 none)).NotStoppedAt (.crossing side))
      ∧ (bridge (oneTraverse none none none)).tracker.traverse = some (oneTraverse none none none)
      ∧ (oneTraverse none none none).closing = none ∧ (oneTraverse none (some 3) none).closing = some 3
      ∧ (oneTraverse none none none).axles.length < 32
      ∧ 32 ≤ ({ oneTraverse none none none with axles := List.replicate 32 (oneAxle none) } : Traverse).axles.length
      ∧ (oneTraverse none none none).reasons.secondVehicle = false :=
  ⟨stopped_of (by decide +kernel), short_of (by decide +kernel),
    fun side => stopped_of (by cases side <;> decide +kernel), fun side => stopped_of (by cases side <;> decide +kernel),
    fun side => short_of (by cases side <;> decide +kernel), by decide +kernel⟩

/-- A second axle of 12,000 mm stays with the vehicle, and one beyond the gap is a second vehicle (500 mm/s, R68). -/
theorem test_next_axle_judges_the_gap :
    let entry := fun stamp : W32 => ({ bridgeEnd := .a, entry := true, stamp := stamp, value := 9, ticks := 10000 } : Closed)
    let s := bridge (oneTraverse none none none)
    let next := fun stamp => (s.handleCrossing (entry stamp)).tracker.traverse.map fun t =>
      (t.axles.length, t.axlesOn, t.reasons.secondVehicle)
    next 240000 = some (2, 2, false) ∧ next 240020 = some (2, 2, true)
      ∧ ((s.handleCrossing { entry 0 with bridgeEnd := .b }).tracker.traverse.map fun t => t.reasons.secondVehicle)
        = some true
      ∧ ((s.handleCrossing { entry 0 with bridgeEnd := .b, entry := false }).tracker.traverse.map fun t => t.closing)
        = some (some 0) := by decide +kernel

/-- The pieces of the tracker's work on a closing traverse, an active one and an empty bridge (R63). -/
theorem test_met_tracker_pieces :
    let closing := bridge (oneTraverse (some 2) (some 3) none)
    let active := bridge (oneTraverse (some 2) none none)
    closing.tracker.traverse = some (oneTraverse (some 2) (some 3) none) ∧ idle.tracker.traverse = none
      ∧ (closing.doPiece .consumeEdges).tracker.traverse = some (oneTraverse (some 2) (some 4) none)
      ∧ (closing.doPiece .countWindows).tracker.traverse = some (oneTraverse (some 1) (some 3) none)
      ∧ (closing.doPiece .publishTrack).tracker.report = ⟨.closing, 0, 1, false⟩
      ∧ (active.doPiece .publishTrack).tracker.report = ⟨.active, 0, 1, false⟩
      ∧ (idle.doPiece .publishTrack).tracker.report = ⟨.empty, 0, 0, false⟩
      ∧ ((active.handleCrossing ⟨.b, false, 0, 9, 10000⟩).tracker.traverse.map fun t => t.axles.map (·.window))
        = some [none] := by decide +kernel

theorem test_met_ClosingTimeoutReportsTheTraverse :
    (bridge (oneTraverse none (some 2000) (some 9))).mem.wf = true
      ∧ (stopped .closing (bridge (oneTraverse none (some 2000) (some 9)))).StoppedAt .closing []
      ∧ (stopped .closing (bridge (oneTraverse none (some 2000) none))).StoppedAt .closing []
      ∧ (stopped .closing (bridge (oneTraverse none (some 1999) none))).NotStoppedAt .closing
      ∧ (oneTraverse none (some 2000) (some 9)).binding = some 9 ∧ (oneTraverse none (some 2000) none).binding = none
      ∧ idle.placeOf 9 = none
      ∧ ((oneTraverse none none none).report 2500 20000).quality = .rollingOnly
      ∧ ((oneTraverse none none none).report 2500 20000).verdict = .nonCompliant :=
  ⟨by decide +kernel, stopped_of (by decide +kernel), stopped_of (by decide +kernel), short_of (by decide +kernel),
    by decide +kernel⟩

/-- A bridge with that traverse, its snapshot showing a gross, still or not. -/
def resting (gross : Int) (motion : Bool) (tr : Traverse) : State :=
  { bridge tr with
    monitor :=
      { (bridge tr).monitor with
        snapshot :=
          { (bridge tr).monitor.snapshot with gross := gross, flags := { DeckFlags.none with motion := motion } } } }

/-- A closing traverse is reported early within 20e of a still bridge, and not beyond it (R76). -/
theorem test_met_early_closing :
    let closing := oneTraverse none (some 3) none
    closing.closing = some 3 ∧ (resting 400000 false closing).tracker.traverse = some closing
      ∧ ((resting 400000 false closing).doPiece .judgeClosing).tracker.traverse = none
      ∧ ((resting 400001 false closing).doPiece .judgeClosing).tracker.traverse = some closing
      ∧ ((resting 0 true closing).doPiece .judgeClosing).tracker.traverse = some closing
      ∧ ((resting 0 false (oneTraverse none none none)).doPiece .judgeClosing).tracker.traverse.isSome = true := by
  decide +kernel

/-- Axles with spacings, grouped at a gap of 1,300 mm (R80). -/
theorem test_met_grouping :
    let at' := fun x : Spacing => { oneAxle none with spacing := x }
    let sizes := fun xs : List Spacing => (groupAxles 1300 (xs.map at')).map (·.length)
    sizes [.first, .mm 1300, .mm 1301, .unknown, .mm 0] = [2, 1, 2] ∧ sizes [.unknown] = [1] ∧ sizes [] = []
      ∧ (let many := { oneTraverse none none none with axles := List.replicate 13 (oneAxle none) }
        (groupAxles 1300 many.axles).length = 13 ∧ (many.report 1300 20000).reasons.edgeOverrun = true
          ∧ (many.report 1300 20000).groups.length = 12)
      ∧ (let long := { oneTraverse none none none with axles := (List.replicate 5 (Spacing.mm 9)).map at' }
        (long.report 1300 20000).reasons.overlong = true ∧ (long.report 1300 20000).groups.map (·.axles) = [5]) := by
  decide +kernel

theorem test_met_StaticComparisonFixesTheGross :
    (oneTraverse none none none).static = none
      ∧ ({ oneTraverse none none none with static := some 200000 } : Traverse).static = some 200000
      ∧ (((0 - 200000 : Int).natAbs : Int) ≤ max (roundDiv (2 * ((200000 : Int).natAbs : Int)) 100) (10 * 20000))
      ∧ max (roundDiv (2 * ((200001 : Int).natAbs : Int)) 100) (10 * 20000) < (((0 - 200001 : Int).natAbs : Int)) := by
  decide +kernel

theorem test_met_GroupsAreJudgedByTheirThreshold :
    (judgeGroup manufactureClass 20000 true [oneAxle none]).kind = .single
      ∧ (judgeGroup manufactureClass 20000 true (List.replicate 2 (oneAxle none))).kind = .tandem
      ∧ (judgeGroup manufactureClass 20000 true (List.replicate 3 (oneAxle none))).kind = .tri
      ∧ (judgeGroup manufactureClass 20000 true (List.replicate 4 (oneAxle none))).kind = .quad
      ∧ (judgeGroup manufactureClass 20000 true (List.replicate 5 (oneAxle none))).kind = .overlong
      ∧ (oneTraverse none none none).classEntry = manufactureClass := by decide +kernel

theorem test_met_MarkingACauseTurnsTheHeadsRed :
    Lane.start.causes.any = false ∧ (Lane.start.mark .capture).causes.any = true ∧ idle.power = .on
      ∧ ((Lane.start.mark .capture).causes.put .capture false).any = false ∧ idle.lane.redWhileMarked :=
  ⟨by decide, by decide, rfl, by decide, fun c => absurd c (by decide)⟩

/-- The lane signals with a pattern applied, a toggle count and a burst. -/
def sounding (pattern : HornPattern) (half toggle : Nat) (burst : Option Nat) : State :=
  { idle with
    lane := { Lane.start with horn := ⟨pattern, 500⟩, sounding := true, half := half, toggle := toggle, burst := burst } }

theorem test_met_HornToggleAndBurstEnd :
    (stopped .toggle (sounding .pulse 50 0 none)).StoppedAt .toggle []
      ∧ (stopped .toggle (sounding .pulse 50 1 none)).NotStoppedAt .toggle
      ∧ (stopped .toggle (sounding .pulse 50 0 (some 0))).NotStoppedAt .toggle
      ∧ (∀ p, (stopped .burstEnd (sounding p 50 0 (some 0))).StoppedAt .burstEnd [])
      ∧ (stopped .burstEnd (sounding .off 50 0 (some 1))).NotStoppedAt .burstEnd
      ∧ (∀ p, (sounding p 50 0 (some 0)).lane.horn.pattern = p) :=
  ⟨stopped_of (by decide +kernel), short_of (by decide +kernel), short_of (by decide +kernel),
    fun _ => stopped_of ⟨rfl, rfl⟩, short_of (by decide +kernel), fun _ => rfl⟩

/-- A seal line, and a session state. -/
def sealAs (level : SealLevel) (settled : Bool) (st : SessionState) : State :=
  { idle with
    sealLine := ⟨level, settled⟩
    session := { idle.session with state := st, staged := if st = .closed then none else some manufactureSet } }

theorem test_met_SealSamplesFixAndChangeTheSeal :
    (sealAs .sealed false .closed).mem.wf = true ∧ (∀ level b st, (sealAs level b st).Ready)
      ∧ (sealAs .sealed false .closed).sealLine.settled = false
      ∧ (sealAs .sealed true .closed).sealLine.settled = true ∧ (sealAs .sealed true .closed).sealLine.state ≠ .opened
      ∧ (sealAs .opened true .closed).sealLine.state ≠ .sealed ∧ (sealAs .opened true .closed).session.state ≠ .opened
      ∧ (sealAs .opened true .opened).session.state = .opened
      ∧ (sealAs .opened true .opened).sealLine.state = .opened :=
  ⟨by decide +kernel, fun _ _ _ => ⟨rfl, rfl⟩, by decide +kernel⟩

/-- An initial OPEN seal is audited once and noticed by nothing: its prompt record publishes its page. -/
theorem test_initial_open_seal_raises_journal_alone :
    let t := after (.sealInitial .opened) idle
    t.audit.entries.map (·.kind) = [.sealOpened] ∧ t.regs.cause = causeJournal ∧ t.sealLine = ⟨.opened, true⟩ := by decide +kernel

/-! The host's bus. -/

/-- A slot in a state. -/
def slotAs (k : SlotId) (st : W16) : State :=
  { idle with mem := writeWords idle.mem [(slotBase k, st)] }

theorem test_met_SlotStateWordTransitions :
    (∀ st, (slotAs 15 st).Ready)
      ∧ ([slotEmpty, slotPosted, slotTaken, slotWithdraw, slotAnswered].all fun st =>
        (slotAs 15 st).mem.wf && decide ((slotAs 15 st).slotState 15 = st)) = true :=
  ⟨fun _ => ⟨rfl, rfl⟩, by decide +kernel⟩

theorem test_met_TheRestOfASlotIsWrittenWhileEmpty :
    2 * (0x2FF : WordAddr).toNat = slotBase 3 + 126 ∧ 2 * (0x2C1 : WordAddr).toNat = slotBase 3 + 2
      ∧ 2 * (0x2DF : WordAddr).toNat = slotBase 3 + 62 ∧ 2 * (0x2E0 : WordAddr).toNat = slotBase 3 + 64
      ∧ (slotAs 3 slotEmpty).Ready ∧ (slotAs 3 slotEmpty).slotState 3 = slotEmpty
      ∧ (slotAs 3 slotTaken).slotState 3 ≠ slotEmpty ∧ (slotAs 3 slotTaken).mem.wf = true
      ∧ exec (.hostMemoryWrite 0x2C1 9) (slotAs 3 slotTaken)
        = .next (after (.hostMemoryWrite 0x2C1 9) (slotAs 3 slotTaken)) :=
  ⟨by decide, by decide, by decide, by decide, ready_of (by decide +kernel), by decide +kernel, by decide +kernel,
    by decide +kernel, rfl⟩

/-- Page 7 PUBLISHED, and the journal blocked on it or not. -/
def pageAs (blocked : Bool) : State :=
  { idle with
    mem := writeWords idle.mem [(pageBase 7, pagePublished)]
    journal := { idle.journal with current := none, nextFill := 7, blocked := blocked } }

theorem test_met_HostWritesOutsideTheSlots :
    idle.Ready ∧ 2 * (0x1FF : WordAddr).toNat < 0x400 ∧ 0xC00 ≤ 2 * (0x600 : WordAddr).toNat
      ∧ 2 * (0xDFF : WordAddr).toNat < 0x1C00 ∧ idle.intake.claim = none
      ∧ ({ idle with intake := { idle.intake with claim := some 2 } } : State).intake.claim ≠ none
      ∧ 2 * (0xE00 : WordAddr).toNat = pageBase 0 + 0 ∧ 2 * (0x3FFF : WordAddr).toNat = pageBase 99 + 254
      ∧ idle.pageState 0 ≠ pagePublished ∧ (pageAs false).pageState 7 = pagePublished
      ∧ ¬((pageAs false).journal.blocked = true ∧ (pageAs false).journal.nextFill = 7)
      ∧ (pageAs true).pageState 7 = pagePublished ∧ (pageAs true).mem.wf = true
      ∧ (pageAs true).journal.blocked = true ∧ (pageAs true).journal.nextFill = 7 ∧ (pageAs true).unfinished = [] :=
  ⟨idle_ready, by decide +kernel⟩

theorem test_met_RegisterWritesAndAttention :
    idle.Ready ∧ idle.regs.restart = false
      ∧ ({ idle with regs := { idle.regs with restart := true } } : State).regs.restart = true :=
  ⟨idle_ready, by decide +kernel⟩

/-! The orders. -/

theorem posted_of {s : State} {k : SlotId} {kind : OrderKind}
    (h : s.mem.wf = true ∧ s.power = .on ∧ s.unfinished = [] ∧ s.regs.run = true ∧ s.slotState k = slotPosted
      ∧ OrderKind.ofCode (s.slotKind k) = some kind) : s.Posted k kind :=
  ⟨h.1, h.2.1, h.2.2.1, h.2.2.2.1, h.2.2.2.2.1, h.2.2.2.2.2⟩

theorem test_met_TakingAnOrder :
    ¬(idle.regs.run = true ∧ idle.slotState 0 = slotPosted ∧ OrderKind.ofCode (idle.slotKind 0) = some .zero)
      ∧ (posting 0 3 [] idle).Posted 0 .zero ∧ (posting 0 3 [] idle).badOrderParam 0 .zero = some 0
      ∧ (posting 15 8 [] { idle with intake := { idle.intake with claim := some 2 } }).Posted 15 .readSite
      ∧ OrderKind.readSite.claimsStaging = true
      ∧ (posting 15 8 [] { idle with intake := { idle.intake with claim := some 2 } }).intake.claim ≠ none
      ∧ (posting 4 26 [] idle).mem.wf = true ∧ OrderKind.ofCode ((posting 4 26 [] idle).slotKind 4) = none
      ∧ idle.regs.run = false :=
  ⟨by decide +kernel, posted_of (by decide +kernel), by decide +kernel, posted_of (by decide +kernel), rfl,
    by decide +kernel, by decide +kernel, by decide +kernel, rfl⟩

/-- A vehicle reference, as the six words of an order body, and its bytes. -/
def plateWords : List (Nat × W16) :=
  [(0, 0x4241), (2, 0x3231), (4, 0x2020), (6, 0x2020), (8, 0x2020), (10, 0x2020)]

def plate : List Byte :=
  [0x41, 0x42, 0x31, 0x32, 0x20, 0x20, 0x20, 0x20, 0x20, 0x20, 0x20, 0x20]

/-- A slot in a state, with a withdrawal of its order handed or not. -/
def withdrawing (handed : Bool) : State :=
  { slotAs 3 slotWithdraw with
    intake := { idle.intake with flight := [⟨3, .firstWeigh, .captureUnit, handed⟩] }
    regs := { idle.regs with run := true } }

/-- A sweep from position 14 takes slot 15 before slot 0, and examines a slot in each of its states. -/
theorem test_met_sweep :
    (posting 15 8 [] idle).regs.run = true ∧ (rotation 14)[0]? = some 15 ∧ (rotation 14)[15]? = some 14
      ∧ (rotation 15).foldl examineSlot (withdrawing true, none) = (withdrawing true, none)
      ∧ ((rotation 14).foldl examineSlot (posting 15 8 [] idle, none)).2 = some 15
      ∧ (posting 15 8 [] idle).slotState 15 = slotPosted ∧ (withdrawing true).slotState 3 = slotWithdraw
      ∧ (withdrawing false).flightOf 3 = some ⟨3, .firstWeigh, .captureUnit, false⟩
      ∧ (withdrawing true).flightOf 3 = some ⟨3, .firstWeigh, .captureUnit, true⟩
      ∧ (withdrawing true).flightOf 4 = none := by decide +kernel

theorem test_bad_parameters :
    (posting 0 2 [(0, 24)] idle).badOrderParam 0 .clearCell = some 0
      ∧ (posting 0 2 [(0, 23)] idle).badOrderParam 0 .clearCell = none
      ∧ (posting 0 6 [(4, 2), (6, 99)] idle).badOrderParam 0 .setSignals = some 3
      ∧ (posting 0 6 [(4, 2), (6, 2000)] idle).badOrderParam 0 .setSignals = none
      ∧ (posting 0 10 (plateWords ++ [(16, 1)]) idle).badOrderParam 0 .firstWeigh = none
      ∧ (posting 0 10 (plateWords ++ [(16, 2)]) idle).badOrderParam 0 .firstWeigh ≠ none
      ∧ (posting 0 10 [(0, 0x4120)] idle).badOrderParam 0 .firstWeigh = some 0 := by decide +kernel

/-- The first parameter out of range gives the number, whatever follows it (R107). -/
theorem test_first_bad_parameter :
    (posting 0 6 [(0, 3), (2, 3)] idle).badOrderParam 0 .setSignals = some 0
      ∧ (posting 0 6 [(0, 2), (2, 3), (4, 3)] idle).badOrderParam 0 .setSignals = some 1
      ∧ (posting 0 6 [(4, 3), (6, 0)] idle).badOrderParam 0 .setSignals = some 2
      ∧ (posting 0 6 [(4, 2), (6, 2001)] idle).badOrderParam 0 .setSignals = some 3
      ∧ (posting 0 10 (plateWords ++ [(16, 2)]) idle).badOrderParam 0 .firstWeigh = some 2
      ∧ (posting 0 10 (plateWords ++ [(16, 2)]) idle).badOrderParam 0 .secondWeigh = none
      ∧ (posting 0 11 [(0, 0x4120)] idle).badOrderParam 0 .secondWeigh ≠ none
      ∧ (posting 0 19 [(0, 4)] idle).badOrderParam 0 .spanCal = some 1
      ∧ (posting 0 20 [(0, 4)] idle).badOrderParam 0 .cornerRead = some 0
      ∧ (posting 0 13 [(0, 0x4120)] idle).badOrderParam 0 .findVisit = none
      ∧ (posting 0 19 [(0, 3), (2, 0x423F), (4, 15)] idle).badOrderParam 0 .spanCal = some 1
      ∧ (posting 0 19 [(0, 3), (2, 0xC201), (4, 3051)] idle).badOrderParam 0 .spanCal = some 1
      ∧ (posting 0 20 [(0, 3), (2, 24)] idle).badOrderParam 0 .cornerRead = some 1
      ∧ (posting 0 21 [(0, 16)] idle).badOrderParam 0 .testLoad = some 0
      ∧ (posting 0 18 [(0, 16)] idle).badOrderParam 0 .zeroCal ≠ none
      ∧ (posting 0 21 [(0, 15), (4, 0x8000)] idle).badOrderParam 0 .testLoad = some 1
      ∧ (posting 0 21 [(0, 15), (2, 0x0801), (4, 12207)] idle).badOrderParam 0 .testLoad = some 1
      ∧ (posting 0 21 [(0, 15), (6, 3)] idle).badOrderParam 0 .testLoad = some 2
      ∧ (posting 0 25 [] idle).badOrderParam 0 .readAudit = some 1
      ∧ (posting 0 25 [(4, 17)] idle).badOrderParam 0 .readAudit = some 1 := by decide +kernel

/-- A part that can ZERO deck D0: no flag stands, and the snapshot shows a corrected mass. -/
def zeroable (corrected : Int) (unset : Bool) : State :=
  { fitted .active with
    monitor :=
      { Monitor.start fittedSet false with
        decks :=
          { (Monitor.start fittedSet false).decks with
            d0 := { (Monitor.start fittedSet false).decks.d0 with flags := { DeckFlags.none with zeroUnset := unset } } }
        snapshot :=
          { (Monitor.start fittedSet false).snapshot with
            decks :=
              { (Monitor.start fittedSet false).snapshot.decks with
                d0 := { DeckSnapshot.start DeckFlags.none with corrected := corrected } } } } }

theorem test_met_SetSignalsArmClassAndZero :
    (posting 0 6 [(0, 1)] idle).Posted 0 .setSignals ∧ (posting 0 6 [(0, 1)] idle).badOrderParam 0 .setSignals = none
      ∧ (posting 1 4 [(0, 15)] idle).Posted 1 .armClass ∧ (posting 1 4 [(0, 15)] idle).badOrderParam 1 .armClass = none
      ∧ (posting 1 4 [(0, 15)] idle).tracker.traverse = none
      ∧ (posting 1 4 [(0, 15)] (striped false false 0 (some (oneTraverse none none none)))).tracker.traverse ≠ none
      ∧ (posting 2 3 [(0, 1)] (zeroable 1200000 false)).Posted 2 .zero
      ∧ (posting 2 3 [(0, 1)] (zeroable 1200000 false)).badOrderParam 2 .zero = none
      ∧ (∀ d ∈ maskDecks ((posting 2 3 [(0, 1)] (zeroable 1200000 false)).order16 2 0),
        zeroNotReady ((posting 2 3 [(0, 1)] (zeroable 1200000 false)).zeroFlags d) = false
          ∧ ((posting 2 3 [(0, 1)] (zeroable 1200000 false)).snapOf d).flags.motion = false
          ∧ (posting 2 3 [(0, 1)] (zeroable 1200000 false)).zeroInRange d = true)
      ∧ (posting 2 3 [(0, 1)] (zeroable 1200000 false)).capture = none
      ∧ (posting 2 3 [(0, 1)] (zeroable 1200000 false)).session.state = .closed
      ∧ (posting 2 3 [(0, 1)] (zeroable 1200000 false)).tracker.report.state = .empty
      ∧ (zeroable 6000000 true).zeroInRange 0 = true ∧ (zeroable 6000001 true).zeroInRange 0 = false
      ∧ (zeroable 1200001 false).zeroInRange 0 = false
      ∧ (sealAs .opened true .committing).session.state = .committing
      ∧ (sealAs .opened true .opened).session.state = .opened ∧ (sealAs .opened true .opened).capture = none :=
  ⟨posted_of (by decide +kernel), by decide +kernel, posted_of (by decide +kernel), by decide +kernel, rfl,
    by decide +kernel, posted_of (by decide +kernel), by decide +kernel, by decide +kernel, rfl, rfl, rfl,
    by decide +kernel, by decide +kernel, by decide +kernel, rfl, rfl, rfl⟩

/-- D0 and D1 enabled, with the flags and corrected masses that their snapshot shows. -/
def twoDecks (f g : DeckFlags) (m n : Int) : State :=
  let set := (fittedSet.put 1 2 1).put 4 1 1
  { idle with
    metro := ⟨set, 0, false⟩
    monitor :=
      { Monitor.start set false with
        decks :=
          { (Monitor.start set false).decks with
            d0 := ⟨DeckFlags.none, [], 0, 0, 0, .ended, false, false⟩
            d1 := ⟨DeckFlags.none, [], 0, 0, 0, .ended, false, false⟩ }
        snapshot :=
          { (Monitor.start set false).snapshot with
            decks :=
              { (Monitor.start set false).snapshot.decks with
                d0 := { DeckSnapshot.start f with corrected := m }, d1 := { DeckSnapshot.start g with corrected := n } } } } }

/-- The refusals of ZERO name the lowest deck that failed the step (R52). -/
theorem test_met_zero_refusals :
    let moving := { DeckFlags.none with motion := true }
    let filling := { DeckFlags.none with filling := true }
    let order := fun s : State => posting 2 3 [(0, 3)] s
    let answered := fun s : State =>
      let t := after (.zero 2) (order s)
      (t.mem.read16 (slotBase 2 + 6), t.mem.read16 (slotBase 2 + 0x40))
    (order (twoDecks moving filling 0 0)).badOrderParam 2 .zero = none
      ∧ maskDecks ((order (twoDecks moving filling 0 0)).order16 2 0) = [0, 1]
      ∧ answered (twoDecks moving filling 0 0) = (AnswerCode.notReady.code, 1)
      ∧ answered (twoDecks filling filling 0 0) = (AnswerCode.notReady.code, 0)
      ∧ answered (twoDecks DeckFlags.none moving 9000000 0) = (AnswerCode.notStill.code, 1)
      ∧ answered (twoDecks DeckFlags.none DeckFlags.none 1200000 1200001) = (AnswerCode.outOfRange.code, 1)
      ∧ answered (twoDecks DeckFlags.none DeckFlags.none 1200001 1200001) = (AnswerCode.outOfRange.code, 0)
      ∧ (order { zeroable 0 false with tracker := (bridge (oneTraverse none none none)).publishTrack.tracker }).tracker.report.state
        ≠ .empty := by decide +kernel

theorem test_met_ReadSiteCopiesTheSettings :
    (posting 5 8 [] idle).Posted 5 .readSite ∧ (posting 5 8 [] idle).intake.claim = none :=
  ⟨posted_of (by decide +kernel), rfl⟩

theorem test_read_site_shows_the_defaults :
    let t := after (.readSite 5) (posting 5 8 [] idle)
    t.slotState 5 = slotAnswered ∧ t.staging16 0 = 10 ∧ t.staging16 10 = 12000 ∧ t.staging16 20 = 0 := by
  decide +kernel

theorem test_met_ReadMetrologyCopiesTheActiveSet :
    (posting 5 24 [] idle).Posted 5 .readMetrology ∧ (posting 5 24 [] idle).intake.claim = none :=
  ⟨posted_of (by decide +kernel), rfl⟩

/-- The entry of that vehicle, in a status, with a summary or none. -/
def entryOf (summary : Option Summary) : VisitEntry :=
  { number := 9
    vehicle := plate
    lot := 3
    weight := 12000000
    time := 100
    epoch := 0
    bound := none
    summary := summary }

/-- A part that holds that entry in its last place. -/
def visited (status : VisitStatus) (summary : Option Summary) : State :=
  { idle with
    visits := { idle.visits with places := idle.visits.places.set 63 (some ⟨entryOf summary, status, none⟩) }
    time := { idle.time with isSet := true } }

theorem test_met_FindVisitAnswersFromTheHeldEntry :
    (∀ summary ∈ [none, some ⟨.compliant, .confirmed, []⟩],
      (posting 0 13 plateWords (visited .held summary)).Posted 0 .findVisit
        ∧ (posting 0 13 plateWords (visited .held summary)).visits.places[63]?
          = some (some ⟨entryOf summary, .held, none⟩)
        ∧ (posting 0 13 plateWords (visited .held summary)).heldPlace
          ((posting 0 13 plateWords (visited .held summary)).orderVehicle 0) = some 63
        ∧ (entryOf summary).vehicle = (posting 0 13 plateWords (visited .held summary)).orderVehicle 0)
      ∧ (∀ i, i < 64 → (posting 0 13 plateWords (visited .closing none)).place i = none ∨
        (posting 0 13 plateWords (visited .closing none)).place i = some ⟨entryOf none, .closing, none⟩) :=
  ⟨(fun summary h => by
    cases h with
    | head => exact ⟨posted_of (by decide +kernel), by decide +kernel, by decide +kernel, by decide +kernel⟩
    | tail _ h =>
      cases h with
      | head => exact ⟨posted_of (by decide +kernel), by decide +kernel, by decide +kernel, by decide +kernel⟩
      | tail _ h => exact absurd h List.not_mem_nil),
    by decide +kernel⟩

/-- A reference that no vehicle can have finds no entry (R134). -/
theorem test_find_visit_of_a_malformed_reference :
    (after (.findVisit 0) (posting 0 13 [(0, 0x4120)] idle)).mem.read16 (slotBase 0 + 6) = AnswerCode.noVisit.code := by
  decide +kernel

/-- The latch of the store set or clear. -/
def latched (b : Bool) (s : State) : State :=
  { s with store := { s.store with latch := b } }

/-- That entry with its first weighing 7,100 s ago at a whole hour, a maximum age of an hour and a pass that runs. -/
def ageing (status : VisitStatus) (time : W32) (pass : Option ExpiryPass) : State :=
  let s := visited status none
  { s with
    time := ⟨time, true, 0⟩
    site := { s.site with visitAge := 1 }
    visits := { s.visits with pass := pass } }

theorem test_met_EngineClock :
    let passing := ageing .removing 7200 (some ⟨1, [10], some 9⟩)
    (posting 0 9 [(0, 3600)] idle).Posted 0 .setClock ∧ idle.mem.wf = true
      ∧ (stopped .time { idle with time := ⟨3599, true, 200⟩ }).StoppedAt .time []
      ∧ (stopped .time { idle with time := ⟨3599, true, 199⟩ }).NotStoppedAt .time
      ∧ (ageing .held 7200 none).time.time.toNat % 3600 = 0 ∧ (ageing .held 7200 none).visits.pass = none
      ∧ (ageing .held 7200 none).site.visitAge ≠ 0 ∧ (ageing .held 7200 none).placeOf 10 = none
      ∧ (ageing .held 7200 none).placeOf 9 = some 63
      ∧ (ageing .held 7200 none).place 63 = some ⟨entryOf none, .held, none⟩
      ∧ ((ageing .held 3701 none).expiredEntries 1).map (·.number) = [9]
      ∧ (ageing .held 3700 none).expiredEntries 1 = [] ∧ (ageing .closing 3701 none).expiredEntries 1 = []
      ∧ passing.visits.pass = some ⟨1, [10], some 9⟩ ∧ passing.placeOf 9 = some 63
      ∧ passing.place 63 = some ⟨entryOf none, .removing, none⟩ ∧ (latched true passing).store.latch = true :=
  ⟨posted_of (by decide +kernel), by decide +kernel, stopped_of (by decide +kernel), short_of (by decide +kernel),
    by decide +kernel⟩

/-- The journal with a reservation and its delay counted, its only page empty or with its start-up record. -/
def journalAs (reservation : Option Reservation) (delay : Nat) (empty : Bool) : State :=
  { idle with
    mem := if empty then writeWords idle.mem [(pageBase 0 + 2, 0)] else idle.mem
    journal := { idle.journal with reservation := reservation, delay := delay } }

theorem test_met_PublishNowAndDelay :
    let reserved := journalAs (some ⟨.ticket, 228⟩) idle.site.publishDelay false
    (posting 0 15 [] idle).Posted 0 .publishNow ∧ (posting 0 15 [] idle).journal.current = some 0
      ∧ (posting 0 15 [] idle).pageCount 0 ≠ 0 ∧ (posting 0 15 [] idle).journal.reservation = none
      ∧ (0 : PageId) ≠ nextPage (posting 0 15 [] idle).journal.nextFill
      ∧ (posting 0 15 [] idle).journal.nextFill = 0 ∧ (posting 0 15 [] idle).pageState 1 ≠ pagePublished
      ∧ (posting 0 15 [] { idle with mem := writeWords idle.mem [(pageBase 1, pagePublished)] }).pageState 1
        = pagePublished
      ∧ (posting 0 15 [] reserved).Posted 0 .publishNow ∧ (posting 0 15 [] reserved).pageCount 0 ≠ 0
      ∧ (posting 0 15 [] reserved).journal.reservation ≠ none
      ∧ (posting 0 15 [] (journalAs none 0 true)).Posted 0 .publishNow
      ∧ (posting 0 15 [] (journalAs none 0 true)).pageCount 0 = 0
      ∧ (stopped .publishDelay reserved).StoppedAt .publishDelay []
      ∧ (stopped .publishDelay (journalAs none idle.site.publishDelay false)).StoppedAt .publishDelay []
      ∧ (stopped .publishDelay (journalAs none (idle.site.publishDelay - 1) false)).NotStoppedAt .publishDelay
      ∧ (stopped .publishDelay (journalAs none idle.site.publishDelay true)).NotStoppedAt .publishDelay :=
  ⟨posted_of (by decide +kernel), rfl, by decide +kernel, rfl, by decide, rfl, by decide +kernel, by decide +kernel,
    posted_of (by decide +kernel), by decide +kernel, by decide +kernel, posted_of (by decide +kernel),
    by decide +kernel, stopped_of (by decide +kernel), stopped_of (by decide +kernel), short_of (by decide +kernel),
    short_of (by decide +kernel)⟩

/-- A page with some bytes used, a journal blocked or owing a SUMMARY, and some CONDITION records in the outbox. -/
def filling (used : W16) (blocked owed : Bool) (n : Nat) : State :=
  { idle with
    mem := writeWords idle.mem [(pageBase 0 + 8, used)]
    journal :=
      { idle.journal with
        blocked := blocked
        owed := owed
        outbox := List.replicate n (conditionRecord .link 0 0 0 []) } }

/-- The journal with room reserved beside its start-up record. -/
def reservedFor (n : Nat) : State :=
  journalAs (some ⟨.ticket, n⟩) 0 false

/-- A record is placed where it just fits, goes to the next page one byte later, and the outbox takes 16 of any kind
and 24 with AUDIT records. -/
theorem test_met_journal_records :
    let r := conditionRecord .link 0 0 0 []
    let a := auditRecord ⟨1, 0, 0, false, .linkLost, []⟩ false
    let left := BitVec.ofNat 16 (240 - r.length)
    (filling left false false 0).pageLeft 0 = r.length ∧ (filling (left + 1) false false 0).pageLeft 0 < r.length
      ∧ (filling left false false 0).journal.holding = false ∧ (filling left false false 0).journal.reservation = none
      ∧ (filling (left + 1) false false 0).publish.journal.current = some 1
      ∧ (reservedFor 228).journal.reservation = some ⟨.ticket, 228⟩ ∧ (reservedFor 228).pageLeft 0 < r.length + 228
      ∧ r.length + 4 ≤ (reservedFor 4).pageLeft 0
      ∧ ((filling 0 true false 15).queueRecord r).journal.outbox.length = 16
      ∧ ((filling 0 true false 16).queueRecord r).journal.owed = true
      ∧ ((filling 0 true false 16).queueRecord r).journal.notes.notices = 1
      ∧ ((filling 0 true false 23).queueRecord a).journal.outbox.length = 24
      ∧ ((filling 0 true false 24).queueRecord a).journal.notes.audits = 1
      ∧ (filling 4 false true 1).drain.journal.outbox = [] ∧ (filling 4 false true 1).drain.journal.owed = false
      ∧ (filling 4 false true 1).drain.pageCount 0 = idle.pageCount 0 + 2 := by decide +kernel

/-- A TICKET record. -/
def oneTicketRecord : Record :=
  (formTicket 1 (entryOf none) 30000000 200 0 20000).record

/-- Room reserved, with the publication of the page due or not: what the reservation's end leaves (R159). -/
theorem test_met_reservations_end :
    let due := { reservedFor 228 with journal := { (reservedFor 228).journal with due := true } }
    due.journal.current = some 0 ∧ due.journal.due = true ∧ due.pageCount 0 ≠ 0 ∧ (reservedFor 228).journal.due = false
      ∧ due.releaseReservation.pageState 0 = pagePublished
      ∧ (reservedFor 228).releaseReservation.pageState 0 = idle.pageState 0
      ∧ (reservedFor 228).releaseReservation.journal.reservation = none
      ∧ ((reservedFor 228).placeReserved oneTicketRecord).pageState 0 = pagePublished
      ∧ ((reservedFor 228).placeReserved oneTicketRecord).pageCount 0 = idle.pageCount 0 + 1 := by decide +kernel

theorem test_met_ClearLinkAndClearCell :
    (∀ st : LinkState, (posting 0 1 [] (linked st 5 idle)).Posted 0 .clearLink
      ∧ (posting 0 1 [] (linked st 5 idle)).link.state = st)
      ∧ ∀ st : CellState, (posting 0 2 [(0, 3)] (cellAs st 0 0)).Posted 0 .clearCell
        ∧ (posting 0 2 [(0, 3)] (cellAs st 0 0)).badOrderParam 0 .clearCell = none
        ∧ ((posting 0 2 [(0, 3)] (cellAs st 0 0)).cell
          (Fin.ofNat 24 ((posting 0 2 [(0, 3)] (cellAs st 0 0)).order16 0 0).toNat)).state = st :=
  ⟨fun st => by cases st <;> exact ⟨posted_of (by decide +kernel), rfl⟩, fun st => by
    cases st <;> exact ⟨posted_of (by decide +kernel), by decide +kernel, by decide +kernel⟩⟩

/-- Sixteen classes of eight spaces in the staging area. -/
def classImage : List (Nat × W16) :=
  (List.range 16).flatMap fun c => (List.range 4).map fun j => (stagingBase + 64 * c + 2 * j, (0x2020 : W16))

/-- The default site settings in the staging area. -/
def siteImage : List (Nat × W16) :=
  (List.range 11).map fun n => (stagingBase + 2 * n, field16 (defaultSite.fields.getD n 0))

/-- A part with words in its exchange memory. -/
def holdingWords (ws : List (Nat × W16)) (s : State) : State :=
  { s with mem := writeWords s.mem ws }

theorem test_met_OrdersThatRequestAJob :
    (posting 0 5 [] (holdingWords classImage idle)).Posted 0 .loadClasses
      ∧ firstBadField 0 (posting 0 5 [] (holdingWords classImage idle)).imageClasses = none
      ∧ firstBadField 0 (posting 0 5 [] idle).imageClasses = some 0
      ∧ (posting 0 5 [] idle).intake.claim = none ∧ (posting 0 5 [] idle).store.latch = false
      ∧ (posting 0 5 [] (latched true idle)).store.latch = true
      ∧ (posting 0 7 [] (holdingWords siteImage idle)).Posted 0 .setSite
      ∧ (posting 0 7 [] (holdingWords siteImage idle)).imageSite.badField = none
      ∧ (posting 0 7 [] idle).imageSite.badField = some 0
      ∧ (posting 0 12 plateWords (visited .held none)).Posted 0 .voidVisit
      ∧ (posting 0 12 plateWords (visited .held none)).badOrderParam 0 .voidVisit = none
      ∧ (posting 0 12 plateWords (visited .held none)).heldPlace
        ((posting 0 12 plateWords (visited .held none)).orderVehicle 0) = some 63
      ∧ (posting 0 12 plateWords (visited .held none)).place 63 = some ⟨entryOf none, .held, none⟩
      ∧ (posting 0 12 plateWords (visited .held none)).visits.mark ≠ some 9
      ∧ (posting 0 12 plateWords idle).heldPlace ((posting 0 12 plateWords idle).orderVehicle 0) = none :=
  ⟨posted_of (by decide +kernel), by decide +kernel, by decide +kernel, rfl, rfl, rfl, posted_of (by decide +kernel),
    by decide +kernel, by decide +kernel, posted_of (by decide +kernel), by decide +kernel, by decide +kernel,
    by decide +kernel, by decide +kernel, by decide +kernel⟩

/-- The fields of a class at the ends of their ranges and beyond them (R81, R82). -/
theorem test_met_class_ranges :
    let c : ClassEntry := ⟨plate.take 8, 1, 2, 3, 4, 5, 1000000000, 100⟩
    let named := fun b : Byte => { c with name := plate.take 7 ++ [b] }
    c.badField = none ∧ (named 0x7E).badField = none ∧ (named 0x7F).badField = some 0 ∧ (named 0x1F).badField = some 0
      ∧ { c with steer := 1000000001, tolerance := 101 }.badField = some 1
      ∧ { c with gross := 1000000001, tolerance := 101 }.badField = some 6 ∧ { c with tolerance := 101 }.badField = some 7
      ∧ firstBadField 0 (List.replicate 15 c ++ [{ c with tolerance := 101 }]) = some 127
      ∧ firstBadField 0 (List.replicate 16 c) = none := by decide +kernel

/-- The site settings at the ends of their ranges and beyond them (section 6.6). -/
theorem test_met_site_ranges :
    let least := siteOf fun n => [2, 200, 300, 2, 1000, 6000, 0, 1, 1, 1, 0].getD n 0
    let greatest := siteOf fun n => [50, 1000, 2000, 10, 3000, 20000, 1, 120, 1000, 100, 720].getD n 0
    least.badField = none ∧ greatest.badField = none ∧ { greatest with debounce := 51, visitAge := 721 }.badField = some 0
      ∧ { greatest with policy := 2 }.badField = some 6 ∧ { greatest with visitAge := 721 }.badField = some 10
      ∧ { least with captureTimeout := 0, publishDelay := 0 }.badField = some 7 := by decide +kernel

/-- A ticket from the entry above, and a part that holds its copy. -/
def oneTicket : Ticket := formTicket 1 (entryOf none) 30000000 200 0 20000

def ticketed (recalls : List W32) (outbox : List Record) (used : W16) (next : W16) : State :=
  { idle with
    tickets := { idle.tickets with places := idle.tickets.places.set 2 (.held ⟨oneTicket, 65535⟩), recalls := recalls }
    mem := writeWords idle.mem [(pageBase 0 + 8, used), (pageBase 1, next)]
    journal := { idle.journal with outbox := outbox } }

/-- Three audit entries. -/
def audited (outbox : List Record) : State :=
  { idle with
    audit :=
      { entries :=
          [⟨1, 0, 0, false, .linkLost, []⟩, ⟨2, 0, 0, false, .sealOpened, []⟩, ⟨3, 0, 0, false, .sealClosed, []⟩]
        last := 3
        mark := 4
        busy := false }
    journal := { idle.journal with outbox := outbox } }

theorem test_met_RecallTicketAndReadAudit :
    (posting 0 14 [(0, 1)] (ticketed [] [] 4 pageFree)).Posted 0 .recallTicket
      ∧ (posting 0 14 [(0, 1)] (ticketed [] [] 4 pageFree)).copyPlace 1 = some 2
      ∧ (posting 0 14 [(0, 1)] (ticketed [] [] 4 pageFree)).order32 0 0 = 1
      ∧ (posting 0 14 [(0, 1)] (ticketed [] [] 4 pageFree)).ticketPlace 2 = .held ⟨oneTicket, 65535⟩
      ∧ (posting 0 14 [(0, 1)] (ticketed [] [] 4 pageFree)).journal.current = some 0
      ∧ (posting 0 14 [(0, 1)] (ticketed [] [] 4 pageFree)).pageLeft 0 = 236
      ∧ (∀ next ∈ [pageFree, pageReturned], (posting 0 14 [(0, 1)] (ticketed [] [] 5 next)).Posted 0 .recallTicket
        ∧ (posting 0 14 [(0, 1)] (ticketed [] [] 5 next)).pageLeft 0 = 235
        ∧ (posting 0 14 [(0, 1)] (ticketed [] [] 5 next)).pageState (nextPage 0) = next
        ∧ (0 : PageId) ≠ nextPage (ticketed [] [] 5 next).journal.nextFill)
      ∧ (ticketed [] [] 5 pagePublished).pageState (nextPage 0) = pagePublished
      ∧ (1 : W32) ∉ (ticketed [] [] 4 pageFree).tickets.recalls ∧ (1 : W32) ∈ (ticketed [1] [] 4 pageFree).tickets.recalls
      ∧ ¬((ticketed [] [conditionRecord .link 0 0 0 []] 4 pageFree).journal.outbox = [])
      ∧ (posting 0 14 [(0, 2)] (ticketed [] [] 4 pageFree)).copyPlace 2 = none ∧ (latched true idle).store.latch = true
      ∧ (posting 0 25 [(0, 2), (4, 16)] (audited [])).Posted 0 .readAudit
      ∧ (posting 0 25 [(0, 2), (4, 16)] (audited [])).badOrderParam 0 .readAudit = none
      ∧ (∃ e ∈ (audited []).audit.entries, e.serial = 2) ∧ (audited []).journal.reservation = none
      ∧ (audited [conditionRecord .link 0 0 0 []]).journal.outbox ≠ []
      ∧ (∀ e ∈ (audited []).audit.entries, e.serial ≠ 4) :=
  ⟨posted_of (by decide +kernel), by decide +kernel, by decide +kernel, by decide +kernel, rfl, by decide +kernel,
    (fun next h => by
      rcases List.mem_cons.mp h with h | h
      · subst h
        exact ⟨posted_of (by decide +kernel), by decide +kernel⟩
      · cases List.mem_singleton.mp h
        exact ⟨posted_of (by decide +kernel), by decide +kernel⟩),
    by decide +kernel, by decide, by decide, by decide +kernel, by decide +kernel, rfl, posted_of (by decide +kernel),
    by decide +kernel, by decide +kernel, rfl, by decide +kernel, by decide +kernel⟩

/-! Captures. -/

/-- A part whose snapshot and occupancy report make the platform ready or not, with a platform legal value. -/
def weighable (ready : Bool) (legal : Int) (s : State) : State :=
  { s with
    time := { s.time with isSet := true }
    tracker := { s.tracker with report := { s.tracker.report with contained := true } }
    monitor :=
      { s.monitor with
        snapshot :=
          { s.monitor.snapshot with
            legal := legal
            flags := if ready then DeckFlags.none else { DeckFlags.none with motion := true } } } }

/-- A part whose visit table is full of one vehicle. -/
def fullOf (vehicle : List Byte) : State :=
  { idle with
    visits := { idle.visits with places := List.replicate 64 (some ⟨{ entryOf none with vehicle := vehicle }, .held, none⟩) } }

/-- The current page with few bytes used. -/
def roomy (s : State) : State :=
  holdingWords [(pageBase 0 + 8, 4)] s

/-- A capture that waits, with no time left. -/
def lateCapture (missed : Option Unmet) : Capture :=
  { storing := false
    first := true
    slot := 2
    vehicle := plate
    lot := 0
    bind := false
    remaining := 0
    value := none
    time := none
    epoch := none
    e := none
    visit := some 9
    bound := none
    reserved := false
    takenAt := 0
    missed := missed }

def capturing (missed : Option Unmet) : State :=
  { idle with
    capture := some (lateCapture missed)
    intake := { idle.intake with flight := [⟨2, .firstWeigh, .captureUnit, false⟩] } }

theorem test_met_WeighOrdersBeginACapture :
    (posting 0 10 plateWords (weighable false 0 idle)).Posted 0 .firstWeigh
      ∧ (posting 0 11 plateWords (weighable false 0 (visited .held none))).Posted 0 .secondWeigh
      ∧ (capturing none).capture ≠ none ∧ (sealAs .opened true .committing).session.state = .committing
      ∧ (sealAs .opened true .opened).capture = none ∧ (sealAs .opened true .opened).session.state = .opened
      ∧ (latched true idle).session.state = .closed ∧ (latched true idle).store.latch = true
      ∧ (posting 0 10 plateWords idle).captureRefusal = some .clockUnset
      ∧ (posting 0 10 plateWords (weighable false 0 idle)).badOrderParam 0 .firstWeigh = none
      ∧ (posting 0 10 plateWords (weighable false 0 idle)).captureRefusal = none
      ∧ (posting 0 10 plateWords (weighable false 0 idle)).placeOfVehicle plate = none
      ∧ (posting 0 10 plateWords (weighable false 0 idle)).orderVehicle 0 = plate
      ∧ (posting 0 10 plateWords (weighable false 0 idle)).freePlace = some 0
      ∧ (posting 0 10 plateWords (weighable false 0 idle)).firstUnmet = some .still
      ∧ 0 < (weighable false 0 idle).site.captureTimeout
      ∧ (posting 0 10 plateWords (weighable false 0 (visited .held none))).placeOfVehicle plate = some 63
      ∧ (posting 0 10 plateWords (weighable false 0 (fullOf []))).placeOfVehicle plate = none
      ∧ (posting 0 10 plateWords (weighable false 0 (fullOf []))).freePlace = none
      ∧ (posting 0 11 plateWords (weighable false 0 (visited .held none))).badOrderParam 0 .secondWeigh = none
      ∧ (posting 0 11 plateWords (weighable false 0 (visited .held none))).captureRefusal = none
      ∧ (posting 0 11 plateWords (weighable false 0 (visited .held none))).heldPlace plate = some 63
      ∧ (posting 0 11 plateWords (weighable false 0 (visited .closing none))).heldPlace plate = none
      ∧ (posting 0 11 plateWords (weighable false 0 (visited .held none))).firstUnmet = some .still :=
  ⟨posted_of (by decide +kernel), posted_of (by decide +kernel), by decide +kernel⟩

theorem test_met_ReadyWeighingsAreStored :
    (posting 0 10 plateWords (weighable true 399999 idle)).Posted 0 .firstWeigh
      ∧ (posting 0 10 plateWords (weighable true 400000 idle)).Posted 0 .firstWeigh
      ∧ (posting 0 11 plateWords (weighable true 400000 (roomy (visited .held none)))).Posted 0 .secondWeigh
      ∧ ([399999, 400000].all fun value =>
        let s := posting 0 10 plateWords (weighable true value idle)
        decide
          (s.badOrderParam 0 .firstWeigh = none ∧ s.captureRefusal = none ∧ s.placeOfVehicle (s.orderVehicle 0) = none
            ∧ s.firstUnmet = none ∧ s.freePlace = some 0 ∧ s.monitor.snapshot.legal = value
            ∧ s.metro.active.e = 20000 ∧ s.journal.reservation = none ∧ s.journal.blocked = false
            ∧ s.journal.outbox = [] ∧ s.journal.owed = false ∧ s.journal.current = some 0 ∧ 48 ≤ s.pageLeft 0)) = true
      ∧ (let s := posting 0 11 plateWords (weighable true 400000 (roomy (visited .held none)))
        decide
          (s.badOrderParam 0 .secondWeigh = none ∧ s.captureRefusal = none ∧ s.firstUnmet = none
            ∧ s.heldPlace (s.orderVehicle 0) = some 63 ∧ s.place 63 = some ⟨entryOf none, .held, none⟩
            ∧ s.placeOf (entryOf none).number = some 63 ∧ s.store.counters.lastTicket ≠ 0xFFFFFFFF
            ∧ s.journal.reservation = none ∧ s.journal.blocked = false ∧ s.journal.outbox = [] ∧ s.journal.owed = false
            ∧ s.journal.current = some 0 ∧ 228 ≤ s.pageLeft 0)) = true :=
  ⟨posted_of (by decide +kernel), posted_of (by decide +kernel), posted_of (by decide +kernel), by decide +kernel,
    by decide +kernel⟩

/-- The current page with some bytes used, the next page in a state, and the last ticket number. -/
def pressed (used next : W16) (last : W32) (s : State) : State :=
  { holdingWords [(pageBase 0 + 8, used), (pageBase 1, next)] s with
    store := { s.store with counters := { s.store.counters with lastTicket := last } } }

/-- Weighings whose record is reserved on the page that follows, where that is RETURNED, and those refused: JOURNAL_FULL
where it is PUBLISHED, BELOW_MIN, and TICKET_RANGE at the last number. -/
theorem test_met_weighings_at_their_limits :
    let first := fun (used next : W16) => posting 0 10 plateWords (pressed used next 0 (weighable true 400000 idle))
    let second := fun (value : Int) (used next : W16) (last : W32) =>
      posting 0 11 plateWords (pressed used next last (weighable true value (visited .held none)))
    let code := fun (c : Instr) (s : State) => (after c s).mem.read16 (slotBase 0 + 6)
    let one := after (.firstWeigh 0) (first 193 pageReturned)
    let two := after (.secondWeigh 0) (second 400000 13 pageReturned 0)
    (first 192 pagePublished).pageLeft 0 = 48 ∧ (first 193 pageReturned).pageLeft 0 = 47
      ∧ (first 193 pageReturned).pageState (nextPage 0) = pageReturned ∧ (second 400000 13 pageFree 0).pageLeft 0 = 227
      ∧ one.journal.reservation = some ⟨.weighRecord, 48⟩ ∧ one.journal.current = some 1
      ∧ one.pageState 0 = pagePublished ∧ two.journal.reservation = some ⟨.ticket, 228⟩ ∧ two.journal.current = some 1
      ∧ two.tickets.places[0]? = some .replacing
      ∧ code (.firstWeigh 0) (first 193 pagePublished) = AnswerCode.journalFull.code
      ∧ code (.secondWeigh 0) (second 400000 13 pagePublished 0) = AnswerCode.journalFull.code
      ∧ code (.secondWeigh 0) (second 399999 12 pageFree 0) = AnswerCode.belowMin.code
      ∧ code (.secondWeigh 0) (second 400000 12 pageFree 0xFFFFFFFF) = AnswerCode.ticketRange.code
      ∧ code (.secondWeigh 0) (second 400000 13 pageFree 0xFFFFFFFF) = AnswerCode.ticketRange.code
      ∧ (after (.secondWeigh 0) (second 400000 13 pageFree 0xFFFFFFFF)).journal.reservation = none
      ∧ (after (.secondWeigh 0) (second 400000 12 pageFree 0xFFFFFFFF)).place 63 = some ⟨entryOf none, .held, none⟩ := by
  decide +kernel

/-- Equal weights give the second weighing as gross; other epochs and a summary that is not CONFIRMED mark a ticket. -/
theorem test_met_ticket_forms :
    let e := entryOf (some ⟨.compliant, .indicative, []⟩)
    let equal := formTicket 7 e 12000000 200 1 20000
    let less := formTicket 7 (entryOf (some ⟨.compliant, .confirmed, []⟩)) 11999999 200 0 20000
    equal.grossSecond = true ∧ equal.net = 0 ∧ equal.crossEpoch = true ∧ equal.axleIndicative = true
      ∧ less.grossSecond = false ∧ less.gross = 12000000 ∧ less.tare = 11999999 ∧ less.net = 1
      ∧ less.crossEpoch = false ∧ less.axleIndicative = false := by decide

/-- The place of a new copy: the first that is EMPTY, or the one of the oldest copy (R140). -/
theorem test_met_ticket_places :
    let held := fun n : W32 => TicketPlace.held ⟨formTicket n (entryOf none) 0 0 0 0, 0⟩
    let full := (List.range 16).map fun i => held (BitVec.ofNat 32 (30 - i))
    full.length = 16 ∧ full[15]? = some (held 15) ∧ .empty ∉ full
      ∧ (∀ j, j < 15 → full[j]? = some (held (BitVec.ofNat 32 (30 - j))))
      ∧ choosePlace full = 15 ∧ choosePlace (full.set 7 .empty) = 7 ∧ choosePlace (full.set 15 .replacing) = 14 := by
  decide +kernel

/-- A traverse is bound once, and not while it is closing (R88); a capture whose value is taken late meets the latch. -/
theorem test_met_binding_and_late_value :
    (bridge (oneTraverse none none none)).tracker.traverse = some (oneTraverse none none none)
      ∧ ((bridge (oneTraverse none none none)).bindTraverse 9).2 = some 1
      ∧ ((bridge (oneTraverse none none (some 4))).bindTraverse 9).2 = none
      ∧ ((bridge (oneTraverse none (some 0) none)).bindTraverse 9).2 = none
      ∧ ((latched true (weighable true 400000 (capturing none))).takeValue (lateCapture none)).mem.read16 (slotBase 2 + 6)
        = AnswerCode.storeFault.code
      ∧ ((weighable true 400000 (capturing none)).reserve .weighRecord).isSome = true := by decide +kernel

/-- The examination of a waiting capture at a cadence event: its value taken, a count less, missed, and left alone at
the event that took it and in its store phase. -/
theorem test_met_capture_examinations :
    let s := fun (ready : Bool) (n : W32) (c : Capture) =>
      { weighable ready 400000 (capturing none) with link := { idle.link with cadence := n }, capture := some c }
    let c := lateCapture none
    let after' := fun t : State => (t.doPiece .examineCapture).capture
    c.takenAt ≠ (s true 9 c).link.cadence ∧ c.storing = false ∧ (after' (s true 9 c)).map (·.storing) = some true
      ∧ after' (s false 9 { c with remaining := 1 }) = some { c with remaining := 0 }
      ∧ after' (s false 9 c) = some { c with missed := some .still } ∧ after' (s true 0 c) = some c
      ∧ after' (s true 9 { c with storing := true }) = some { c with storing := true } := by decide +kernel

theorem test_met_CapturesEndWithoutAWeighing :
    (capturing (some .contained)).mem.wf = true
      ∧ (stopped .deadline (capturing (some .contained))).StoppedAt .deadline []
      ∧ (stopped .deadline (capturing none)).NotStoppedAt .deadline ∧ (stopped .deadline idle).NotStoppedAt .deadline
      ∧ (capturing none).capture = some (lateCapture none) ∧ (lateCapture none).storing = false
      ∧ (capturing none).flightOf 2 = some ⟨2, .firstWeigh, .captureUnit, false⟩ :=
  ⟨by decide +kernel, stopped_of (by decide +kernel), short_of (by decide +kernel), short_of (by decide +kernel),
    by decide +kernel⟩

/-- A weighing whose job has one row left. -/
def finishing (job : Job) (ticket : Option (Ticket × Nat)) (status : VisitStatus) : State :=
  { visited status none with
    mem := writeWords idle.mem [(pageBase 0 + 8, 4)]
    capture := some { lateCapture none with storing := true }
    tickets := { idle.tickets with job := ticket }
    store := { idle.store with queue := [job] } }

theorem test_met_WeighingsComplete :
    let first := finishing ⟨.firstWeigh, [.visit 63 1 (entryOf none)]⟩ none .adding
    let second := finishing ⟨.ticket, [.freeVisit 63]⟩ (some (oneTicket, 2)) .closing
    let voided := finishing ⟨.voidVisit 2 9, [.freeVisit 63]⟩ none .removing
    let recalled := finishing ⟨.recall 2 2 ⟨oneTicket, 1⟩, [.ticket 2 3 ⟨oneTicket, 1⟩]⟩ none .held
    first.mem.wf = true ∧ first.power = .on ∧ first.unfinished = [] ∧ first.journal.holding = false
      ∧ first.store.waiting = [] ∧ first.store.queue = [⟨.firstWeigh, [.visit 63 1 (entryOf none)]⟩]
      ∧ first.capture = some { lateCapture none with storing := true } ∧ first.placeOf 9 = some 63
      ∧ first.place 63 = some ⟨entryOf none, .adding, none⟩ ∧ first.journal.current = some 0
      ∧ first.journal.nextFill = 0 ∧ first.journal.outbox = [] ∧ first.journal.owed = false
      ∧ first.pageUsed 0 + (weighRecord (entryOf none) 0).length ≤ 240
      ∧ second.store.queue = [⟨.ticket, [.freeVisit 63]⟩] ∧ second.tickets.job = some (oneTicket, 2)
      ∧ second.placeOf oneTicket.visit.number = some 63
      ∧ second.pageUsed 0 + oneTicket.record.length ≤ 240
      ∧ voided.store.queue = [⟨.voidVisit 2 9, [.freeVisit 63]⟩] ∧ voided.placeOf 9 = some 63
      ∧ voided.place 63 = some ⟨entryOf none, .removing, none⟩
      ∧ recalled.store.queue = [⟨.recall 2 2 ⟨oneTicket, 1⟩, [.ticket 2 3 ⟨oneTicket, 1⟩]⟩] := by
  decide +kernel

/-- A first weighing that completes with a summary kept for its entry takes it, and requests its rows unless the latch
is set (R132). -/
theorem test_met_weighing_with_a_kept_summary :
    let m : Summary := ⟨.compliant, .confirmed, []⟩
    let s := finishing ⟨.firstWeigh, [.visit 63 1 (entryOf none)]⟩ none .adding
    let kept := { s with visits := { s.visits with places := s.visits.places.set 63 (some ⟨entryOf none, .adding, some m⟩) } }
    let t := after (.storeRowWritten true .old) kept
    kept.place 63 = some ⟨entryOf none, .adding, some m⟩ ∧ t.place 63 = some ⟨entryOf (some m), .held, none⟩
      ∧ t.store.waiting = [⟨.summary 9, visitRows 63 (entryOf (some m))⟩]
      ∧ (after (.storeRowWritten true .old) (latched true kept)).store.waiting = []
      ∧ (after (.storeRowWritten true .old) (latched true kept)).place 63 = some ⟨entryOf (some m), .held, none⟩ := by
  decide +kernel

/-- An engine restart that finishes the last row of a ticket's job places the TICKET in its reservation at once; one
that fails sets the latch (R119, R179). -/
theorem test_met_restart_while_a_row_is_written :
    let s := finishing ⟨.ticket, [.freeVisit 63]⟩ (some (oneTicket, 2)) .closing
    let reserved := { s with journal := { s.journal with reservation := some ⟨.ticket, oneTicket.record.length⟩ } }
    let done := after (.restart ⟨true, false, .old⟩) reserved
    let failed := after (.restart ⟨false, false, .old⟩) reserved
    s.store.queue = ⟨.ticket, [.freeVisit 63]⟩ :: [] ∧ s.store.waiting = [] ∧ s.regs.restart = false
      ∧ s.store.retry = false ∧ done.pageState 0 = pagePublished ∧ done.pageCount 0 = s.pageCount 0 + 1
      ∧ done.store.latch = false ∧ failed.store.latch = true ∧ failed.pageCount 0 = s.pageCount 0
      ∧ done.store.rows = (s.writeRow (.freeVisit 63)).store.rows := by decide +kernel

/-! The session. -/

theorem test_met_OpenSessionOpens :
    (posting 0 16 [] (sealAs .opened true .closed)).Posted 0 .openSession
      ∧ (posting 0 16 [] (sealAs .opened true .opened)).Posted 0 .openSession
      ∧ (sealAs .sealed true .closed).sealLine.state = .sealed ∧ (sealAs .sealed true .opened).session.state = .opened
      ∧ (sealAs .opened true .closed).sealLine.state = .opened ∧ (sealAs .opened true .closed).capture = none
      ∧ (sealAs .opened true .closed).session.state = .closed ∧ (sealAs .opened true .closed).store.latch = false
      ∧ (sealAs .opened true .opened).session.state ≠ .closed ∧ (sealAs .opened true .committing).session.state ≠ .closed
      ∧ (capturing none).capture ≠ none ∧ (latched true (sealAs .opened true .closed)).store.latch = true :=
  ⟨posted_of (by decide +kernel), posted_of (by decide +kernel), by decide +kernel⟩

/-- An OPEN session with a staged set at a revision, and entries of a parameter image: id, index, low word of the
value. -/
def staging (revision : Nat) (count : W16) (entries : List (W16 × W16 × W16)) : State :=
  let words :=
    (List.range entries.length).flatMap fun i =>
      let e := entries.getD i (0, 0, 0)
      [(stagingBase + 4 + 8 * i, e.1), (stagingBase + 4 + 8 * i + 2, e.2.1), (stagingBase + 4 + 8 * i + 4, e.2.2)]
  posting 0 17 [] (holdingWords ((stagingBase, count) :: words)
    { sealAs .opened true .opened with
      session := { (sealAs .opened true .opened).session with revision := revision } })

theorem test_met_StageParamsJudgesAndStages :
    (staging 0 1 [(2, 23, 9)]).Posted 0 .stageParams ∧ (staging 0 1 [(2, 23, 9)]).intake.claim = none
      ∧ (sealAs .opened true .closed).session.state ≠ .opened
      ∧ (staging 0 1 []).session.staged = some manufactureSet ∧ (staging 0 1 []).session.state = .opened
      ∧ ((staging 0 0 []).staging16 0).toNat < 1 ∧ 128 < ((staging 0 129 []).staging16 0).toNat
      ∧ ((staging 0 128 []).staging16 0).toNat = 128
      ∧ ((staging 0 2 [(2, 23, 9), (2, 24, 9)]).imageEntry 0).ok = true
      ∧ ((staging 0 2 [(2, 23, 9), (2, 24, 9)]).imageEntry 1).ok = false
      ∧ (let s := staging 0 2 [(2, 23, 9), (4, 0, 0)]
        let copy := applyParams manufactureSet ((List.range 2).map s.imageEntry)
        (s.imageEntry 0).ok = true ∧ (s.imageEntry 1).ok = true ∧ copy.firstFailure = some (1, 0)
          ∧ takesPart copy (s.imageEntry 0).id (s.imageEntry 0).index 1 0 = false
          ∧ takesPart copy (s.imageEntry 1).id (s.imageEntry 1).index 1 0 = true)
      ∧ (let s := staging 65535 1 [(2, 23, 9)]
        (s.imageEntry 0).ok = true ∧ (applyParams manufactureSet ((List.range 1).map s.imageEntry)).firstFailure = none
          ∧ s.session.revision = 65535) :=
  ⟨posted_of (by decide +kernel), by decide +kernel⟩

/-- Parameters at the ends of their ranges and beyond them, an index beyond its range and an unknown id (R166). -/
theorem test_met_parameter_ranges :
    let ends : List (Nat × Nat × Int × Int) :=
      [(1, 24, 0, 4), (2, 24, -8388608, 8388607), (3, 24, 32768, 98304), (4, 4, 0, 1), (5, 4, 1, 4294967295),
        (6, 4, 1000000, 200000000), (7, 4, 0, 4), (8, 16, 1, 200000000), (9, 16, -2000000, 2000000), (10, 4, 1, 128),
        (11, 4, 20, 400), (12, 4, 0, 1), (13, 4, -20000000, 20000000), (14, 1, 5000, 100000)]
    (ends.all fun x =>
        let (id, n, low, high) := x
        (ParamEntry.mk id (n - 1) low).ok && (ParamEntry.mk id 0 high).ok && !(ParamEntry.mk id n low).ok
          && !(ParamEntry.mk id 0 (low - 1)).ok && !(ParamEntry.mk id 0 (high + 1)).ok) = true
      ∧ (ParamEntry.mk 0 0 1).ok = false ∧ (ParamEntry.mk 15 0 1).ok = false ∧ (ParamEntry.mk 10 0 3).ok = false := by
  decide +kernel

/-- The constraints in their order, and the parameters that take part in them (R166, R167). -/
theorem test_met_constraints :
    let pointed := fun (x0 x1 y1 : Int) => (((fittedSet.put 7 2 2).put 8 8 x0).put 8 9 x1).put 9 9 y1
    (pointed 5 60000000 600000).firstFailure = none ∧ (pointed 5 60000001 600001).firstFailure = some (2, 2)
      ∧ (pointed 5 5 0).firstFailure = some (2, 2) ∧ (pointed 5 6 (-600001)).firstFailure = some (3, 2)
      ∧ ((pointed 5 6 0).put 13 0 6000001).firstFailure = some (4, 0)
      ∧ ((pointed 5 6 600001).put 13 0 6000001).firstFailure = some (3, 2)
      ∧ (fittedSet.put 4 0 0).firstFailure = some (1, 0)
      ∧ takesPart (pointed 5 5 0) 8 9 2 2 = true ∧ takesPart (pointed 5 5 0) 8 10 2 2 = false
      ∧ takesPart (pointed 5 5 0) 9 9 2 2 = false ∧ takesPart (pointed 5 5 0) 9 9 3 2 = true
      ∧ takesPart (pointed 5 5 0) 6 2 4 2 = true ∧ takesPart (pointed 5 5 0) 13 1 4 2 = false
      ∧ (0 : Int) < (pointed 5 5 0).get 7 2 := by decide +kernel

/-- The order words of a measurement of D0, with a reference of 1,000,000 g where its kind has one. -/
def measuring (code : W16) (s : State) : State :=
  let body : List (Nat × W16) :=
    if code = 18 then [(0, 1)]
    else if code = 19 then [(2, 0x4240), (4, 15)]
    else if code = 20 then [(2, 23)]
    else [(0, 1), (2, 0x4240), (4, 15), (6, 1)]
  posting 0 code body s

/-- The code of a measurement order (12.6). -/
def measureCode : OrderKind → W16
  | .zeroCal => 18
  | .spanCal => 19
  | .cornerRead => 20
  | _ => 21

/-- An OPEN session over the set with C0 and C1 on D0, its staged k of C0, the mean of C0, and a ready D0 or not. -/
def session (k0 mean0 : Int) (flags : DeckFlags) (tests : List TestEntry) : State :=
  { fitted .active with
    link := { idle.link with state := .live }
    chain :=
      { Chain.start with
        cells :=
          (Chain.start.cells.set 0 ⟨0, false, [mean0], mean0⟩).set 1 ⟨0, false, [0], 0⟩ }
    monitor :=
      { Monitor.start fittedSet false with
        snapshot :=
          { (Monitor.start fittedSet false).snapshot with
            decks := { (Monitor.start fittedSet false).snapshot.decks with d0 := DeckSnapshot.start flags } } }
    session := { idle.session with state := .opened, staged := some (fittedSet.put 3 0 k0), tests := tests } }

/-- SPAN_CAL of a deck that does not exist, its reference mass in range. -/
def spanningDeckFour (s : State) : State := posting 0 19 [(0, 4), (2, 0x4240), (4, 15)] s

/-- SPAN_CAL of deck 4 passes the intake (R170), and R168 judges it: SESSION_CLOSED, or BAD_PARAM naming the deck. -/
theorem test_span_cal_of_deck_four :
    let code := fun s : State => (after (.spanCal 0) (spanningDeckFour s)).mem.read16 (slotBase 0 + 6)
    (spanningDeckFour (session 65536 5000 DeckFlags.none [])).badOrderParam 0 .spanCal = none
      ∧ code idle = AnswerCode.sessionClosed.code
      ∧ code (session 65536 5000 DeckFlags.none []) = AnswerCode.badParam.code := by
  decide +kernel

theorem test_met_MeasurementsAreJudgedAlike :
    (∀ kind : OrderKind, kind = .zeroCal ∨ kind = .spanCal ∨ kind = .cornerRead ∨ kind = .testLoad →
      (measuring (measureCode kind) (session 65536 5000 DeckFlags.none [])).Posted 0 kind
        ∧ (measuring (measureCode kind) (session 65536 5000 DeckFlags.none [])).badOrderParam 0 kind = none
        ∧ (measuring (measureCode kind) idle).session.state ≠ .opened)
      ∧ (spanningDeckFour (session 65536 5000 DeckFlags.none [])).Posted 0 .spanCal
      ∧ 3 < ((spanningDeckFour (session 65536 5000 DeckFlags.none [])).order16 0 0).toNat
      ∧ ((measuring 19 (session 65536 5000 DeckFlags.none [])).order16 0 0).toNat ≤ 3
      ∧ (session 65536 5000 DeckFlags.none []).session.staged = some (fittedSet.put 3 0 65536)
      ∧ (fittedSet.put 3 0 65536).isEnabled 0 = true ∧ (fittedSet.put 3 0 65536).isEnabled 1 = false
      ∧ [(0 : DeckId)].find? ((session 65536 5000 { DeckFlags.none with filling := true } []).measureNotReady
        (fittedSet.put 3 0 65536)) = some 0
      ∧ [(0 : DeckId)].find? ((session 65536 5000 { DeckFlags.none with motion := true } []).measureNotReady
        (fittedSet.put 3 0 65536)) = none
      ∧ [(0 : DeckId)].find? (session 65536 5000 { DeckFlags.none with motion := true } []).measureNotStill = some 0
      ∧ (session 98304 8388607 DeckFlags.none []).measureRefusal (fittedSet.put 3 0 98304) [0] = none
      ∧ evaluateSaturated (fittedSet.put 3 0 98304)
        ((session 98304 8388607 DeckFlags.none []).meansFor (fittedSet.put 3 0 98304)) [0] = some 0 :=
  ⟨fun kind h => by
    rcases h with h | h | h | h <;> subst h <;>
      exact ⟨posted_of (by decide +kernel), by decide +kernel, by decide +kernel⟩,
    posted_of (by decide +kernel), by decide +kernel⟩

/-- A test of a mask at revision 0. -/
def testOf (mask : Nat) (passed : Bool) : TestEntry :=
  { revision := 0
    mask := mask
    kind := .increasing
    reference := 0
    indication := 0
    error := 0
    mpe := 10000
    passed := passed }

theorem test_met_MeasurementsDoTheirWork :
    let s := session 65536 1000 DeckFlags.none []
    let low := session 65536 999 DeckFlags.none []
    let m := fittedSet.put 3 0 65536
    s.session.state = .opened ∧ s.session.staged = some m ∧ s.measureRefusal m [0] = none
      ∧ evaluateSaturated m (s.meansFor m) [0] = none ∧ evaluateSum m (s.meansFor m) 0 = 1000
      ∧ low.measureRefusal m [0] = none ∧ evaluateSum m (low.meansFor m) 0 = 999
      ∧ ([(18, OrderKind.zeroCal), (19, .spanCal), (20, .cornerRead), (21, .testLoad)].all fun p =>
        decide
          (OrderKind.ofCode ((measuring p.1 s).slotKind 0) = some p.2
            ∧ (measuring p.1 s).badOrderParam 0 p.2 = none)) = true
      ∧ maskDecks ((measuring 18 s).order16 0 0) = [0]
      ∧ ((measuring 19 s).order32 0 2).toInt ≤ m.maxOf 0
      ∧ m.maxOf 0 < ((posting 0 19 [(2, 0xC200), (4, 0x0BEB)] s).order32 0 2).toInt
      ∧ (posting 0 19 [(2, 0xC200), (4, 0x0BEB)] s).badOrderParam 0 .spanCal = none
      ∧ OrderKind.ofCode ((posting 0 19 [(2, 0xC200), (4, 0x0BEB)] s).slotKind 0) = some .spanCal
      ∧ s.session.tests.length < 32
      ∧ 32 ≤ (session 65536 1000 DeckFlags.none (List.replicate 32 (testOf 1 true))).session.tests.length := by
  decide +kernel

/-- The provisional means of staged cells that the active set does not fit: kept, begun anew and dropped (R166). -/
theorem test_met_provisional_means :
    let staged := ((fittedSet.put 4 1 1).put 1 4 1).put 1 5 0
    let moved := staged.put 1 4 0
    let old : List Provisional := [⟨4, [3, 4], 7⟩, ⟨5, [9], 9⟩]
    refreshProvisional old staged staged fittedSet = old
      ∧ refreshProvisional old staged moved fittedSet = [⟨4, [], 0⟩, ⟨5, [9], 9⟩]
      ∧ refreshProvisional old staged (staged.put 10 1 8) fittedSet = [⟨4, [], 0⟩, ⟨5, [9], 9⟩]
      ∧ refreshProvisional old staged staged staged = []
      ∧ stagedLength staged 4 = 16 ∧ stagedLength staged 9 = 0
      ∧ (⟨4, [3, 4], 7⟩ : Provisional).take staged 5 .good = ⟨4, [3, 4, 5], 12⟩
      ∧ (⟨4, List.replicate 16 2, 32⟩ : Provisional).take staged 5 .good = ⟨4, List.replicate 15 2 ++ [5], 35⟩
      ∧ (⟨4, [3, 4], 7⟩ : Provisional).take staged 5 .openCircuit = ⟨4, [], 0⟩
      ∧ (⟨4, List.replicate 16 2, 32⟩ : Provisional).mean staged = some 2
      ∧ (⟨4, [3, 4], 7⟩ : Provisional).mean staged = none := by decide +kernel

/-- A session whose last frame reaches its provisional means. -/
theorem test_met_session_frame :
    let s := { fed .live 5 with session := { (sealAs .opened true .opened).session with provisional := [⟨0, [1], 1⟩] } }
    s.link.lastFrame = some (parseFrame emptyFrame) ∧ s.session.staged = some manufactureSet
      ∧ s.session.provisional.find? (fun x => x.cell == 0) = some ⟨0, [1], 1⟩
      ∧ s.session.provisional.find? (fun x => x.cell == 1) = none
      ∧ (s.doPiece .provisional).session.provisional = [⟨0, [], 0⟩]
      ∧ (s.doPiece .session).session.provisional = [⟨0, [1], 1⟩] := by decide +kernel

theorem test_span_cal_gives_the_gain :
    let t := after (.spanCal 0) (measuring 19 (session 65536 1000 DeckFlags.none []))
    t.session.revision = 1 ∧ t.session.staged.map (fun m => m.get 5 0) = some (1000 * 65536) := by
  decide +kernel

theorem test_met_CommitSession :
    (posting 0 22 [] (session 65537 0 DeckFlags.none [testOf 1 true])).Posted 0 .commitSession
      ∧ (posting 0 22 [] idle).session.state ≠ .opened
      ∧ failedTest 0 0 [testOf 1 true, testOf 1 false] = some 1 ∧ failedTest 1 0 [testOf 1 false] = none
      ∧ deckChanged (fittedSet.put 3 0 65537) fittedSet 0 = true ∧ (fittedSet.put 3 0 65537).isEnabled 0 = true
      ∧ deckTested 0 [testOf 2 true] 0 = false ∧ deckTested 0 [testOf 1 true] 0 = true
      ∧ changedParams (fittedSet.put 3 0 65536) fittedSet = []
      ∧ changedParams (fittedSet.put 3 0 65537) fittedSet = [48]
      ∧ (session 65537 0 DeckFlags.none [testOf 1 true]).store.latch = false
      ∧ (latched true (session 65537 0 DeckFlags.none [testOf 1 true])).store.latch = true :=
  ⟨posted_of (by decide +kernel), by decide +kernel⟩

/-- A session whose commit job is under way or stored. -/
def installing (stored : Bool) : State :=
  { session 65537 0 DeckFlags.none [] with
    session :=
      { (session 65537 0 DeckFlags.none []).session with
        state := .committing
        stored := stored
        commit := some ⟨4, [0], 1, [48], 0, 0, 1⟩ } }

theorem test_met_SessionInstallChangesTheSet :
    (installing true).mem.wf = true ∧ (stopped .install (installing true)).StoppedAt .install []
      ∧ (installing false).session.commit = some ⟨4, [0], 1, [48], 0, 0, 1⟩
      ∧ (fittedSet.put 3 0 65537).isEnabled 0 = true ∧ (installing true).metro.active.isEnabled 0 = true
      ∧ (fittedSet.put 3 0 65537).isEnabled 3 = false ∧ (fittedSet.put 3 0 65537).fittedTo 23 = none
      ∧ (fittedSet.put 3 0 65537).fittedTo 0 ≠ none ∧ ((installing true).cell 0).state ≠ .unfitted
      ∧ (({ installing true with cells := idle.cells } : State).cell 0).state = .unfitted
      ∧ (stopped .install (installing false)).NotStoppedAt .install :=
  ⟨by decide +kernel, stopped_of (by decide +kernel), by decide +kernel, by decide +kernel, by decide +kernel,
    by decide +kernel, by decide +kernel, by decide +kernel, by decide +kernel, by decide +kernel,
    short_of (by decide +kernel)⟩

/-- A commit that changed D0 begins its zero anew; one that changed none keeps it, and newly enables D1 (R59). -/
theorem test_met_zero_at_installation :
    let old : DeckMonitor := { (Monitor.start fittedSet false).decks.d0 with zero := 9, limitMark := true }
    let m := fittedSet.put 4 1 1
    fittedSet.isEnabled 0 = true ∧ m.isEnabled 0 = true ∧ m.isEnabled 1 = true ∧ fittedSet.isEnabled 1 = false
      ∧ m.isEnabled 3 = false ∧ (0 : DeckId) ∉ ([] : List DeckId)
      ∧ (installMonitorDeck fittedSet m [] false 0 old).zero = 9
      ∧ (installMonitorDeck fittedSet m [] false 0 old).limitMark = true
      ∧ (installMonitorDeck fittedSet m [0] false 0 old).zero = m.zcalOf 0
      ∧ (installMonitorDeck fittedSet m [0] false 0 old).limitMark = false
      ∧ (installMonitorDeck fittedSet m [] false 1 old).limitMark = false
      ∧ (installMonitorDeck fittedSet m [] false 3 old).zero = m.zcalOf 3 := by decide +kernel

/-- An OPEN session with an idle count. -/
def idleFor (n : Nat) : State :=
  { sealAs .opened true .opened with session := { (sealAs .opened true .opened).session with idle := n } }

theorem test_met_SessionsEndWithoutInstallation :
    (posting 0 23 [] (sealAs .opened true .opened)).Posted 0 .abortSession
      ∧ (posting 0 23 [] (sealAs .opened true .closed)).Posted 0 .abortSession
      ∧ (sealAs .opened true .closed).session.state ≠ .opened
      ∧ (stopped .expire (idleFor 360000)).StoppedAt .expire [] ∧ (idleFor 360000).mem.wf = true
      ∧ (stopped .expire (idleFor 359999)).NotStoppedAt .expire
      ∧ (idleFor 0).session.opens = idle.session.opens ∧ (idleFor 0).session.state ≠ .closed
      ∧ (sealAs .opened true .closed).session.state = .closed :=
  ⟨posted_of (by decide +kernel), posted_of (by decide +kernel), by decide +kernel, stopped_of (by decide +kernel),
    by decide +kernel, short_of (by decide +kernel), by decide +kernel⟩

/-! The store. -/

/-- A store with jobs in its queue and others that wait, its first row written once or not. -/
def storing (queue waiting : List Job) (retry : Bool) : State :=
  { idle with store := { idle.store with queue := queue, waiting := waiting, retry := retry } }

/-- A job of some rows. -/
def rowsJob (n : Nat) : Job :=
  ⟨.closeSession, List.replicate n (.freeVisit 0)⟩

theorem test_met_TheStoreWritesJobsRowByRow :
    (∀ queue waiting retry, (storing queue waiting retry).Ready)
      ∧ (storing [rowsJob 6] [rowsJob 10] false).store.queued + (rowsJob 10).rows.length ≤ 16
      ∧ 16 < (storing [rowsJob 7] [rowsJob 10] false).store.queued + (rowsJob 10).rows.length
      ∧ (storing [rowsJob 2] [] false).store.queue = [⟨.closeSession, [.freeVisit 0, .freeVisit 0]⟩]
      ∧ (storing [rowsJob 1] [] true).store.retry = true ∧ (storing [] [] false).store.waiting = []
      ∧ (storing [rowsJob 1] [] true).mem.wf = true
      ∧ (let s : State := { storing [⟨.auditRow 1, [.freeVisit 0]⟩] [] false with audit := { idle.audit with last := 1 } }
        nextSerial 1 = nextSerial s.audit.last ∧ ∀ e ∈ s.audit.entries, e.serial ≠ nextSerial 1)
      ∧ (storing [⟨.site 3 defaultSite, [.site defaultSite]⟩] [] false).store.queue
        = [⟨.site 3 defaultSite, [.site defaultSite]⟩]
      ∧ (storing [⟨.classes 3 [], [.classRow 15 manufactureClass]⟩] [] false).store.queue
        = [⟨.classes 3 [], [.classRow 15 manufactureClass]⟩]
      ∧ (let s := finishing ⟨.ticket, [.freeVisit 63]⟩ (some (oneTicket, 2)) .closing
        s.mem.wf = true ∧ s.placeOf 9 = some 63 ∧ s.place 63 = some ⟨entryOf none, .closing, none⟩
          ∧ s.capture = some { lateCapture none with storing := true } ∧ (lateCapture none).visit = some 9
          ∧ s.tickets.job = some (oneTicket, 2) ∧ s.placeOf oneTicket.visit.number = some 63)
      ∧ idle.store.rows.countersRow.map (·.generation) = some 1 ∧ idle.store.rows.currentSecond = false
      ∧ ({ idle.store.rows with counters1 := some (CountersRow.stored ⟨manufactureCounters, 2⟩) } : Rows).currentSecond = true :=
  ⟨fun _ _ _ => ⟨rfl, rfl⟩, by decide +kernel⟩

/-- A second mismatch fails the opening job of a session: STORE_FAULT is entered before the requester acts (R180), which
then aborts the session (R165). -/
theorem test_second_mismatch_sets_the_latch :
    let opening : Job := ⟨.openSession 0 idle.session.opens, [.freeVisit 0]⟩
    let t := after (.storeRowWritten false .old)
      { storing [opening] [rowsJob 2] true with session := { idle.session with state := .opened } }
    t.store.latch = true ∧ t.store.queue = [] ∧ t.mem.read16 hdrStoreFault = 1
      ∧ t.audit.entries.map (·.kind) = [.storeFault, .sessionAborted] := by
  decide +kernel

/-- Rows of each kind go to their places, and what a failed write leaves stands there. -/
theorem test_met_rows_in_their_places :
    let put := fun w : RowWrite => (idle.writeRow w).store.rows
    let left := fun w : RowWrite => (idle.leaveRow w (.other [7])).store.rows
    let seven : Row := some (padTo 64 [7])
    let e : AuditEntry := ⟨129, 0, 0, false, .linkLost, []⟩
    let image : MetroImage := ⟨fittedSet, 1⟩
    (put (.image 1 8 image)).image1[8]? = some (some (image.row 8)) ∧ (put (.image 1 8 image)).image0 = idle.store.rows.image0
      ∧ ((put (.visit 63 2 (entryOf none))).visits.getD 63 []).getD 2 none = some (rowOf (entryOf none).stored 2)
      ∧ ((put (.ticket 15 3 ⟨oneTicket, 0⟩)).tickets.getD 15 []).getD 3 none = some (rowOf (TicketCopy.mk oneTicket 0).stored 3)
      ∧ (put (.audit e)).audit[1]? = some (some e.stored)
      ∧ (put (.classRow 15 manufactureClass)).classes[15]? = some (some manufactureClass.stored)
      ∧ (put (.site { defaultSite with debounce := 2 })).site = some { defaultSite with debounce := 2 }.stored
      ∧ ((left (.freeVisit 63)).visits.getD 63 []).getD 0 none = seven ∧ (left (.site defaultSite)).site = seven
      ∧ (left (.audit e)).audit[1]? = some seven ∧ (left (.image 0 0 image)).image0[0]? = some seven := by
  decide +kernel

/-- The log requests the row of the entry at its mark, of the oldest where that has left, and none with a job of its
own, under the latch or with every entry written (R184). -/
theorem test_met_audit_rows :
    let log := fun (mark : W32) (busy : Bool) =>
      let s := audited []
      { s with audit := { s.audit with mark := mark, busy := busy } }
    let asked := fun s : State => s.auditPump.store.waiting.map (·.kind)
    asked (log 2 false) = [.auditRow 2] ∧ (log 2 false).auditPump.audit.busy = true ∧ asked (log 3 false) = [.auditRow 3]
      ∧ asked (log 9 false) = [.auditRow 1] ∧ (log 4 false).auditPump = log 4 false
      ∧ nextSerial (log 4 false).audit.last = 4 ∧ asked (log 2 true) = [] ∧ asked (latched true (log 2 false)) = [] := by
  decide +kernel

/-! The rows a power loss can leave (R143). -/

/-- Rows with a visit that a ticket has closed in a place, or the copy of the next ticket number in another. -/
def interrupted (closed copied : Bool) : Rows :=
  manufactureRows.putRows
    ((if closed then visitRows 63 (entryOf none) else []) ++ if copied then (List.range 4).map fun r => .ticket 15 r ⟨oneTicket, 0⟩ else [])

/-- A summary of two groups. -/
def twoGroups : Summary :=
  ⟨.nonCompliant, .rollingOnly, [⟨.single, 1, 7000000, 8000000, false⟩, ⟨.overlong, 5, -20000, 0, true⟩]⟩

/-- A COMMIT entry with the greatest number of listed parameters (12.7). -/
def longCommit : AuditEntry :=
  ⟨4, 2, 100, true, .commit, commitDetail 1 2 (field16 137) (some ((List.range 40).map (3 * ·))) false⟩

/-- What is written in the rows of the store is read back (R178). -/
theorem test_rows_read_back :
    countersOf (some (CountersRow.stored ⟨{ manufactureCounters with epoch := 7, sessionOpen := true }, 3⟩))
        = some ⟨{ manufactureCounters with epoch := 7, sessionOpen := true }, 3⟩
      ∧ (let e := { entryOf (some twoGroups) with bound := some 5 }
        visitOf ((List.range 3).map fun r => some (rowOf e.stored r)) = some e)
      ∧ (let c : TicketCopy := ⟨formTicket 6 (entryOf (some twoGroups)) 4000000 200 1 20000, 3⟩
        copyOf ((List.range 4).map fun r => some (rowOf c.stored r)) = some c)
      ∧ auditOf (some longCommit.stored) = some longCommit
      ∧ (let e : AuditEntry := ⟨5, 2, 100, false, .zeroLimit, u8 1 ++ [0, 0, 0] ++ s32 (-5) ++ s32 7 ++ s32 9⟩
        auditOf (some e.stored) = some e)
      ∧ (let c : ClassEntry := ⟨plate.take 8, 1, 2, 3, 4, 5, 1000000000, 100⟩; classOf (some c.stored) = some c)
      ∧ settingsOf (some defaultSite.stored) = some defaultSite := by decide +kernel

/-- A row whose bytes do not check holds nothing, and neither do rows of two writings (R178). -/
theorem test_rows_that_do_not_check :
    countersOf (some (List.replicate 64 0)) = none ∧ settingsOf (some (defaultSite.stored.set 61 1)) = none
      ∧ (let e := entryOf none
        let f := { entryOf none with lot := 4 }
        visitOf [some (rowOf f.stored 0), some (rowOf e.stored 1), some (rowOf e.stored 2)] = none
          ∧ visitOf [none, some (rowOf e.stored 1), some (rowOf e.stored 2)] = none) := by decide +kernel

theorem twoGroups_retainable : twoGroups.retainable := by
  refine ⟨by decide, fun g h => ?_⟩
  simp only [twoGroups, List.mem_cons, List.not_mem_nil, or_false] at h
  rcases h with rfl | rfl <;> exact ⟨by decide, ⟨by decide, by decide⟩, by decide, by decide⟩

theorem entryOf_retainable : (entryOf (some twoGroups)).retainable := by
  refine ⟨by decide, ⟨by decide, by decide⟩, by decide, fun m h => ?_⟩
  cases h
  exact twoGroups_retainable

/-- Entries, copies and rows that the store has room for, at the ends of their ranges. -/
theorem test_met_retainable :
    (entryOf (some twoGroups)).retainable
      ∧ (⟨formTicket 6 (entryOf (some twoGroups)) 4000000 200 1 20000, 65535⟩ : TicketCopy).retainable
      ∧ longCommit.retainable ∧ (⟨5, 2, 100, false, .zeroLimit, List.replicate 46 0⟩ : AuditEntry).retainable
      ∧ manufactureClass.name.length = 8 ∧ manufactureClass.badField = none ∧ defaultSite.badField = none
      ∧ (List.replicate 62 (0 : Byte)).length ≤ 64 * 1 - 2 ∧ checkedBytes [some (List.replicate 64 0)] = none
      ∧ ([List.replicate 64 (0 : Byte)].flatten.drop 62) ≠ bytes16 (crc16 ([List.replicate 64 (0 : Byte)].flatten.take 62)) := by
  refine ⟨entryOf_retainable, ⟨entryOf_retainable, ?_⟩, ?_, ?_, by decide +kernel⟩
  · refine ⟨?_, ?_, ?_, ?_, ?_, ?_, ?_⟩ <;> (constructor <;> decide +kernel)
  · unfold AuditEntry.retainable
    rw [if_pos (show longCommit.kind = .commit from rfl)]
    exact ⟨1, 2, field16 137, some ((List.range 40).map (3 * ·)), false, rfl, fun ns h => by
      cases h; decide⟩
  · unfold AuditEntry.retainable
    rw [if_neg (by decide)]
    decide

/-- A table with every place taken, and the copy of the next ticket number. -/
def crowded : Rows :=
  { interrupted false true with
    visits := List.replicate 64 ((List.range 3).map fun r => some (rowOf (entryOf none).stored r)) }

theorem test_met_no_free_place :
    (∀ j, j < 64 → crowded.visitAt j ≠ none) ∧ crowded.ticketAt 15 = some ⟨oneTicket, 0⟩
      ∧ (∀ j, j < 15 → crowded.ticketAt j = none) := by decide +kernel

theorem test_met_PowerOnAndPowerLoss :
    let closing : Counters := { manufactureCounters with closedVisit := 9 }
    dark.power = .off ∧ idle.power ≠ .off ∧ dark.store.rows.countersRow = some ⟨manufactureCounters, 1⟩
      ∧ dark.store.rows.imageTest manufactureCounters.epoch = none ∧ manufactureCounters.sessionOpen = false
      ∧ manufactureCounters.epoch = 0
      ∧ (interrupted true false).visitAt 63 = some (entryOf none) ∧ (entryOf none).number = closing.closedVisit
      ∧ (∀ j, j < 63 → (interrupted true true).visitAt j = none)
      ∧ (interrupted true true).ticketAt 15 = some ⟨oneTicket, 0⟩
      ∧ oneTicket.number = manufactureCounters.lastTicket + 1
      ∧ (∀ j, j < 15 → (interrupted true true).ticketAt j = none)
      ∧ (entryOf none).number = oneTicket.visit.number
      ∧ (∀ j, j < 64 → (interrupted false true).visitAt j = none)
      ∧ (∀ i, i < 16 → (interrupted true false).ticketAt i = none) := by decide +kernel

end Sys2Proof.Tests
end

section
/-! SUPPORT. The weighing chain, stage by stage (chapter 2): what one computation gives each cell, each deck and the
deck monitor, and the statements about the sums, the mass, the filter, the gross and its flags. -/

namespace Sys2Proof.Weighing

open Sys2Proof Sys2Proof.Machine

/-! Clamping and rounding. -/

theorem clamp_of_mem {lo hi a : Int} (l : lo ≤ a) (h : a ≤ hi) : clamp lo hi a = a := by
  simp [clamp, Int.not_lt.mpr l, Int.not_lt.mpr h]

theorem clamp_of_lt {lo hi a : Int} (l : a < lo) : clamp lo hi a = lo := if_pos l

theorem clamp_of_gt {lo hi a : Int} (o : lo ≤ hi) (h : hi < a) : clamp lo hi a = hi := by
  simp [clamp, Int.not_lt.mpr (o.trans h.le), h]

theorem clamp_bounds {lo hi : Int} (o : lo ≤ hi) (a : Int) : lo ≤ clamp lo hi a ∧ clamp lo hi a ≤ hi := by
  unfold clamp
  split
  · omega
  · split <;> omega

/-- A multiple of the divisor divides exactly. -/
theorem roundDiv_mul_self (a : Int) {b : Int} (h : 0 < b) : roundDiv (a * b) b = a := by
  have twice : ∀ n : Int, (2 * (n * b) + b) / (2 * b) = n := fun n => by
    rw [show 2 * (n * b) + b = b + n * (2 * b) by ring, Int.add_mul_ediv_right _ _ (by omega),
      Int.ediv_eq_zero_of_lt h.le (by omega), Int.zero_add]
  unfold roundDiv
  split
  · exact twice a
  · rw [← Int.neg_mul, twice, Int.neg_neg]

/-! Cells and the decks they are mapped to. -/

theorem getElem?_allCells (c : CellId) : allCells[c.val]? = some c := by
  fin_cases c <;> rfl

/-- What `mapCells` gives a cell. -/
theorem mapCells_getD {α : Type} (l : List α) (absent other : α) (f : CellId → α → α) (c : CellId) :
    (mapCells l absent f).getD c.val other = f c (l.getD c.val absent) := by
  rw [mapCells, List.getD_eq_getElem?_getD, List.getElem?_map, getElem?_allCells]
  rfl

theorem mem_cellsOf {m : MetroSet} {c : CellId} {d : DeckId} : c ∈ m.cellsOf d ↔ m.deckOf c = some d := by
  have all : c ∈ allCells := List.mem_of_getElem? (getElem?_allCells c)
  simp [MetroSet.cellsOf, all]

/-- A cell mapped to an enabled deck is fitted to it (R12, R22). -/
theorem fittedTo_of_deckOf {m : MetroSet} {c : CellId} {d : DeckId} (h : m.deckOf c = some d)
    (en : m.isEnabled d = true) : m.fittedTo c = some d := by
  simp [MetroSet.fittedTo, h, en]

/-! The cells at a computation (R27, R28). -/

theorem handed_active {s : State} {c : CellId} (h : (s.cell c).state = .active)
    (r : (s.cell c).released = false) : s.handed c = some ((s.cell c).lastGood.getD 0) := by
  simp [State.handed, h, r]

/-- A FAULTED or RECOVERED cell, and one whose hold is released at this event, hand over the held count (R14, R33). -/
theorem handed_held {s : State} {c : CellId}
    (h : (s.cell c).state = .faulted ∨ (s.cell c).state = .recovered
      ∨ ((s.cell c).state = .active ∧ (s.cell c).released = true)) : s.handed c = some (s.cell c).held := by
  obtain faulted | recovered | ⟨active, released⟩ := h
  · simp [State.handed, faulted]
  · simp [State.handed, recovered]
  · simp [State.handed, active, released]

/-- Every fitted cell hands over a count (R12). -/
theorem exists_handed {s : State} {c : CellId} (h : (s.cell c).state ≠ .unfitted) :
    ∃ n, s.handed c = some n := by
  cases st : (s.cell c).state with
  | unfitted => exact absurd st h
  | faulted => exact ⟨_, handed_held (.inl st)⟩
  | recovered => exact ⟨_, handed_held (.inr (.inl st))⟩
  | active =>
    cases r : (s.cell c).released with
    | false => exact ⟨_, handed_active st r⟩
    | true => exact ⟨_, handed_held (.inr (.inr ⟨st, r⟩))⟩

/-- The corrected value that a computation gives a cell, from the count handed over (R27, R28). -/
theorem computeChain_cell_a {s : State} {c : CellId} {d : DeckId} {n : Int}
    (f : s.metro.active.fittedTo c = some d) (h : s.handed c = some n) :
    (s.computeChain.chain.cells.getD c.val CellChain.start).a =
      clamp (-8388607) 8388607 (corrected s.metro.active c n) := by
  have entry : s.computeChain.chain.cells.getD c.val CellChain.start =
      s.computeCell c (s.chain.cells.getD c.val CellChain.start) := mapCells_getD ..
  rw [entry, State.computeCell, f, h]
  rfl

/-! The decks at a computation (R30 to R38, R47). -/

/-- A computation gives an enabled deck the stages of the chain from the cells it has just computed. -/
theorem computeChain_deck {s : State} {d : DeckId} (en : s.metro.active.isEnabled d = true) :
    s.computeChain.chain.decks.get d =
      computeDeck s.metro.active s.computeChain.chain.cells d (s.monitor.decks.get d).zero (s.chain.decks.get d) :=
  (Four.get_map ..).trans (if_pos en)

/-- A computation leaves a disabled deck as it was. -/
theorem computeChain_deck_disabled {s : State} {d : DeckId} (en : s.metro.active.isEnabled d = false) :
    s.computeChain.chain.decks.get d = s.chain.decks.get d :=
  (Four.get_map ..).trans (if_neg (by simp [en]))

/-- What a computation leaves in the monitor of an enabled deck: the fine value in the window, MOTION judged on it,
OVER and UNDER judged on the gross. -/
theorem computeChain_monitor {s : State} {d : DeckId} (en : s.metro.active.isEnabled d = true) :
    let x := s.computeChain.chain.decks.get d
    let entered := (s.monitor.decks.get d).enterWindow s.metro.active d x.fine
    s.computeChain.monitor.decks.get d =
      { entered with
        zeroed := false
        flags :=
          { entered.flags with
            overload := deckOver s.metro.active s.computeChain.chain.cells d x.gross
            under := deckUnder s.metro.active x.gross } } :=
  (Four.get_map ..).trans (if_pos en)

/-- The three flags that a computation judges of an enabled deck. -/
theorem computeChain_flagsOf {s : State} {d : DeckId} (en : s.metro.active.isEnabled d = true) :
    let x := s.computeChain.chain.decks.get d
    s.computeChain.flagsOf d =
      { s.flagsOf d with
        overload := deckOver s.metro.active s.computeChain.chain.cells d x.gross
        under := deckUnder s.metro.active x.gross
        motion := ((s.monitor.decks.get d).enterWindow s.metro.active d x.fine).flags.motion } :=
  congrArg DeckMonitor.flags (computeChain_monitor en)

/-- A computation leaves the monitor of a disabled deck as it was. -/
theorem computeChain_monitor_disabled {s : State} {d : DeckId} (en : s.metro.active.isEnabled d = false) :
    s.computeChain.monitor.decks.get d = s.monitor.decks.get d :=
  (Four.get_map ..).trans (if_neg (by simp [en]))

/-- Settles O20, cell by cell from the count handed over. -/
theorem deckSumAddsCorrectedValues : Obligations.DeckSumAddsCorrectedValues := by
  intro s d en t a
  have sum : (t.chain.decks.get d).deckSum = ((s.metro.active.cellsOf d).map a).sum := by
    rw [computeChain_deck en]
    rfl
  refine ⟨sum, fun empty => by rw [sum, empty]; rfl, fun c mapped => ?_⟩
  have value {n : Int} (h : s.handed c = some n) :
      a c = clamp (-8388607) 8388607 (corrected s.metro.active c n) :=
    computeChain_cell_a (fittedTo_of_deckOf mapped en) h
  refine ⟨fun state => ?_, fun state released => value (handed_active state released),
    fun state => value (handed_held state)⟩
  obtain ⟨n, h⟩ := exists_handed state
  rw [value h]
  exact clamp_bounds (by decide) _

/-- Settles O21: stage 4 is a clamp of the exact quotient, and the monitor judges three flags only. -/
theorem massIsTheFilteredSumTimesTheGain : Obligations.MassIsTheFilteredSumTimesTheGain := by
  intro s d en t x quotient
  have mass : x.mass = clamp (-2000000000) 2000000000 quotient := by
    simp only [x, quotient, t, computeChain_deck en]
    rfl
  refine ⟨fun l h => mass.trans (clamp_of_mem l h), fun l => mass.trans (clamp_of_lt l),
    fun h => mass.trans (clamp_of_gt (by decide) h), fun gain l h => ?_, ?_⟩
  · have twenty : quotient = 20 * x.filtered := by
      rw [← roundDiv_mul_self (20 * x.filtered) (b := 65536) (by decide)]
      simp only [quotient, gain]
      congr 1
      ring
    rw [mass, twenty, clamp_of_mem l h]
  · simp only [t, computeChain_flagsOf en]

/-! The filter over a run of computations (R31). -/

/-- A history of the latest `n` values of a list, with the next value entered, holds the latest `n` of the longer
list. -/
theorem enterHistory_latest {n : Nat} (pos : 0 < n) (l : List Int) (v : Int) :
    enterHistory n (l.drop (l.length - n)) v = (l ++ [v]).drop ((l ++ [v]).length - n) := by
  have grown : (l ++ [v]).length = l.length + 1 := by simp
  unfold enterHistory
  rw [grown, List.drop_append_of_le_length (by omega)]
  split
  · rename_i full
    rw [List.length_drop] at full
    rw [List.drop_drop, show l.length - n + 1 = l.length + 1 - n by omega]
  · rename_i short
    rw [List.length_drop] at short
    rw [show l.length + 1 - n = l.length - n by omega]

/-- The sum kept beside a history stays the sum of the history. -/
theorem enterSum_eq_sum {n : Nat} (pos : 0 < n) (h : List Int) (v : Int) :
    enterSum n h h.sum v = (enterHistory n h v).sum := by
  unfold enterSum enterHistory
  split
  · rename_i full
    cases h with
    | nil => simp at full; omega
    | cons a h => simp; ring
  · simp

/-- The filter of length `n` holds the latest of the deck sums it has been given, with their sum and their number. -/
structure HoldsLatest (n : Nat) (sums : List Int) (x : DeckChain) : Prop where
  history : x.history = sums.drop (sums.length - n)
  running : x.running = (sums.drop (sums.length - n)).sum
  fill : x.fill = min sums.length n

theorem HoldsLatest.start (n : Nat) : HoldsLatest n [] DeckChain.start :=
  ⟨by simp [DeckChain.start], by simp [DeckChain.start], by simp [DeckChain.start]⟩

/-- A computation enters its deck sum in the filter. -/
theorem computeDeck_holdsLatest {m : MetroSet} {d : DeckId} {sums : List Int} {x : DeckChain}
    (pos : 0 < m.lengthOf d) (h : HoldsLatest (m.lengthOf d) sums x) (cells : List CellChain) (zero : Int) :
    let y := computeDeck m cells d zero x
    HoldsLatest (m.lengthOf d) (sums ++ [y.deckSum]) y := by
  intro y
  obtain ⟨history, running, fill⟩ := h
  have entered : y.history = (sums ++ [y.deckSum]).drop ((sums ++ [y.deckSum]).length - m.lengthOf d) := by
    rw [← enterHistory_latest pos, ← history]
    rfl
  refine ⟨entered, ?_, ?_⟩
  · rw [← entered]
    change enterSum _ x.history x.running y.deckSum = _
    rw [running, ← history, enterSum_eq_sum pos]
    rfl
  · change (if x.fill < m.lengthOf d then x.fill + 1 else x.fill) = _
    rw [fill, List.length_append, List.length_singleton]
    split <;> omega

/-- The filter of a deck after any run of computations from its start. -/
theorem foldl_computeDeck_holdsLatest {m : MetroSet} {d : DeckId} (pos : 0 < m.lengthOf d) (zero : Int)
    (runs : List (List CellChain)) :
    let total := fun cells : List CellChain =>
      ((m.cellsOf d).map fun c => (cells.getD c.val CellChain.start).a).sum
    HoldsLatest (m.lengthOf d) (runs.map total)
      (runs.foldl (fun x cells => computeDeck m cells d zero x) DeckChain.start) := by
  intro total
  induction runs using List.reverseRec with
  | nil => exact HoldsLatest.start _
  | append_singleton runs cells ih =>
    rw [List.foldl_concat, List.map_append]
    exact computeDeck_holdsLatest pos ih cells zero

/-- After at least one computation the filtered sum is the mean of what the filter holds. -/
theorem foldl_computeDeck_filtered (m : MetroSet) (d : DeckId) (zero : Int) {runs : List (List CellChain)}
    (nonempty : runs ≠ []) :
    let x := runs.foldl (fun x cells => computeDeck m cells d zero x) DeckChain.start
    x.filtered = roundDiv x.running x.fill := by
  obtain ⟨before, last, rfl⟩ := (List.eq_nil_or_concat' runs).resolve_left nonempty
  rw [List.foldl_concat]
  rfl

/-- Settles O22, by induction on the run from its last computation. -/
theorem filterKeepsTheLatestSums : Obligations.FilterKeepsTheLatestSums := by
  refine ⟨fun m d zero runs pos => ?_, fun s d en => computeChain_deck en⟩
  intro total x latest
  obtain ⟨history, running, fill⟩ := foldl_computeDeck_holdsLatest pos zero runs
  rw [List.length_map] at history running fill
  have width : latest.length = min runs.length (m.lengthOf d) := by
    simp only [latest, List.length_drop, List.length_map]
    omega
  refine ⟨history, running, fill, fun nonempty => ?_⟩
  rw [width, ← fill, ← running]
  exact foldl_computeDeck_filtered m d zero nonempty

/-! Flags and windows (R38, R40, R47). -/

theorem deckOver_iff {m : MetroSet} {cells : List CellChain} {d : DeckId} {gross : Int} :
    deckOver m cells d gross = true ↔
      m.maxOf d + 9 * m.e < gross ∨ ∃ c ∈ m.cellsOf d, (cells.getD c.val CellChain.start).saturated = true := by
  simp [deckOver]

theorem deckUnder_iff {m : MetroSet} {gross : Int} : deckUnder m gross = true ↔ gross < -20 * m.e :=
  decide_eq_true_iff

/-- The spread is reached by two values of the window, its largest and its smallest, and exceeded by none (R47). -/
theorem lt_spread_iff {h : List Int} (nonempty : h ≠ []) (n : Int) :
    n < spread h ↔ ∃ a ∈ h, ∃ b ∈ h, n < a - b := by
  obtain ⟨v, l, rfl⟩ := List.exists_cons_of_ne_nil nonempty
  have top : (v :: l).max? = some ((v :: l).foldl max v) := by
    rw [List.max?_cons', List.foldl_cons, max_self]
  have bottom : (v :: l).min? = some ((v :: l).foldl min v) := by
    rw [List.min?_cons', List.foldl_cons, min_self]
  obtain ⟨hi, above⟩ := List.max?_eq_some_iff.mp top
  obtain ⟨lo, below⟩ := List.min?_eq_some_iff.mp bottom
  change n < (v :: l).foldl max v - (v :: l).foldl min v ↔ _
  constructor
  · exact fun wide => ⟨_, hi, _, lo, wide⟩
  · rintro ⟨a, ha, b, hb, wide⟩
    have := above a ha
    have := below b hb
    omega

theorem enterHistory_ne_nil (n : Nat) (h : List Int) (v : Int) : enterHistory n h v ≠ [] := by
  unfold enterHistory
  split <;> simp

/-- MOTION after a fine value has entered the window: the window is not full, or two of its values differ by more
than e (R47). -/
theorem enterWindow_motion_iff (x : DeckMonitor) (m : MetroSet) (d : DeckId) (fine : Int) :
    (x.enterWindow m d fine).flags.motion = true ↔ (x.enterWindow m d fine).fill < m.windowOf d
      ∨ ∃ a ∈ (x.enterWindow m d fine).window, ∃ b ∈ (x.enterWindow m d fine).window, m.e < a - b := by
  rw [← lt_spread_iff (h := (x.enterWindow m d fine).window) (enterHistory_ne_nil _ _ _)]
  simp [DeckMonitor.enterWindow]

/-- The platform carries OVER with any deck, and by its own test (R40, R45). -/
theorem platformFlags_overload_iff (s : State) :
    s.platformFlags.overload = true ↔ s.chain.overload = true ∨ ∃ d : DeckId, (s.flagsOf d).overload = true := by
  have any : (∃ d : DeckId, (s.flagsOf d).overload = true) ↔
      s.monitor.decks.d0.flags.overload = true ∨ s.monitor.decks.d1.flags.overload = true
        ∨ s.monitor.decks.d2.flags.overload = true ∨ s.monitor.decks.d3.flags.overload = true := by
    simp only [Fin.exists_fin_succ, Fin.exists_fin_zero, or_false]
    rfl
  rw [any]
  simp only [State.platformFlags, DeckFlags.union, Bool.or_eq_true]
  tauto

/-- Stages 5 to 7 of the chain, each from the one before (R35 to R37). -/
theorem computeDeck_stages {m : MetroSet} {cells : List CellChain} {d : DeckId} {zero : Int} {x y : DeckChain}
    (h : y = computeDeck m cells d zero x) :
    y.corrected = y.mass + linearity (m.pointsOf d) y.mass ∧ y.gross = y.corrected - zero
      ∧ y.legal = roundDiv y.gross m.e * m.e ∧ y.fine = roundDiv y.gross (m.e / 10) * (m.e / 10) := by
  subst h
  exact ⟨rfl, rfl, rfl, rfl⟩

/-! The linearity correction (R35). -/

theorem linearity_of_nonpos (ps : List (Int × Int)) {v : Int} (h : v ≤ 0) : linearity ps v = 0 := if_pos h

theorem linearity_of_pos (ps : List (Int × Int)) {v : Int} (h : 0 < v) : linearity ps v = linearFrom 0 0 v ps :=
  if_neg (by omega)

theorem linearFrom_cons_of_le {x0 y0 v : Int} {q : Int × Int} (ps : List (Int × Int)) (h : v ≤ q.1) :
    linearFrom x0 y0 v (q :: ps) = roundDiv (y0 * (q.1 - x0) + (q.2 - y0) * (v - x0)) (q.1 - x0) := if_pos h

theorem linearFrom_cons_of_lt {x0 y0 v : Int} {q : Int × Int} (ps : List (Int × Int)) (h : q.1 < v) :
    linearFrom x0 y0 v (q :: ps) = linearFrom q.1 q.2 v ps := if_neg (by omega)

/-- Between neighbours of the ascending points, the correction is the straight line between them. -/
theorem linearFrom_between {v : Int} {p q : Int × Int} (ps : List (Int × Int)) (o : Int × Int) (i : Nat)
    (ascending : (o :: ps).Pairwise fun a b => a.1 < b.1) (hp : (o :: ps)[i]? = some p)
    (hq : (o :: ps)[i + 1]? = some q) (above : p.1 < v) (upTo : v ≤ q.1) :
    linearFrom o.1 o.2 v ps = roundDiv (p.2 * (q.1 - p.1) + (q.2 - p.2) * (v - p.1)) (q.1 - p.1) := by
  induction ps generalizing o i with
  | nil => simp at hq
  | cons r ps ih =>
    obtain ⟨-, rest⟩ := List.pairwise_cons.mp ascending
    cases i with
    | zero =>
      cases hp
      cases hq
      exact linearFrom_cons_of_le ps upTo
    | succ i =>
      have notAfter : r.1 ≤ p.1 := by
        obtain same | member := List.mem_cons.mp (List.mem_of_getElem? (List.getElem?_cons_succ ▸ hp))
        · rw [same]
        · exact ((List.pairwise_cons.mp rest).1 p member).le
      rw [linearFrom_cons_of_lt ps (by omega)]
      exact ih r i rest hp hq

/-- Above every point, the correction is the last point's y. -/
theorem linearFrom_beyond {v : Int} {p : Int × Int} (ps : List (Int × Int)) (o : Int × Int)
    (last : (o :: ps).getLast? = some p) (beyond : ∀ q ∈ ps, q.1 < v) : linearFrom o.1 o.2 v ps = p.2 := by
  induction ps generalizing o with
  | nil =>
    cases last
    rfl
  | cons r ps ih =>
    obtain ⟨first, rest⟩ := List.forall_mem_cons.mp beyond
    rw [linearFrom_cons_of_lt ps first]
    exact ih r (by rwa [List.getLast?_cons_cons] at last) rest

/-- Settles O23: the stages of a deck, of the platform, and the cases of the linearity correction. -/
theorem grossRoundingAndLimitFlags : Obligations.GrossRoundingAndLimitFlags := by
  refine ⟨?deck, ?platform, fun ps v h => linearity_of_nonpos ps h, fun v => ?none, ?between, ?beyond⟩
  case deck =>
    intro s d m t x old n window fill
    refine ⟨fun en => ?_, fun off => ⟨computeChain_deck_disabled off, computeChain_monitor_disabled off⟩, rfl⟩
    obtain ⟨corrected, gross, legal, fine⟩ := computeDeck_stages (computeChain_deck en)
    have monitor := computeChain_monitor en
    have flags := computeChain_flagsOf en
    rw [congrArg DeckFlags.overload flags, congrArg DeckFlags.under flags, congrArg DeckFlags.motion flags]
    exact ⟨corrected, gross, legal, fine, deckOver_iff, deckUnder_iff, congrArg DeckMonitor.window monitor,
      congrArg DeckMonitor.fill monitor, congrArg DeckMonitor.zeroed monitor, enterWindow_motion_iff ..⟩
  case platform =>
    intro s m t total
    refine ⟨rfl, rfl, rfl, ?_⟩
    rw [platformFlags_overload_iff]
    exact or_congr_left decide_eq_true_iff
  case none =>
    obtain h | h := le_or_gt v 0
    · exact linearity_of_nonpos [] h
    · rw [linearity_of_pos [] h, linearFrom]
  case between =>
    intro ps v i p q pos ascending hp hq above upTo
    rw [linearity_of_pos ps pos]
    exact linearFrom_between ps (0, 0) i ascending hp hq above upTo
  case beyond =>
    intro ps v p pos last beyond
    rw [linearity_of_pos ps pos]
    exact linearFrom_beyond ps (0, 0) (by rw [List.getLast?_cons, last]; rfl) beyond

end Sys2Proof.Weighing
end

section
/-! SUPPORT. FILTER_FILLED, ZERO_WATCH_EXPIRED and the start-up zero watch (R31, R50): when each is due, what each
leaves, and the statement about them. -/

namespace Sys2Proof.Weighing

open Sys2Proof Sys2Proof.Machine

theorem filledDue_iff {s : State} {d : DeckId} :
    s.filledDue d = true ↔ s.metro.active.isEnabled d = true ∧ (s.flagsOf d).filling = true
      ∧ (s.chain.decks.get d).fill = s.metro.active.lengthOf d := by
  simp [State.filledDue, and_assoc]

theorem watchDue_iff {s : State} {d : DeckId} :
    s.watchDue d = true ↔ (s.monitor.decks.get d).watch = .watching 0 :=
  beq_iff_eq

/-- The flags of an enabled deck replaced, written out (R44). -/
theorem mapFlags_of_enabled {s : State} {d : DeckId} (en : s.metro.active.isEnabled d = true)
    (f : DeckFlags → DeckFlags) :
    s.mapFlags d f = s.setMonitor d { s.monitor.decks.get d with flags := f (s.monitor.decks.get d).flags } :=
  if_pos en

/-- FILTER_FILLED where it is due: FILLING goes, and a watch that has no note yet takes note of the event (R31, R50). -/
theorem filterFilled_of_due {s : State} {d : DeckId} (due : s.filledDue d = true) :
    s.filterFilled d =
      s.setMonitor d
        { s.monitor.decks.get d with
          flags := { (s.monitor.decks.get d).flags with filling := false }
          watch :=
            if (s.monitor.decks.get d).watch = .notStarted none then .notStarted (some s.link.cadence)
            else (s.monitor.decks.get d).watch } := by
  obtain ⟨en, -, -⟩ := filledDue_iff.mp due
  rw [State.filterFilled, if_pos due, mapFlags_of_enabled en]
  simp only [State.setMonitor, Four.get_set, Four.set_set, if_true]
  split
  · rename_i none
    rw [none, if_pos rfl]
  · rename_i noted
    rw [if_neg noted]

theorem expireWatch_of_due {s : State} {d : DeckId} (due : s.watchDue d = true) :
    s.expireWatch d = s.setMonitor d { s.monitor.decks.get d with watch := .ended } :=
  if_pos due

/-- The row of an event other than the two that carry a plan, where a cadence event has stopped at it. -/
theorem exec_ownCommand_of_stopped {s : State} {e : Own} {rest : List Piece} (h : s.StoppedAt e rest)
    (a : e ≠ .warmUp) (b : e ≠ .resumed) :
    exec (ownCommand plainPlan e) s = .next ((({ s with unfinished := [] } : State).takeOwn e).run true rest) := by
  rw [exec_ownCommand plainPlan s a b, takeStopped_of_stopped h]

/-- The same row at any other moment. -/
theorem exec_ownCommand_of_not {s : State} {e : Own} (h : s.NotStoppedAt e) (a : e ≠ .warmUp) (b : e ≠ .resumed) :
    exec (ownCommand plainPlan e) s = .next s := by
  rw [exec_ownCommand plainPlan s a b, takeStopped_of_not h]

/-- What makes a deck take its start-up zero (R50, R51). -/
theorem zeroQualifies_iff {s : State} {d : DeckId} :
    s.zeroQualifies d = true ↔
      (s.snapOf d).flags.motion = false ∧ (s.snapOf d).flags.linkFault = false ∧ (s.flagsOf d).linkFault = false
        ∧ (s.snapOf d).flags.degraded = false ∧ (s.snapOf d).flags.overload = false
        ∧ (s.snapOf d).flags.under = false
        ∧ (((s.snapOf d).corrected - s.metro.active.zcalOf d).natAbs : Int) * 100
          ≤ 10 * s.metro.active.maxOf d := by
  simp [State.zeroQualifies, DeckFlags.still, withinPercent, and_assoc]

/-- The watch examines a deck with `left` examinations to go: it runs, or it starts at this event (assumption 17). -/
def Examines (s : State) (d : DeckId) (left : Nat) : Prop :=
  (s.monitor.decks.get d).watch = .watching left
    ∨ left = 2000 ∧ ∃ c, (s.monitor.decks.get d).watch = .notStarted (some c) ∧ c ≠ s.link.cadence

/-- One examination: the start-up zero is taken, or one examination fewer remains. -/
theorem watchDeck_of_examines {s : State} {d : DeckId} {left : Nat} (en : s.metro.active.isEnabled d = true)
    (h : Examines s d left) :
    s.watchDeck d =
      if s.zeroQualifies d then
        s.setMonitor d
          { s.monitor.decks.get d with
            zero := (s.snapOf d).corrected
            zeroRef := (s.snapOf d).corrected
            watch := .ended
            flags := { (s.monitor.decks.get d).flags with zeroUnset := false } }
      else s.setMonitor d { s.monitor.decks.get d with watch := .watching (left - 1) } := by
  obtain running | ⟨rfl, c, noted, other⟩ := h
  · simp only [State.watchDeck, en, running, if_true]
  · simp only [State.watchDeck, en, noted, other, if_true, if_false]

/-- No examination before the filter has filled, at the event of that itself, and after the end of the watch. -/
theorem watchDeck_of_idle {s : State} {d : DeckId}
    (h : (s.monitor.decks.get d).watch = .notStarted none
      ∨ (s.monitor.decks.get d).watch = .notStarted (some s.link.cadence)
      ∨ (s.monitor.decks.get d).watch = .ended) : s.watchDeck d = s := by
  unfold State.watchDeck
  obtain watch | watch | watch := h <;> simp [watch]

/-- Settles O24: each row goes on from its event, and the watch examines while it runs. -/
theorem filterFilledAndZeroWatchExpired : Obligations.FilterFilledAndZeroWatchExpired := by
  refine ⟨?filled, ?expired, fun s d h => exec_ownCommand_of_not h nofun nofun,
    fun s d h => exec_ownCommand_of_not h nofun nofun, ?watch⟩
  case filled =>
    intro s d rest stopped m
    refine ⟨filledDue_iff.mp stopped.due, (exec_ownCommand_of_stopped stopped nofun nofun).trans ?_⟩
    have taken := filterFilled_of_due (s := { s with unfinished := [] }) stopped.due
    exact congrArg (fun t : State => Host.Outcome.next (t.run true rest)) taken
  case expired =>
    intro s d rest stopped
    refine ⟨watchDue_iff.mp stopped.due, (exec_ownCommand_of_stopped stopped nofun nofun).trans ?_⟩
    have taken := expireWatch_of_due (s := { s with unfinished := [] }) stopped.due
    exact congrArg (fun t : State => Host.Outcome.next (t.run true rest)) taken
  case watch =>
    intro s d en x n f qualifies kept
    refine ⟨fun left examines => ?_, watchDeck_of_idle⟩
    rw [watchDeck_of_examines en examines]
    exact ⟨fun q => if_pos (zeroQualifies_iff.mpr q), fun q => if_neg fun z => q (zeroQualifies_iff.mp z)⟩

end Sys2Proof.Weighing
end

section
/-! SUPPORT. The work on one deck after another, and zero tracking (R55, R56): what a step gives a deck, when it is
reported, and the statement about TRACKING_EXAMINATION. -/

namespace Sys2Proof.Weighing

open Sys2Proof Sys2Proof.Machine

/-! One deck after another. -/

theorem mem_allDecks (d : DeckId) : d ∈ allDecks := by
  fin_cases d <;> decide

/-- Where the work on a deck gives it `g` and leaves alone what `g` gives the others, the work on some decks gives
each of them `g` of the state before all of it. -/
theorem get_foldl_decks {f : State → DeckId → State} {g : State → DeckId → DeckMonitor}
    (step : ∀ s d e, (f s d).monitor.decks.get e = if e = d then g s d else s.monitor.decks.get e)
    (apart : ∀ s {c d}, d ≠ c → g (f s c) d = g s d) {l : List DeckId} (once : l.Nodup) (s : State) (e : DeckId) :
    (l.foldl f s).monitor.decks.get e = if e ∈ l then g s e else s.monitor.decks.get e := by
  induction l generalizing s with
  | nil => rfl
  | cons d l ih =>
    obtain ⟨absent, once⟩ := List.nodup_cons.mp once
    rw [List.foldl_cons, ih once, step]
    by_cases same : e = d
    · subst same
      simp [absent]
    · simp [same, apart s same]

theorem OnlyDecks.setMonitor (s : State) (d : DeckId) (x : DeckMonitor) : OnlyDecks s (s.setMonitor d x) := rfl

theorem get_setMonitor (s : State) (d : DeckId) (x : DeckMonitor) (e : DeckId) :
    (s.setMonitor d x).monitor.decks.get e = if e = d then x else s.monitor.decks.get e :=
  Four.get_set ..

theorem withinPercent_iff {n : Int} {value max : Int} :
    withinPercent n value max = true ↔ (value.natAbs : Int) * 100 ≤ n * max :=
  decide_eq_true_iff

/-! What makes a deck eligible (R55). -/

theorem DeckFlags.clean_iff {f : DeckFlags} :
    f.clean = true ↔
      f.motion = false ∧ f.filling = false ∧ f.degraded = false ∧ f.linkFault = false ∧ f.overload = false
        ∧ f.under = false ∧ f.zeroUnset = false ∧ f.uncalibrated = false ∧ f.inTest = false := by
  simp only [DeckFlags.clean, DeckFlags.tradeReady, DeckFlags.still, Bool.and_eq_true, Bool.not_eq_true',
    Bool.or_eq_false_iff]
  tauto

theorem trackingClean_iff {s : State} {d : DeckId} :
    s.trackingClean d = true ↔
      (s.snapOf d).flags.clean = true
        ∧ (s.flagsOf d).filling = false ∧ (s.flagsOf d).degraded = false ∧ (s.flagsOf d).linkFault = false
        ∧ (s.flagsOf d).inTest = false ∧ (s.flagsOf d).uncalibrated = false ∧ (s.flagsOf d).zeroUnset = false := by
  simp [State.trackingClean, and_assoc]

theorem trackingEligible_iff {s : State} {d : DeckId} :
    s.trackingEligible d = true ↔
      s.metro.active.isEnabled d = true ∧ s.metro.active.get 12 d.val = 1 ∧ s.trackingClean d = true
        ∧ s.tracker.report.state = .empty ∧ s.capture = none
        ∧ 2 * ((s.snapOf d).gross.natAbs : Int) ≤ s.metro.active.e ∧ (s.monitor.decks.get d).zeroed = false := by
  simp [State.trackingEligible, and_assoc]

/-! The step of one deck (R56). -/

/-- A deck's tracking step: its gross, but at most a quarter of a division either way. -/
def trackingStep (s : State) (d : DeckId) : Int :=
  clamp (-(s.metro.active.e / 4)) (s.metro.active.e / 4) (s.snapOf d).gross

/-- After its step the deck's zero lies within 2% of its capacity of the reference. -/
abbrev StaysInBand (s : State) (d : DeckId) : Prop :=
  (((s.monitor.decks.get d).zero + trackingStep s d - (s.monitor.decks.get d).zeroRef).natAbs : Int) * 100
    ≤ 2 * s.metro.active.maxOf d

/-- The zero and the limit mark that an examination gives a deck. -/
def trackedMonitor (s : State) (d : DeckId) : DeckMonitor :=
  let x := s.monitor.decks.get d
  if s.trackingEligible d then
    (if StaysInBand s d then { x with zero := x.zero + trackingStep s d, limitMark := false }
    else { x with limitMark := true })
  else x

/-- An examination refuses the deck's step and tells so: the limit mark was clear. -/
structure TellsLimit (s : State) (d : DeckId) : Prop where
  eligible : s.trackingEligible d = true
  outside : ¬StaysInBand s d
  unmarked : (s.monitor.decks.get d).limitMark = false

theorem trackDeck_of_ineligible {s : State} {d : DeckId} (h : s.trackingEligible d = false) : s.trackDeck d = s :=
  if_neg (by simp [h])

theorem trackDeck_of_inBand {s : State} {d : DeckId} (h : s.trackingEligible d = true) (w : StaysInBand s d) :
    s.trackDeck d =
      s.setMonitor d
        { s.monitor.decks.get d with
          zero := (s.monitor.decks.get d).zero + trackingStep s d
          limitMark := false } :=
  (if_pos h).trans (if_pos (withinPercent_iff.mpr w))

theorem trackDeck_of_marked {s : State} {d : DeckId} (h : s.trackingEligible d = true) (w : ¬StaysInBand s d)
    (m : (s.monitor.decks.get d).limitMark = true) : s.trackDeck d = s :=
  (if_pos h).trans ((if_neg (withinPercent_iff.not.mpr w)).trans (if_pos m))

/-- The audit entry and the notice of a refusal, with the offset, the step and the band (assumption 40). -/
theorem trackDeck_of_tells {s : State} {d : DeckId} (h : TellsLimit s d) :
    let x := s.monitor.decks.get d
    let more := s32 (trackingStep s d) ++ s32 (bandOf s.metro.active d)
    s.trackDeck d =
      ((s.setMonitor d { x with limitMark := true }).writeAudit .zeroLimit
        (u8 d.val ++ [0, 0, 0] ++ s32 (x.zero - x.zeroRef) ++ more)).notice .zeroLimit d.val 0
          (fieldS32 (x.zero - x.zeroRef)) more :=
  (if_pos h.eligible).trans ((if_neg (withinPercent_iff.not.mpr h.outside)).trans (if_neg (by simp [h.unmarked])))

theorem trackedMonitor_of_outside {s : State} {d : DeckId} (h : s.trackingEligible d = true) (w : ¬StaysInBand s d) :
    trackedMonitor s d = { s.monitor.decks.get d with limitMark := true } :=
  (if_pos h).trans (if_neg w)

/-- An examination that tells nothing of a deck sets its zero and its mark alone. -/
theorem trackDeck_of_quiet {s : State} {d : DeckId} (h : ¬TellsLimit s d) :
    s.trackDeck d = s.setMonitor d (trackedMonitor s d) := by
  have kept : s.setMonitor d (s.monitor.decks.get d) = s := by
    simp only [State.setMonitor, Four.set_get]
  cases e : s.trackingEligible d with
  | false => rw [trackDeck_of_ineligible e, trackedMonitor, e, if_neg Bool.false_ne_true, kept]
  | true =>
    by_cases w : StaysInBand s d
    · rw [trackDeck_of_inBand e w, trackedMonitor, if_pos e, if_pos w]
    · have marked : (s.monitor.decks.get d).limitMark = true := by
        by_contra clear
        exact h ⟨e, w, Bool.eq_false_of_not_eq_true clear⟩
      rw [trackDeck_of_marked e w marked, trackedMonitor_of_outside e w, ← marked, kept]

/-- ZERO_LIMIT is audited and noticed: all that this can change. -/
theorem auditNotice_logged (s : State) (kind : AuditKind) (detail : List Byte) (subject : Subject)
    (item newState : Nat) (offset : W32) (more : List Byte) :
    Logged recordCauses s ((s.writeAudit kind detail).notice subject item newState offset more) :=
  ((writeAudit_logged s kind detail).mono (by decide)).trans (notice_journaled ..).logged

/-- The entry stands last in the working log, and the notice after it leaves the log alone. -/
theorem auditNotice_audited (s : State) (kind : AuditKind) (detail : List Byte) (subject : Subject)
    (item newState : Nat) (offset : W32) (more : List Byte) :
    Audited kind detail s ((s.writeAudit kind detail).notice subject item newState offset more) := by
  obtain ⟨entries, last⟩ := writeAudit_audited s kind detail
  have log : ((s.writeAudit kind detail).notice subject item newState offset more).audit
      = (s.writeAudit kind detail).audit := by
    rw [(notice_journaled (s.writeAudit kind detail) subject item newState offset more).eq]
  exact ⟨(congrArg Audit.entries log).trans entries, (congrArg Audit.last log).trans last⟩

/-- Beside the deck's own zero and mark, its examination can add to the audit log and the journal only. -/
theorem trackDeck_logged (s : State) (d : DeckId) :
    Logged recordCauses (s.setMonitor d (trackedMonitor s d)) (s.trackDeck d) := by
  by_cases h : TellsLimit s d
  · rw [trackDeck_of_tells h, trackedMonitor_of_outside h.eligible h.outside]
    exact auditNotice_logged ..
  · rw [trackDeck_of_quiet h]
    exact (Journaled.refl ..).logged

theorem get_trackDeck (s : State) (d e : DeckId) :
    (s.trackDeck d).monitor.decks.get e = if e = d then trackedMonitor s d else s.monitor.decks.get e := by
  rw [(trackDeck_logged s d).eq]
  exact get_setMonitor ..

/-! All decks in turn (assumption 55). -/

/-- All that an examination reads of a deck is the same in two states. -/
structure ExaminedAlike (d : DeckId) (s t : State) : Prop where
  metro : t.metro = s.metro
  snapshot : t.monitor.snapshot = s.monitor.snapshot
  tracker : t.tracker = s.tracker
  capture : t.capture = s.capture
  deck : t.monitor.decks.get d = s.monitor.decks.get d

theorem trackDeck_examinedAlike (s : State) {c d : DeckId} (other : d ≠ c) : ExaminedAlike d s (s.trackDeck c) := by
  have deck := (get_trackDeck s c d).trans (if_neg other)
  rw [(trackDeck_logged s c).eq] at deck ⊢
  exact ⟨rfl, rfl, rfl, rfl, deck⟩

theorem ExaminedAlike.trackingStep {d : DeckId} {s t : State} (h : ExaminedAlike d s t) :
    trackingStep t d = trackingStep s d := by
  simp only [Weighing.trackingStep, State.snapOf, h.metro, h.snapshot]

theorem ExaminedAlike.staysInBand {d : DeckId} {s t : State} (h : ExaminedAlike d s t) :
    StaysInBand t d ↔ StaysInBand s d := by
  rw [StaysInBand, h.deck, h.trackingStep, h.metro]

theorem ExaminedAlike.trackingEligible {d : DeckId} {s t : State} (h : ExaminedAlike d s t) :
    t.trackingEligible d = s.trackingEligible d := by
  rw [Bool.eq_iff_iff, trackingEligible_iff, trackingEligible_iff]
  simp only [State.trackingClean, State.snapOf, State.flagsOf, h.metro, h.snapshot, h.tracker, h.capture, h.deck]

theorem ExaminedAlike.trackedMonitor {d : DeckId} {s t : State} (h : ExaminedAlike d s t) :
    trackedMonitor t d = trackedMonitor s d := by
  simp only [Weighing.trackedMonitor, h.deck, h.trackingEligible, h.staysInBand, h.trackingStep]

theorem ExaminedAlike.tellsLimit {d : DeckId} {s t : State} (h : ExaminedAlike d s t) (tells : TellsLimit t d) :
    TellsLimit s d :=
  ⟨h.trackingEligible ▸ tells.eligible, h.staysInBand.not.mp tells.outside, h.deck ▸ tells.unmarked⟩

/-- An examination gives every deck the step that the state before the examination has for it. -/
theorem foldl_trackDeck_get (s : State) (d : DeckId) :
    (allDecks.foldl State.trackDeck s).monitor.decks.get d = trackedMonitor s d := by
  have each := get_foldl_decks get_trackDeck (fun s _ _ other => (trackDeck_examinedAlike s other).trackedMonitor)
    (l := allDecks) (by decide) s d
  rwa [if_pos (mem_allDecks d)] at each

/-- Where no refusal is told, the decks of the monitor are all that changes. -/
theorem foldl_trackDeck_onlyDecks {l : List DeckId} (once : l.Nodup) {s : State}
    (quiet : ∀ d ∈ l, ¬TellsLimit s d) : OnlyDecks s (l.foldl State.trackDeck s) := by
  induction l generalizing s with
  | nil => exact OnlyDecks.refl s
  | cons c l ih =>
    obtain ⟨absent, once⟩ := List.nodup_cons.mp once
    obtain ⟨first, rest⟩ := List.forall_mem_cons.mp quiet
    have head : OnlyDecks s (s.trackDeck c) := by
      rw [trackDeck_of_quiet first]
      exact OnlyDecks.setMonitor ..
    refine head.trans (ih once fun d member tells => rest d member ?_)
    exact (trackDeck_examinedAlike s (ne_of_mem_of_not_mem member absent)).tellsLimit tells

/-- A refusal that is told is seen in the mark, clear before the examination and set after it. -/
theorem trackedMonitor_limitMark_of_tells {s : State} {d : DeckId} (h : TellsLimit s d) :
    (trackedMonitor s d).limitMark = true := by
  rw [trackedMonitor_of_outside h.eligible h.outside]

/-- TRACKING_EXAMINATION where it is due: the count begins anew, and the decks are taken in turn (R55). -/
theorem trackZeros_of_due {s : State} (due : s.trackingDue = true) :
    s.trackZeros = allDecks.foldl State.trackDeck { s with monitor := { s.monitor with tracking := 0 } } :=
  if_pos due

/-- Settles O25: the examination goes on from its event, deck by deck, and a refusal is told once. -/
theorem trackingStepsWithinTheBand : Obligations.TrackingStepsWithinTheBand := by
  refine ⟨?examination, ?step, fun s h => exec_ownCommand_of_not h nofun nofun, ?eligible, ?limit⟩
  case examination =>
    intro s rest stopped start t m step judged told
    have decks : t.monitor.decks = s.monitor.decks.map judged :=
      Four.ext_get fun d => (foldl_trackDeck_get start d).trans (Four.get_map s.monitor.decks judged d).symm
    refine ⟨of_decide_eq_true stopped.due, ?_, decks, fun quiet => ?_⟩
    · have taken := trackZeros_of_due (s := { s with unfinished := [] }) stopped.due
      exact (exec_ownCommand_of_stopped stopped nofun nofun).trans
        (congrArg (fun t : State => Host.Outcome.next (t.run true rest)) taken)
    · rw [← decks]
      refine foldl_trackDeck_onlyDecks (by decide) fun d _ tells => quiet d ⟨tells.unmarked, ?_⟩
      exact (congrArg DeckMonitor.limitMark (foldl_trackDeck_get start d)).trans
        (trackedMonitor_limitMark_of_tells tells)
  case step =>
    intro s d m x step within more offset kept
    exact ⟨trackDeck_of_ineligible, trackDeck_of_inBand, trackDeck_of_marked,
      fun eligible outside unmarked => trackDeck_of_tells ⟨eligible, outside, unmarked⟩⟩
  case eligible =>
    intro s d now seen
    rw [trackingEligible_iff, trackingClean_iff, DeckFlags.clean_iff, and_assoc (b := _ ∧ _)]
  case limit =>
    intro s d detail more offset w
    have logged := auditNotice_logged s .zeroLimit detail .zeroLimit d.val 0 offset more
    exact ⟨_, rfl, logged.eq, auditNotice_audited .., notice_condition .., logged.raised, logged.memory w⟩

end Sys2Proof.Weighing
end

section
/-! SUPPORT. Orders answered in the sweep that takes them, and three of them: SET_SIGNALS (R91), ARM_CLASS (R83) and
ZERO (R52, R53), with the statement about them. -/

namespace Sys2Proof.Orders

open Sys2Proof Sys2Proof.Machine Sys2Proof.Weighing

/-! An order answered at its take (R106, R107, R110). -/

/-- A state with the slot TAKEN and its order in flight, as the take has it. -/
def begunAs (s v : State) (k : SlotId) (kind : OrderKind) : State :=
  { v with mem := (s.beginOrder k kind).mem, intake := (s.beginOrder k kind).intake }

theorem beginOrder_eq_begunAs (s : State) (k : SlotId) (kind : OrderKind) : s.beginOrder k kind = begunAs s s k kind :=
  rfl

/-- The answer of an order just taken, given on a state that is `v` beside the slot and the intake. -/
theorem begunAs_answeredAs {s v : State} {k : SlotId} {kind : OrderKind} {code : AnswerCode} {body : List Byte}
    (w : s.mem.wf = true) (fits : body.length ≤ 64) (regs : v.regs = s.regs) :
    AnsweredAs k code body s v (((begunAs s v k kind).answer k code body).setPosition k) where
  answered := answer_answered (u := begunAs s v k kind) (beginOrder_wf w k kind) fits
    ⟨(beginOrder_holds s k kind).flight, (beginOrder_holds s k kind).claim⟩
  rest := by
    rw [← regs]
    exact answer_rest (begunAs s v k kind) k code body
  memory := (beginOrder_sameBut w k kind).trans
    (answer_sameBut (u := begunAs s v k kind) (beginOrder_wf w k kind) fits)

/-- The take of an order that its owner answers at once. -/
theorem exec_answered {c : Instr} {s v : State} {k : SlotId} {kind : OrderKind} {code : AnswerCode}
    {body : List Byte} {owner : State → SlotId → State}
    (taken : exec c s = .next (s.whenOn fun u => u.takePosted k kind owner)) (p : s.Posted k kind)
    (inRange : s.badOrderParam k kind = none) (unclaimed : kind.claimsStaging = false)
    (fits : body.length ≤ 64) (regs : v.regs = s.regs)
    (owned : owner (s.beginOrder k kind) k = (begunAs s v k kind).answer k code body) :
    ∃ t : State, exec c s = .next t ∧ AnsweredAs k code body s v t := by
  refine ⟨_, ?_, begunAs_answeredAs (kind := kind) p.memory fits regs⟩
  rw [taken, takePosted_runs p inRange unclaimed, owned]

theorem bytes16_fits (w : W16) : (bytes16 w).length ≤ 64 :=
  Nat.le_of_ble_eq_true rfl

theorem exec_setSignals (s : State) (k : SlotId) :
    exec (.setSignals k) s = .next (s.whenOn fun u => u.takePosted k .setSignals State.setSignalsOrder) := rfl

theorem exec_armClass (s : State) (k : SlotId) :
    exec (.armClass k) s = .next (s.whenOn fun u => u.takePosted k .armClass State.armOrder) := rfl

theorem exec_zero (s : State) (k : SlotId) :
    exec (.zero k) s = .next (s.whenOn fun u => u.takePosted k .zero State.zeroOrder) := rfl

/-! SET_SIGNALS and ARM_CLASS. -/

/-- The lane with the aspects and the horn pattern of an order staged, and both pending (R91). -/
def stagedLane (s : State) (k : SlotId) : Lane :=
  { s.lane with
    stagedA := Aspect.ofCode (s.order16 k 0).toNat
    stagedB := Aspect.ofCode (s.order16 k 2).toNat
    stagedHorn := stagedHornOf (s.order16 k 4).toNat (s.order16 k 6).toNat
    aspectPending := true
    hornPending := true }

theorem setSignalsOrder_eq (s : State) (k : SlotId) :
    s.setSignalsOrder k =
      ({ s with lane := stagedLane s k } : State).answer k .done (bytes16 (causeBits s.lane.causes)) := rfl

theorem beginOrder_stagedLane {s : State} (w : s.mem.wf = true) (k : SlotId) (kind : OrderKind) :
    stagedLane (s.beginOrder k kind) k = stagedLane s k := by
  simp only [stagedLane, beginOrder_order16 w, beginOrder_lane]

/-- The bridge is EMPTY while no traverse is open (R69). -/
theorem trackState_eq_empty_iff {s : State} : s.trackState = .empty ↔ s.tracker.traverse = none := by
  unfold State.trackState
  cases s.tracker.traverse with
  | none => simp
  | some tr =>
    dsimp only
    split <;> simp

theorem armOrder_of_empty {s : State} (h : s.tracker.traverse = none) (k : SlotId) :
    s.armOrder k =
      ({ s with tracker := { s.tracker with armed := some (s.order16 k 0).toNat } } : State).answer k .done [] :=
  if_pos (trackState_eq_empty_iff.mpr h)

theorem armOrder_of_open {s : State} (h : s.tracker.traverse ≠ none) (k : SlotId) :
    s.armOrder k = s.answer k .platformOccupied [] :=
  if_neg (trackState_eq_empty_iff.not.mpr h)

/-! What a ZERO order judges of a deck (R52, assumption 35). -/

/-- A deck fails step 4: a flag of the snapshot stands, or one of those that are read as they stand. -/
def Unready (s : State) (d : DeckId) : Prop :=
  (s.snapOf d).flags.linkFault = true ∨ (s.flagsOf d).linkFault = true
    ∨ (s.snapOf d).flags.degraded = true ∨ (s.flagsOf d).degraded = true
    ∨ (s.snapOf d).flags.filling = true ∨ (s.flagsOf d).filling = true
    ∨ (s.snapOf d).flags.uncalibrated = true ∨ (s.flagsOf d).uncalibrated = true
    ∨ (s.snapOf d).flags.overload = true ∨ (s.snapOf d).flags.under = true

/-- A deck fails step 6: its corrected mass lies outside the band about its calibration zero, or its reference. -/
def Far (s : State) (d : DeckId) : Prop :=
  if (s.flagsOf d).zeroUnset = true then
    10 * s.metro.active.maxOf d < (((s.snapOf d).corrected - s.metro.active.zcalOf d).natAbs : Int) * 100
  else 2 * s.metro.active.maxOf d < (((s.snapOf d).corrected - (s.monitor.decks.get d).zeroRef).natAbs : Int) * 100

theorem zeroNotReady_iff {s : State} {d : DeckId} : zeroNotReady (s.zeroFlags d) = true ↔ Unready s d := by
  simp [zeroNotReady, State.zeroFlags, Unready, or_assoc]

theorem not_zeroInRange_iff {s : State} {d : DeckId} : (!s.zeroInRange d) = true ↔ Far s d := by
  unfold State.zeroInRange Far
  split <;> simp [withinPercent]

/-! The decks a mask names, lowest first. -/

theorem maskDecks_sorted (mask : W16) : (maskDecks mask).Pairwise (· < ·) :=
  List.Pairwise.filter _ (by decide)

/-- A search of an ascending list finds the lowest of those searched for. -/
theorem find?_lowest {l : List DeckId} (sorted : l.Pairwise (· < ·)) {p : DeckId → Bool} {d : DeckId} (member : d ∈ l)
    (found : p d = true) (lower : ∀ c ∈ l, c < d → ¬p c = true) : l.find? p = some d := by
  induction l with
  | nil => cases member
  | cons c l ih =>
    obtain ⟨below, sorted⟩ := List.pairwise_cons.mp sorted
    obtain rfl | member := List.mem_cons.mp member
    · exact List.find?_cons_of_pos found
    · rw [List.find?_cons_of_neg (lower c List.mem_cons_self (below d member))]
      exact ih sorted member fun b m => lower b (List.mem_cons_of_mem c m)

/-! The ZERO order, step by step (R52). -/

theorem zeroOrder_of_busy {s : State} (h : s.capture ≠ none ∨ s.session.state = .committing) (k : SlotId) :
    s.zeroOrder k = s.answer k .platformBusy [] :=
  if_pos (by simpa [Option.isSome_iff_ne_none] using h)

theorem zeroOrder_of_session {s : State} (c : s.capture = none) (h : s.session.state = .opened) (k : SlotId) :
    s.zeroOrder k = s.answer k .sessionOpen [] := by
  simp [State.zeroOrder, c, h]

/-- No capture is in flight and no session is open, so that the platform alone decides. -/
structure Undisturbed (s : State) : Prop where
  capture : s.capture = none
  session : s.session.state = .closed

theorem zeroOrder_of_occupied {s : State} (u : Undisturbed s) (h : s.tracker.report.state ≠ .empty) (k : SlotId) :
    s.zeroOrder k = s.answer k .platformOccupied [] := by
  simp [State.zeroOrder, u.capture, u.session, h]

section Judged

variable {s : State} {k : SlotId} {mask : W16} (named : s.order16 k 0 = mask) (u : Undisturbed s)
  (empty : s.tracker.report.state = .empty)
include named u empty

theorem zeroOrder_of_unready {d : DeckId}
    (first : (maskDecks mask).find? (fun d => zeroNotReady (s.zeroFlags d)) = some d) :
    s.zeroOrder k = s.answer k .notReady (u16 d.val) := by
  simp [State.zeroOrder, named, u.capture, u.session, empty, first]

variable (ready : (maskDecks mask).find? (fun d => zeroNotReady (s.zeroFlags d)) = none)
include ready

theorem zeroOrder_of_moving {d : DeckId}
    (first : (maskDecks mask).find? (fun d => (s.snapOf d).flags.motion) = some d) :
    s.zeroOrder k = s.answer k .notStill (u16 d.val) := by
  simp [State.zeroOrder, named, u.capture, u.session, empty, ready, first]

variable (still : (maskDecks mask).find? (fun d => (s.snapOf d).flags.motion) = none)
include still

theorem zeroOrder_of_far {d : DeckId} (first : (maskDecks mask).find? (fun d => !s.zeroInRange d) = some d) :
    s.zeroOrder k = s.answer k .outOfRange (u16 d.val) := by
  simp [State.zeroOrder, named, u.capture, u.session, empty, ready, still, first]

theorem zeroOrder_of_near (near : (maskDecks mask).find? (fun d => !s.zeroInRange d) = none) :
    s.zeroOrder k = ((maskDecks mask).foldl State.zeroDeck s).answer k .done [] := by
  simp [State.zeroOrder, named, u.capture, u.session, empty, ready, still, near]

end Judged

/-! The decks zeroed (R53). -/

/-- What a ZERO order leaves of a deck that it zeroes. -/
def zeroedMonitor (s : State) (d : DeckId) : DeckMonitor :=
  let n := (s.snapOf d).corrected
  let x := s.monitor.decks.get d
  if x.flags.zeroUnset then
    { x with zero := n, zeroRef := n, zeroed := true, watch := .ended, flags := { x.flags with zeroUnset := false } }
  else { x with zero := n, zeroed := true }

theorem zeroDeck_eq (s : State) (d : DeckId) : s.zeroDeck d = s.setMonitor d (zeroedMonitor s d) :=
  (apply_ite (s.setMonitor d) ..).symm

theorem zeroDeck_onlyDecks (s : State) (d : DeckId) : OnlyDecks s (s.zeroDeck d) := by
  rw [zeroDeck_eq]
  exact OnlyDecks.setMonitor ..

theorem get_zeroDeck (s : State) (d e : DeckId) :
    (s.zeroDeck d).monitor.decks.get e = if e = d then zeroedMonitor s d else s.monitor.decks.get e := by
  rw [zeroDeck_eq, get_setMonitor]

/-- What one deck is zeroed to does not depend on another. -/
theorem zeroDeck_zeroedMonitor (s : State) {c d : DeckId} (other : d ≠ c) :
    zeroedMonitor (s.zeroDeck c) d = zeroedMonitor s d := by
  have deck := (get_zeroDeck s c d).trans (if_neg other)
  have snap : (s.zeroDeck c).snapOf d = s.snapOf d := by rw [zeroDeck_eq]; rfl
  rw [zeroedMonitor, deck, snap]
  rfl

theorem foldl_zeroDeck_onlyDecks (l : List DeckId) (s : State) : OnlyDecks s (l.foldl State.zeroDeck s) := by
  induction l generalizing s with
  | nil => exact OnlyDecks.refl s
  | cons d l ih => exact (zeroDeck_onlyDecks s d).trans (ih _)

theorem foldl_zeroDeck_get {l : List DeckId} (once : l.Nodup) (s : State) (d : DeckId) :
    (l.foldl State.zeroDeck s).monitor.decks.get d =
      if d ∈ l then zeroedMonitor s d else s.monitor.decks.get d :=
  get_foldl_decks get_zeroDeck (fun s _ _ other => zeroDeck_zeroedMonitor s other) once s d

/-- The decks are zeroed alike whether the slot shows the order TAKEN or not. -/
theorem foldl_zeroDeck_begunAs (l : List DeckId) (s v : State) (k : SlotId) (kind : OrderKind) :
    l.foldl State.zeroDeck (begunAs s v k kind) = begunAs s (l.foldl State.zeroDeck v) k kind := by
  induction l generalizing v with
  | nil => rfl
  | cons d l ih =>
    have head : (begunAs s v k kind).zeroDeck d = begunAs s (v.zeroDeck d) k kind := by
      rw [zeroDeck_eq, zeroDeck_eq]
      rfl
    rw [List.foldl_cons, head, ih, List.foldl_cons]

theorem zeroedMonitor_of_set {s : State} {d : DeckId} (h : (s.monitor.decks.get d).flags.zeroUnset = false) :
    zeroedMonitor s d =
      { s.monitor.decks.get d with zero := (s.snapOf d).corrected, zeroed := true } :=
  if_neg (by simp [h])

/-- A deck that had ZERO_UNSET also takes the value as its reference, and its zero watch ends. -/
theorem zeroedMonitor_of_unset {s : State} {d : DeckId} (h : (s.monitor.decks.get d).flags.zeroUnset = true) :
    zeroedMonitor s d =
      { s.monitor.decks.get d with
        zero := (s.snapOf d).corrected
        zeroRef := (s.snapOf d).corrected
        zeroed := true
        watch := .ended
        flags := { (s.monitor.decks.get d).flags with zeroUnset := false } } :=
  if_pos h

/-! The command ZERO on a POSTED slot. -/

section Zero

variable {s : State} {k : SlotId} (p : s.Posted k .zero) (inRange : s.badOrderParam k .zero = none)
include p inRange

theorem exec_zero_refused {code : AnswerCode} {body : List Byte} (fits : body.length ≤ 64)
    (owned : (s.beginOrder k .zero).zeroOrder k = (s.beginOrder k .zero).answer k code body) :
    ∃ t : State, exec (.zero k) s = .next t ∧ AnsweredAs k code body s s t :=
  exec_answered (exec_zero s k) p inRange rfl fits rfl owned

/-- ZERO with every deck passed: the decks it names are zeroed, each from the state before. -/
theorem exec_zero_done (u : Undisturbed s) (empty : s.tracker.report.state = .empty)
    (ready : ∀ d ∈ maskDecks (s.order16 k 0), ¬Unready s d)
    (still : ∀ d ∈ maskDecks (s.order16 k 0), ¬(s.snapOf d).flags.motion = true)
    (near : ∀ d ∈ maskDecks (s.order16 k 0), ¬Far s d) :
    ∃ t : State, exec (.zero k) s = .next t
      ∧ AnsweredAs k .done [] s { s with monitor := { s.monitor with decks := t.monitor.decks } } t
      ∧ ∀ d, t.monitor.decks.get d =
          if d ∈ maskDecks (s.order16 k 0) then zeroedMonitor s d else s.monitor.decks.get d := by
  have owned : (s.beginOrder k .zero).zeroOrder k =
      (begunAs s ((maskDecks (s.order16 k 0)).foldl State.zeroDeck s) k .zero).answer k .done [] := by
    rw [← foldl_zeroDeck_begunAs, ← beginOrder_eq_begunAs]
    exact zeroOrder_of_near (beginOrder_order16 p.memory k .zero 0) ⟨u.capture, u.session⟩ empty
      (List.find?_eq_none.mpr fun d m => zeroNotReady_iff.not.mpr (ready d m)) (List.find?_eq_none.mpr still)
      (List.find?_eq_none.mpr fun d m => not_zeroInRange_iff.not.mpr (near d m))
  have only := foldl_zeroDeck_onlyDecks (maskDecks (s.order16 k 0)) s
  obtain ⟨t, next, answered⟩ :=
    exec_answered (exec_zero s k) p inRange rfl (Nat.zero_le _) (by rw [only]) owned
  have shown : t.monitor = _ := congrArg State.monitor answered.rest
  refine ⟨t, next, ?_, fun d => ?_⟩
  · rw [only] at answered
    rwa [shown]
  · rw [shown]
    exact foldl_zeroDeck_get (List.Nodup.filter _ (by decide)) s d

/-- ZERO with a deck that fails a step, every deck having passed the steps before (R52). -/
theorem exec_zero_failed (u : Undisturbed s) (empty : s.tracker.report.state = .empty) {d : DeckId}
    (member : d ∈ maskDecks (s.order16 k 0)) :
    (Unready s d → (∀ c ∈ maskDecks (s.order16 k 0), c < d → ¬Unready s c) →
      ∃ t : State, exec (.zero k) s = .next t ∧ AnsweredAs k .notReady (u16 d.val) s s t) ∧
    ((∀ c ∈ maskDecks (s.order16 k 0), ¬Unready s c) → (s.snapOf d).flags.motion = true →
      (∀ c ∈ maskDecks (s.order16 k 0), c < d → ¬(s.snapOf c).flags.motion = true) →
      ∃ t : State, exec (.zero k) s = .next t ∧ AnsweredAs k .notStill (u16 d.val) s s t) ∧
    ((∀ c ∈ maskDecks (s.order16 k 0), ¬Unready s c ∧ ¬(s.snapOf c).flags.motion = true) → Far s d →
      (∀ c ∈ maskDecks (s.order16 k 0), c < d → ¬Far s c) →
      ∃ t : State, exec (.zero k) s = .next t ∧ AnsweredAs k .outOfRange (u16 d.val) s s t) := by
  have sorted := maskDecks_sorted (s.order16 k 0)
  have named := beginOrder_order16 p.memory k .zero 0
  have undisturbed : Undisturbed (s.beginOrder k .zero) := ⟨u.capture, u.session⟩
  refine ⟨fun unready lower => ?_, fun ready moving lower => ?_, fun passed far lower => ?_⟩
  · refine exec_zero_refused p inRange (bytes16_fits _) (zeroOrder_of_unready named undisturbed empty ?_)
    exact find?_lowest sorted member (zeroNotReady_iff.mpr unready) fun c m l => zeroNotReady_iff.not.mpr (lower c m l)
  · refine exec_zero_refused p inRange (bytes16_fits _) (zeroOrder_of_moving named undisturbed empty ?_ ?_)
    · exact List.find?_eq_none.mpr fun c m => zeroNotReady_iff.not.mpr (ready c m)
    · exact find?_lowest sorted member moving lower
  · refine exec_zero_refused p inRange (bytes16_fits _) (zeroOrder_of_far named undisturbed empty ?_ ?_ ?_)
    · exact List.find?_eq_none.mpr fun c m => zeroNotReady_iff.not.mpr (passed c m).1
    · exact List.find?_eq_none.mpr fun c m => (passed c m).2
    · exact find?_lowest sorted member (not_zeroInRange_iff.mpr far) fun c m l =>
        not_zeroInRange_iff.not.mpr (lower c m l)

end Zero

/-- Settles O40: each order is answered at its take, and ZERO judges its steps in order. -/
theorem setSignalsArmClassAndZero : Obligations.SetSignalsArmClassAndZero := by
  refine ⟨?signals, ?arm, ?zero⟩
  case signals =>
    intro s k p inRange
    refine exec_answered (v := { s with lane := stagedLane s k }) (exec_setSignals s k) p inRange rfl
      (bytes16_fits _) rfl ?_
    rw [setSignalsOrder_eq, beginOrder_stagedLane p.memory]
    rfl
  case arm =>
    intro s k p inRange
    refine ⟨fun empty => ?_, fun occupied => ?_⟩
    · refine exec_answered (exec_armClass s k) p inRange rfl (Nat.zero_le _) rfl ?_
      rw [armOrder_of_empty (s := s.beginOrder k .armClass) empty, beginOrder_order16 p.memory]
      rfl
    · exact exec_answered (exec_armClass s k) p inRange rfl (Nat.zero_le _) rfl
        (armOrder_of_open (s := s.beginOrder k .armClass) occupied k)
  case zero =>
    intro s k p inRange ds
    refine ⟨fun capture closed empty passed => ?_, fun busy => ?_, fun capture opened => ?_,
      fun capture closed occupied => ?_,
      fun capture closed empty d member => exec_zero_failed p inRange ⟨capture, closed⟩ empty member⟩
    · obtain ⟨t, next, answered, decks⟩ := exec_zero_done p inRange ⟨capture, closed⟩ empty
        (fun d member => by simp [← zeroNotReady_iff, passed d member]) (fun d member => by simp [passed d member])
        (fun d member => by simp [← not_zeroInRange_iff, passed d member])
      refine ⟨t, next, answered, fun d => ⟨fun absent => ?_, fun member known => ?_, fun member unset => ?_⟩⟩
      · exact (decks d).trans (if_neg absent)
      · exact (decks d).trans ((if_pos member).trans (zeroedMonitor_of_set known))
      · exact (decks d).trans ((if_pos member).trans (zeroedMonitor_of_unset unset))
    · exact exec_zero_refused p inRange (Nat.zero_le _)
        (zeroOrder_of_busy (s := s.beginOrder k .zero) busy k)
    · exact exec_zero_refused p inRange (Nat.zero_le _)
        (zeroOrder_of_session (s := s.beginOrder k .zero) capture opened k)
    · exact exec_zero_refused p inRange (Nat.zero_le _)
        (zeroOrder_of_occupied (s := s.beginOrder k .zero) ⟨capture, closed⟩ occupied k)

end Sys2Proof.Orders
end

section
/-! SUPPORT. The lane signals (chapter 5): the override and its causes, the application of what is staged, horn
patterns and bursts, one equation for each case of an operation, with the two statements about them. -/

namespace Sys2Proof.Signals

open Sys2Proof Sys2Proof.Machine Sys2Proof.Weighing

/-! The override (R93, R94). -/

/-- The first cause turns the heads. -/
theorem mark_of_unmarked {l : Lane} (h : l.causes.any = false) (k : Cause) :
    l.mark k =
      Lane.handHeads
        { l with causes := l.causes.put k true, appliedA := .red, appliedB := .red, overriding := true } :=
  congrArg Lane.handHeads (if_neg (by simp [h]))

theorem mark_of_marked {l : Lane} (h : l.causes.any = true) (k : Cause) :
    l.mark k = Lane.handHeads { l with causes := l.causes.put k true } :=
  congrArg Lane.handHeads (if_pos h)

/-- After a mark both heads are RED, whether this cause turned them or one before it. -/
theorem mark_heads {l : Lane} (r : l.redWhileMarked) (k : Cause) :
    (l.mark k).appliedA = .red ∧ (l.mark k).appliedB = .red := by
  cases marked : l.causes.any with
  | false =>
    rw [mark_of_unmarked marked]
    exact ⟨rfl, rfl⟩
  | true =>
    obtain ⟨a, b, -⟩ := r marked
    rw [mark_of_marked marked]
    exact ⟨a, b⟩

/-- What RED heads show on the lines of a part that runs (R89). -/
theorem lines_of_red {s : State} (on : s.power = .on) (a : s.lane.appliedA = .red) (b : s.lane.appliedB = .red) :
    s.lineARed = true ∧ s.lineBRed = true ∧ s.lineAGreen = false ∧ s.lineBGreen = false := by
  simp [State.lineARed, State.lineBRed, State.lineAGreen, State.lineBGreen, redLine, greenLine, on, a, b]

/-- An aspect lights one line of its head at most (R89). -/
theorem lines_exclusive (p : Power) (a : Aspect) : ¬(redLine p a = true ∧ greenLine p a = true) := by
  cases a <;> simp [redLine, greenLine]

theorem unmark_of_last {l : Lane} {k : Cause} (h : l.causes.any = true) (left : (l.causes.put k false).any = false) :
    l.unmark k = { l with causes := l.causes.put k false, aspectPending := true } := by
  simp [Lane.unmark, h, left]

theorem unmark_of_other {l : Lane} {k : Cause} (h : l.causes.any = false ∨ (l.causes.put k false).any = true) :
    l.unmark k = { l with causes := l.causes.put k false } := by
  obtain unmarked | left := h
  · simp [Lane.unmark, unmarked]
  · simp [Lane.unmark, left]

/-! What is staged is applied (R92). -/

theorem applyAspects_of_pending {l : Lane} (p : l.aspectPending = true) (h : l.causes.any = false) :
    l.applyAspects =
      { l with appliedA := l.stagedA, appliedB := l.stagedB, overriding := false, aspectPending := false } :=
  if_pos (by simp [p, h])

theorem applyAspects_of_kept {l : Lane} (h : l.aspectPending = false ∨ l.causes.any = true) : l.applyAspects = l :=
  if_neg (by obtain settled | marked := h <;> simp_all)

theorem applyHorn_of_settled {l : Lane} (h : l.hornPending = false) (now : W32) : l.applyHorn now = l :=
  if_neg (by simp [h])

/-- A pattern that is in force already, or that a burst covers, is taken without a start. -/
theorem applyHorn_of_silent {l : Lane} (p : l.hornPending = true) (h : l.stagedHorn = l.horn ∨ l.burst ≠ none)
    (now : W32) : l.applyHorn now = { l with hornPending := false, horn := l.stagedHorn } := by
  unfold Lane.applyHorn
  obtain same | running := h
  · simp [p, same]
  · simp [p, Option.isSome_iff_ne_none, running]

theorem applyHorn_of_other {l : Lane} (p : l.hornPending = true) (other : l.stagedHorn ≠ l.horn)
    (quiet : l.burst = none) (now : W32) :
    l.applyHorn now = Lane.startPattern { l with hornPending := false, horn := l.stagedHorn } now := by
  simp [Lane.applyHorn, p, other, quiet]

/-- Settles O32, operation by operation of the lane signals. -/
theorem markingACauseTurnsTheHeadsRed : Obligations.MarkingACauseTurnsTheHeadsRed := by
  refine ⟨fun l k unmarked => mark_of_unmarked unmarked k, fun l k marked => mark_of_marked marked k, ?red,
    fun l k => ⟨unmark_of_last, unmark_of_other⟩, fun l => ⟨applyAspects_of_pending, applyAspects_of_kept⟩,
    fun l now => ⟨fun settled => applyHorn_of_settled settled now, fun p silent => applyHorn_of_silent p silent now,
      fun p other quiet => applyHorn_of_other p other quiet now⟩,
    fun s => rfl, fun s => ⟨lines_exclusive s.power s.lane.appliedA, lines_exclusive s.power s.lane.appliedB⟩⟩
  case red =>
    intro s k on r
    obtain ⟨a, b⟩ := mark_heads r k
    exact lines_of_red (s := s.markCause k) on a b

/-! Horn patterns (R95). -/

theorem startPattern_of_off {l : Lane} (h : l.horn.pattern = .off) (now : W32) :
    l.startPattern now = { l with sounding := false, half := 0, toggle := 0, patternAt := some now } := by
  simp [Lane.startPattern, h]

theorem startPattern_of_steady {l : Lane} (h : l.horn.pattern = .steady) (now : W32) :
    l.startPattern now = { l with sounding := true, half := 0, toggle := 0, patternAt := some now } := by
  simp [Lane.startPattern, h]

theorem startPattern_of_pulse {l : Lane} (h : l.horn.pattern = .pulse) (now : W32) :
    l.startPattern now =
      { l with
        sounding := true
        half := halfPeriod l.horn.period
        toggle := halfPeriod l.horn.period
        patternAt := some now } := by
  simp [Lane.startPattern, h]

/-! The two events of the horn line (R95, R96). -/

theorem burstEndDue_iff {l : Lane} : l.burstEndDue = true ↔ l.burst = some 0 := beq_iff_eq

/-- A toggle is due only where no burst ends at the same event (R96). -/
theorem toggleDue_iff {l : Lane} : l.toggleDue = true ↔ l.toggle = 0 ∧ l.half ≠ 0 ∧ l.burst ≠ some 0 := by
  simp [Lane.toggleDue, Lane.burstEndDue, and_assoc]

theorem hornToggle_of_due {l : Lane} (due : l.toggleDue = true) :
    l.hornToggle = { l with sounding := !l.sounding, toggle := l.half } := if_pos due

theorem burstEnd_of_due {l : Lane} (due : l.burstEndDue = true) (now : W32) :
    l.burstEnd now = ({ l with burst := none } : Lane).startPattern now := if_pos due

/-- HORN_TOGGLE where a cadence event has stopped at it. -/
theorem exec_hornToggle_of_stopped {s : State} {rest : List Piece} (h : s.StoppedAt .toggle rest) :
    exec .hornToggle s =
      .next
        (({ s with
            unfinished := []
            lane := { s.lane with sounding := !s.lane.sounding, toggle := s.lane.half } } : State).run true rest) := by
  have toggled : ({ s with unfinished := [] } : State).takeOwn .toggle =
      { s with unfinished := [], lane := { s.lane with sounding := !s.lane.sounding, toggle := s.lane.half } } :=
    congrArg (fun l : Lane => { s with unfinished := [], lane := l }) (hornToggle_of_due h.due)
  rw [← toggled]
  exact exec_ownCommand_of_stopped h nofun nofun

/-- BURST_END where a cadence event has stopped at it: the pattern in force starts afresh. -/
theorem exec_burstEnd_of_stopped {s : State} {rest : List Piece} (h : s.StoppedAt .burstEnd rest) {l : Lane}
    (started : ({ s.lane with burst := none } : Lane).startPattern s.link.cadence = l) :
    exec .burstEnd s = .next (({ s with unfinished := [], lane := l } : State).run true rest) := by
  have ended : ({ s with unfinished := [] } : State).takeOwn .burstEnd = { s with unfinished := [], lane := l } :=
    congrArg (fun l : Lane => { s with unfinished := [], lane := l })
      ((burstEnd_of_due h.due s.link.cadence).trans started)
  rw [← ended]
  exact exec_ownCommand_of_stopped h nofun nofun

/-! The counts of a cadence event (R95, R96, assumption 20). -/

/-- The lane with the marks of what this event started or renewed cleared, as the counting leaves it. -/
def unstamped (l : Lane) : Lane :=
  { l with patternAt := none, burstStart := none, burstAt := none }

theorem count_of_burst {l : Lane} {n : Nat} (h : l.burst = some n) (now : W32) :
    l.count now =
      { unstamped l with
        burst := some (if l.burstAt = some now then n else n - 1)
        toggle := if l.burstStart = some now then l.toggle else l.toggle - 1 } := by
  simp [Lane.count, unstamped, h]

theorem count_of_still {l : Lane} {now : W32} (quiet : l.burst = none) (h : l.half = 0 ∨ l.patternAt = some now) :
    l.count now = unstamped l := by
  simp [Lane.count, unstamped, quiet, h]

theorem count_of_pulse {l : Lane} {now : W32} (quiet : l.burst = none) (pulse : l.half ≠ 0)
    (running : l.patternAt ≠ some now) : l.count now = { unstamped l with toggle := l.toggle - 1 } := by
  simp [Lane.count, unstamped, quiet, pulse, running]

theorem burstCall_of_quiet {l : Lane} (h : l.burst = none) (now : W32) :
    l.burstCall now =
      { l with
        sounding := true
        half := 50
        toggle := 50
        burst := some 600
        burstStart := some now
        burstAt := some now } := by
  simp [Lane.burstCall, h]

/-- A burst that runs is renewed in phase. -/
theorem burstCall_of_burst {l : Lane} (h : l.burst ≠ none) (now : W32) :
    l.burstCall now = { l with burst := some 600, burstAt := some now } := by
  obtain ⟨n, running⟩ := Option.ne_none_iff_exists'.mp h
  simp [Lane.burstCall, running]

/-- Settles O33: each row goes on from its event, and the counts of an event by what runs at it. -/
theorem hornToggleAndBurstEnd : Obligations.HornToggleAndBurstEnd := by
  refine ⟨?toggle, ?burstEnd, fun s h => exec_ownCommand_of_not h nofun nofun,
    fun s h => exec_ownCommand_of_not h nofun nofun,
    fun l now => ⟨fun n running => count_of_burst running now, count_of_still, count_of_pulse⟩,
    fun l now => ⟨fun quiet => burstCall_of_quiet quiet now, fun running => burstCall_of_burst running now⟩⟩
  case toggle =>
    intro s rest h
    obtain ⟨spent, pulse, burst⟩ := toggleDue_iff.mp h.due
    exact ⟨spent, pulse, burst, exec_hornToggle_of_stopped h⟩
  case burstEnd =>
    intro s rest h ended after half
    let quiet : Lane := { s.lane with burst := none }
    exact ⟨burstEndDue_iff.mp h.due,
      fun off => exec_burstEnd_of_stopped h (startPattern_of_off (l := quiet) off s.link.cadence),
      fun steady => exec_burstEnd_of_stopped h (startPattern_of_steady (l := quiet) steady s.link.cadence),
      fun pulse => exec_burstEnd_of_stopped h (startPattern_of_pulse (l := quiet) pulse s.link.cadence)⟩

end Sys2Proof.Signals
end

section
/-! SUPPORT. The take of a weighing (sections 7.2 and 7.3): the refusals in their order, the capture that begins and
waits, and the statement about both orders. -/

namespace Sys2Proof.Captures

open Sys2Proof Sys2Proof.Machine Sys2Proof.Orders

/-! The refusals that both orders share (R121, steps 1 to 4). -/

theorem captureRefusal_of_busy {s : State} (h : s.capture ≠ none ∨ s.session.state = .committing) :
    s.captureRefusal = some .platformBusy :=
  if_pos (by simpa [Option.isSome_iff_ne_none] using h)

theorem captureRefusal_of_session {s : State} (c : s.capture = none) (h : s.session.state = .opened) :
    s.captureRefusal = some .sessionOpen := by
  simp [State.captureRefusal, c, h]

/-- With no capture in flight and no session, the latch and the clock decide. -/
theorem captureRefusal_of_undisturbed {s : State} (u : Undisturbed s) :
    s.captureRefusal =
      if s.store.latch then some .storeFault else if !s.time.isSet then some .clockUnset else none := by
  simp [State.captureRefusal, u.capture, u.session]

/-! The orders by what the visit table holds (R121, R122). -/

theorem firstWeighOrder_of_refused {s : State} {code : AnswerCode} (h : s.captureRefusal = some code) (k : SlotId) :
    s.firstWeighOrder k = s.answer k code [] := by
  simp only [State.firstWeighOrder, h]

theorem secondWeighOrder_of_refused {s : State} {code : AnswerCode} (h : s.captureRefusal = some code) (k : SlotId) :
    s.secondWeighOrder k = s.answer k code [] := by
  simp only [State.secondWeighOrder, h]

theorem firstWeighOrder_of_visit {s : State} {k : SlotId} {i : Nat} {v : Visit} (free : s.captureRefusal = none)
    (found : s.placeOfVehicle (s.orderVehicle k) = some i) (entry : s.place i = some v) :
    s.firstWeighOrder k = s.answer k .visitExists (bytes32 v.entry.number) := by
  simp only [State.firstWeighOrder, free, found, entry, Option.bind_some]

theorem firstWeighOrder_of_full {s : State} {k : SlotId} (free : s.captureRefusal = none)
    (new : s.placeOfVehicle (s.orderVehicle k) = none) (full : s.freePlace = none) :
    s.firstWeighOrder k = s.answer k .visitTableFull [] := by
  simp [State.firstWeighOrder, free, new, full]

theorem firstWeighOrder_begins {s : State} {k : SlotId} (free : s.captureRefusal = none)
    (new : s.placeOfVehicle (s.orderVehicle k) = none) (room : s.freePlace ≠ none) :
    s.firstWeighOrder k =
      s.beginCapture k true (s.orderVehicle k) (s.order32 k 12) (s.order16 k 16 == 1) none := by
  simp [State.firstWeighOrder, free, new, room]

theorem secondWeighOrder_of_absent {s : State} {k : SlotId} (free : s.captureRefusal = none)
    (absent : s.heldPlace (s.orderVehicle k) = none) : s.secondWeighOrder k = s.answer k .noVisit [] := by
  simp [State.secondWeighOrder, free, absent]

theorem secondWeighOrder_begins {s : State} {k : SlotId} {i : Nat} {v : Visit} (free : s.captureRefusal = none)
    (found : s.heldPlace (s.orderVehicle k) = some i) (entry : s.place i = some v) :
    s.secondWeighOrder k = s.beginCapture k false (s.orderVehicle k) 0 false (some v.entry.number) := by
  simp only [State.secondWeighOrder, free, found, entry, Option.bind_some]

/-! A capture that begins (R120 to R123). -/

/-- A capture in its wait phase, taken at this cadence event. -/
def waitingCapture (s : State) (k : SlotId) (first : Bool) (vehicle : List Byte) (lot : W32) (bind : Bool)
    (visit : Option W32) (remaining : Nat) : Capture :=
  { storing := false
    first := first
    slot := k
    vehicle := vehicle
    lot := lot
    bind := bind
    remaining := remaining
    value := none
    time := none
    epoch := none
    e := none
    visit := visit
    bound := none
    reserved := false
    takenAt := s.link.cadence
    missed := none }

/-- A state in which a capture has begun: the record, the override, and the mark on the entry it names. -/
def capturing (s : State) (c : Capture) : State :=
  { s with capture := some c, lane := s.lane.mark .capture, visits := { s.visits with mark := c.visit } }

/-- An examination that finds a condition unmet, with time left, counts one off (R123). -/
theorem examineCapture_of_unmet {s : State} {c : Capture} (h : s.capture = some c) (waiting : c.storing = false)
    (unmet : s.firstUnmet ≠ none) (time : 0 < c.remaining) :
    s.examineCapture = s.setCapture { c with remaining := c.remaining - 1 } := by
  obtain ⟨u, first⟩ := Option.ne_none_iff_exists'.mp unmet
  simp [State.examineCapture, h, waiting, first, time]

/-- No deadline follows an examination that left time. -/
theorem missDeadline_of_waiting {s : State} {c : Capture} (h : s.capture = some c) (waiting : c.missed = none) :
    s.missDeadline = s := by
  simp only [State.missDeadline, h, waiting]

/-- A capture that begins on a platform that is not ready has made its first examination at the take. -/
theorem beginCapture_of_unmet {s : State} (unmet : s.firstUnmet ≠ none) (time : 0 < s.site.captureTimeout)
    (k : SlotId) (first : Bool) (vehicle : List Byte) (lot : W32) (bind : Bool) (visit : Option W32) :
    s.beginCapture k first vehicle lot bind visit =
      capturing s (waitingCapture s k first vehicle lot bind visit (s.site.captureTimeout * 200 - 1)) := by
  let taken := capturing s (waitingCapture s k first vehicle lot bind visit (s.site.captureTimeout * 200))
  have examined : taken.examineCapture =
      capturing s (waitingCapture s k first vehicle lot bind visit (s.site.captureTimeout * 200 - 1)) :=
    examineCapture_of_unmet (s := taken) rfl rfl unmet (Nat.mul_pos time (by decide))
  change taken.examineCapture.missDeadline = _
  rw [examined]
  exact missDeadline_of_waiting rfl rfl

/-! An order that stays in flight after its take (R106, R107). -/

theorem begunAs_mem (s v : State) (k : SlotId) (kind : OrderKind) :
    ((begunAs s v k kind).setPosition k).mem =
      (s.mem.write16 (slotBase k) slotTaken).write16 hdrSweep (BitVec.ofNat 16 k.val) := rfl

theorem begunAs_inFlight {s : State} (w : s.mem.wf = true) (v : State) (k : SlotId) (kind : OrderKind) :
    InFlight k kind s ((begunAs s v k kind).setPosition k) := by
  have lower := slotBase_lower k
  have upper := slotBase_upper k
  have size : Memory.size = 0x8000 := rfl
  have sweep : hdrSweep = 0x22 := rfl
  have taken := Memory.write16_wf (x := slotBase k) (v := slotTaken) w
  refine ⟨?_, ?_, rfl, rfl⟩
  · rw [State.slotState, begunAs_mem, Memory.read16_write16_other taken (by omega),
      Memory.read16_write16 w (by omega)]
  · rw [begunAs_mem, Memory.read16_write16 taken (by omega)]

theorem begunAs_sameBut {s : State} (w : s.mem.wf = true) (v : State) (k : SlotId) (kind : OrderKind) :
    Memory.SameBut (takeBytes k) s.mem ((begunAs s v k kind).setPosition k).mem := by
  have taken : Memory.SameBut (takeBytes k) s.mem (s.mem.write16 (slotBase k) slotTaken) :=
    Memory.SameBut.write16 w (Or.inl (by omega)) (Or.inl (by omega))
  rw [begunAs_mem]
  exact taken.trans
    (Memory.SameBut.write16 (Memory.write16_wf w) (Or.inr (by omega)) (Or.inr (by omega)))

/-- The take of a weighing that begins to wait: what is in flight, the record, and the heads. -/
theorem exec_begins {c : Instr} {s : State} {k : SlotId} {kind : OrderKind} {owner : State → SlotId → State}
    {first bind : Bool} {vehicle : List Byte} {lot : W32} {visit : Option W32}
    (taken : exec c s = .next (s.whenOn fun u => u.takePosted k kind owner)) (p : s.Posted k kind)
    (inRange : s.badOrderParam k kind = none) (unclaimed : kind.claimsStaging = false)
    (owned : owner (s.beginOrder k kind) k = (s.beginOrder k kind).beginCapture k first vehicle lot bind visit)
    (unmet : s.firstUnmet ≠ none) (time : 0 < s.site.captureTimeout) :
    ∃ t : State, exec c s = .next t
      ∧ InFlight k kind s t
      ∧ t = { s with
        capture := some (waitingCapture s k first vehicle lot bind visit (s.site.captureTimeout * 200 - 1))
        lane := s.lane.mark .capture
        visits := { s.visits with mark := visit }
        mem := t.mem
        intake := t.intake }
      ∧ (s.lane.redWhileMarked → t.lineARed = true ∧ t.lineBRed = true)
      ∧ Memory.SameBut (takeBytes k) s.mem t.mem := by
  let begun := capturing s (waitingCapture s k first vehicle lot bind visit (s.site.captureTimeout * 200 - 1))
  have waits : owner (s.beginOrder k kind) k = begunAs s begun k kind :=
    owned.trans (beginCapture_of_unmet (s := s.beginOrder k kind) unmet time ..)
  refine ⟨(begunAs s begun k kind).setPosition k, ?_, begunAs_inFlight p.memory begun k kind, rfl, fun r => ?_,
    begunAs_sameBut p.memory begun k kind⟩
  · rw [taken, takePosted_runs p inRange unclaimed, waits]
  · obtain ⟨a, b⟩ := Signals.mark_heads r .capture
    obtain ⟨redA, redB, -⟩ := Signals.lines_of_red (s := (begunAs s begun k kind).setPosition k) p.power a b
    exact ⟨redA, redB⟩

/-! The two commands. -/

theorem exec_firstWeigh (s : State) (k : SlotId) :
    exec (.firstWeigh k) s = .next (s.whenOn fun u => u.takePosted k .firstWeigh State.firstWeighOrder) := rfl

theorem exec_secondWeigh (s : State) (k : SlotId) :
    exec (.secondWeigh k) s = .next (s.whenOn fun u => u.takePosted k .secondWeigh State.secondWeighOrder) := rfl

/-- The take of a FIRST_WEIGH that is answered at once. -/
theorem exec_firstWeigh_answered {s : State} {k : SlotId} {code : AnswerCode} {body : List Byte}
    (p : s.Posted k .firstWeigh) (inRange : s.badOrderParam k .firstWeigh = none) (fits : body.length ≤ 64)
    (owned : (s.beginOrder k .firstWeigh).firstWeighOrder k = (s.beginOrder k .firstWeigh).answer k code body) :
    ∃ t : State, exec (.firstWeigh k) s = .next t ∧ AnsweredAs k code body s s t :=
  exec_answered (exec_firstWeigh s k) p inRange rfl fits rfl owned

/-- The take of a SECOND_WEIGH that is answered at once. -/
theorem exec_secondWeigh_answered {s : State} {k : SlotId} {code : AnswerCode} {body : List Byte}
    (p : s.Posted k .secondWeigh) (inRange : s.badOrderParam k .secondWeigh = none) (fits : body.length ≤ 64)
    (owned : (s.beginOrder k .secondWeigh).secondWeighOrder k = (s.beginOrder k .secondWeigh).answer k code body) :
    ∃ t : State, exec (.secondWeigh k) s = .next t ∧ AnsweredAs k code body s s t :=
  exec_answered (exec_secondWeigh s k) p inRange rfl fits rfl owned

/-- The vehicle and the visit table are the same in the state of the take. -/
theorem beginOrder_placeOfVehicle {s : State} (w : s.mem.wf = true) (k : SlotId) (kind : OrderKind) :
    (s.beginOrder k kind).placeOfVehicle ((s.beginOrder k kind).orderVehicle k)
      = s.placeOfVehicle (s.orderVehicle k) := by
  rw [beginOrder_orderVehicle w]
  rfl

theorem beginOrder_heldPlace {s : State} (w : s.mem.wf = true) (k : SlotId) (kind : OrderKind) :
    (s.beginOrder k kind).heldPlace ((s.beginOrder k kind).orderVehicle k) = s.heldPlace (s.orderVehicle k) := by
  rw [beginOrder_orderVehicle w]
  rfl

theorem bytes32_fits (w : W32) : (bytes32 w).length ≤ 64 :=
  Nat.le_of_ble_eq_true rfl

/-- Settles O49: the shared refusals, then each order by what the visit table holds. -/
theorem weighOrdersBeginACapture : Obligations.WeighOrdersBeginACapture := by
  refine ⟨?refusal, ?firstRefused, ?secondRefused, ?first, ?second⟩
  case refusal =>
    intro s
    refine ⟨captureRefusal_of_busy, captureRefusal_of_session, fun c closed latched => ?_,
      fun c closed sound unset => ?_, fun c closed sound set => ?_⟩
    all_goals rw [captureRefusal_of_undisturbed ⟨c, closed⟩]
    · rw [if_pos latched]
    · simp [sound, unset]
    · simp [sound, set]
  case firstRefused =>
    intro s k code p inRange refused
    exact exec_firstWeigh_answered p inRange (Nat.zero_le _)
      (firstWeighOrder_of_refused (s := s.beginOrder k .firstWeigh) refused k)
  case secondRefused =>
    intro s k code p inRange refused
    exact exec_secondWeigh_answered p inRange (Nat.zero_le _)
      (secondWeighOrder_of_refused (s := s.beginOrder k .secondWeigh) refused k)
  case first =>
    intro s k p inRange free
    have same := beginOrder_placeOfVehicle p.memory k .firstWeigh
    refine ⟨fun i v found entry => ?_, fun new full => ?_, fun new room unmet time => ?_⟩
    · exact exec_firstWeigh_answered p inRange (bytes32_fits _)
        (firstWeighOrder_of_visit (s := s.beginOrder k .firstWeigh) free (same.trans found) entry)
    · exact exec_firstWeigh_answered p inRange (Nat.zero_le _)
        (firstWeighOrder_of_full (s := s.beginOrder k .firstWeigh) free (same.trans new) full)
    · refine exec_begins (exec_firstWeigh s k) p inRange rfl ?_ unmet time
      have begins := firstWeighOrder_begins (s := s.beginOrder k .firstWeigh) free (same.trans new) room
      rwa [beginOrder_orderVehicle p.memory, beginOrder_order32 p.memory, beginOrder_order16 p.memory] at begins
  case second =>
    intro s k p inRange free
    have same := beginOrder_heldPlace p.memory k .secondWeigh
    refine ⟨fun absent => ?_, fun i v found entry unmet time => ?_⟩
    · exact exec_secondWeigh_answered p inRange (Nat.zero_le _)
        (secondWeighOrder_of_absent (s := s.beginOrder k .secondWeigh) free (same.trans absent))
    · refine exec_begins (exec_secondWeigh s k) p inRange rfl ?_ unmet time
      have begins := secondWeighOrder_begins (s := s.beginOrder k .secondWeigh) free (same.trans found) entry
      rwa [beginOrder_orderVehicle p.memory] at begins

end Sys2Proof.Captures
end

section
/-! SUPPORT. The host's bus (sections 6.1 to 6.5): which region an address falls in, what the ownership check makes of
a write there, what a write does by that judgement, and the statements about slots, pages, staging area and
registers. -/

namespace Sys2Proof.Bus

open Sys2Proof Sys2Proof.Machine

/-! Addresses and regions (section 6.1). -/

/-- The word address of an even offset in the memory leads back to the offset. -/
theorem two_mul_wordAt {x : Nat} (even : x % 2 = 0) (inside : x < 0x8000) : 2 * (wordAt x).toNat = x := by
  rw [wordAt, BitVec.toNat_ofNat, Nat.mod_eq_of_lt (by omega)]
  omega

theorem two_mul_wordAt_slot (k : SlotId) : 2 * (wordAt (slotBase k)).toNat = slotBase k :=
  two_mul_wordAt (by unfold slotBase; omega) (by unfold slotBase; omega)

theorem two_mul_wordAt_page (p : PageId) : 2 * (wordAt (pageBase p)).toNat = pageBase p :=
  two_mul_wordAt (by unfold pageBase; omega) (by unfold pageBase; omega)

theorem regionOf_slot (k : SlotId) {o : Nat} (h : o < 128) : regionOf (slotBase k + o) = .slot k o := by
  have quotient : (slotBase k + o - 0x400) / 128 = k.val := by unfold slotBase; omega
  have remainder : (slotBase k + o - 0x400) % 128 = o := by unfold slotBase; omega
  have lower := slotBase_lower k
  have upper := slotBase_upper k
  rw [regionOf, if_neg (by omega), if_neg (by omega), if_pos (by omega), quotient, remainder, Fin.ofNat_val_eq_self]

theorem regionOf_page (p : PageId) {o : Nat} (h : o < 256) : regionOf (pageBase p + o) = .page p o := by
  have quotient : (pageBase p + o - 0x1C00) / 256 = p.val := by unfold pageBase; omega
  have remainder : (pageBase p + o - 0x1C00) % 256 = o := by unfold pageBase; omega
  have lower := pageBase_lower p
  rw [regionOf, if_neg (by omega), if_neg (by omega), if_neg (by omega), if_neg (by omega), quotient, remainder,
    Fin.ofNat_val_eq_self]

theorem regionOf_staging {x : Nat} (lower : 0xC00 ≤ x) (upper : x < 0x1C00) : regionOf x = .staging := by
  rw [regionOf, if_neg (by omega), if_neg (by omega), if_neg (by omega), if_pos upper]

/-- Every offset outside the slots, the staging area and the pages is the header's or the board's. -/
theorem regionOf_low {x : Nat} (h : x < 0x400) : regionOf x = .header ∨ regionOf x = .board := by
  unfold regionOf
  split
  · exact .inl rfl
  · exact .inr rfl

/-! What the ownership check makes of a write (R102 to R104). -/

/-- The four transitions that the host makes (R102). -/
theorem judgeSlotState_stored_iff {st v : W16} :
    judgeSlotState st v = .stored ↔
      (st = slotEmpty ∧ v = slotPosted) ∨ (st = slotEmpty ∧ v = slotEmpty) ∨ (st = slotAnswered ∧ v = slotEmpty)
        ∨ (st = slotTaken ∧ v = slotWithdraw) := by
  unfold judgeSlotState
  split_ifs <;> simp_all

/-- A WITHDRAW that comes late: its slot has one already, or has its answer (R102). -/
theorem judgeSlotState_discarded_iff {st v : W16} :
    judgeSlotState st v = .discarded ↔ v = slotWithdraw ∧ (st = slotWithdraw ∨ st = slotAnswered) := by
  constructor
  · unfold judgeSlotState
    split_ifs <;> simp_all
  · rintro ⟨rfl, rfl | rfl⟩ <;> rfl

theorem eq_refused_of_ne {j : Judgement} (stored : j ≠ .stored) (discarded : j ≠ .discarded) : j = .refused := by
  cases j <;> simp_all

theorem judgeWrite_slotState (s : State) (k : SlotId) (v : W16) :
    s.judgeWrite (slotBase k) v = judgeSlotState (s.slotState k) v := by
  have region : regionOf (slotBase k) = .slot k 0 := regionOf_slot k (o := 0) (by decide)
  rw [State.judgeWrite, region]
  rfl

/-- The head words and the order body are the host's while the slot is EMPTY (R103). -/
theorem judgeWrite_order (s : State) (k : SlotId) (v : W16) {o : Nat} (positive : 0 < o) (h : o < 64) :
    s.judgeWrite (slotBase k + o) v = if s.slotState k = slotEmpty then .stored else .refused := by
  rw [State.judgeWrite, regionOf_slot k (by omega)]
  dsimp only
  rw [if_neg (by omega), if_pos h]

/-- The answer body is never the host's (R103). -/
theorem judgeWrite_answer (s : State) (k : SlotId) (v : W16) {o : Nat} (lower : 64 ≤ o) (upper : o < 128) :
    s.judgeWrite (slotBase k + o) v = .refused := by
  rw [State.judgeWrite, regionOf_slot k upper]
  dsimp only
  rw [if_neg (by omega), if_neg (by omega)]

/-- In the slot of an order, the state word alone can be written (R102, R103). -/
theorem judgeWrite_busySlot {s : State} {k : SlotId} (busy : s.slotState k ≠ slotEmpty) (v : W16) {o : Nat}
    (positive : 0 < o) (upper : o < 128) : s.judgeWrite (slotBase k + o) v = .refused := by
  obtain order | body := Nat.lt_or_ge o 64
  · rw [judgeWrite_order s k v positive order, if_neg busy]
  · exact judgeWrite_answer s k v body upper

theorem judgeWrite_low (s : State) (v : W16) {x : Nat} (h : x < 0x400) : s.judgeWrite x v = .refused := by
  rcases regionOf_low h with region | region <;> rw [State.judgeWrite, region]

/-- The staging area is the host's while no order claims it (R104). -/
theorem judgeWrite_staging (s : State) (v : W16) {x : Nat} (lower : 0xC00 ≤ x) (upper : x < 0x1C00) :
    s.judgeWrite x v = if s.intake.claim.isNone then .stored else .refused := by
  rw [State.judgeWrite, regionOf_staging lower upper]

/-- Of a page the host writes RETURNED alone, and only over PUBLISHED (R104). -/
theorem judgeWrite_page (s : State) (p : PageId) (v : W16) {o : Nat} (h : o < 256) :
    s.judgeWrite (pageBase p + o) v =
      if o = 0 ∧ s.pageState p = pagePublished ∧ v = pageReturned then .stored else .refused := by
  rw [State.judgeWrite, regionOf_page p h]

/-! What a write does by its judgement (R99, R105). -/

/-- A refused write marks PROTOCOL, and the first one is latched and shown (R105). -/
theorem refuseWrite_eq (s : State) (a : WordAddr) : s.refuseWrite a = s.refused a := by
  unfold State.refuseWrite State.refused State.setCause
  dsimp only
  cases s.regs.refused <;> simp [State.writeWord]

theorem hostWrite_of_discarded {s : State} {a : WordAddr} {v : W16}
    (judged : s.judgeWrite (2 * a.toNat) v = .discarded) : s.hostWrite a v = s := by
  rw [State.hostWrite, judged]

theorem hostWrite_of_refused {s : State} {a : WordAddr} {v : W16}
    (judged : s.judgeWrite (2 * a.toNat) v = .refused) : s.hostWrite a v = s.refused a := by
  rw [State.hostWrite, judged, ← refuseWrite_eq]

/-- Below the pages, a stored write stores its word. -/
theorem hostWrite_of_stored {s : State} {a : WordAddr} {v : W16} {x : Nat} (offset : 2 * a.toNat = x)
    (judged : s.judgeWrite x v = .stored) (below : x < 0x1C00) : s.hostWrite a v = s.writeWord x v := by
  have noPage : ∀ p o, regionOf x ≠ .page p o := by
    intro p o
    unfold regionOf
    split_ifs <;> simp
  rw [State.hostWrite, offset, judged]
  dsimp only
  unfold State.storeWrite
  split
  · rename_i region
    exact absurd region (noPage _ _)
  · rfl

/-- RETURNED written to a PUBLISHED page reaches the journal (R104, R155). -/
theorem hostWrite_of_returned {s : State} {p : PageId} (published : s.pageState p = pagePublished) :
    s.hostWrite (wordAt (pageBase p)) pageReturned = s.returnPage p := by
  have judged : s.judgeWrite (pageBase p) pageReturned = .stored :=
    (judgeWrite_page s p pageReturned (o := 0) (by decide)).trans (if_pos ⟨rfl, published, rfl⟩)
  have region : regionOf (pageBase p) = .page p 0 := regionOf_page p (o := 0) (by decide)
  rw [State.hostWrite, two_mul_wordAt_page, judged]
  dsimp only
  rw [State.storeWrite, region]

/-- A part that runs takes a host write as it stands. -/
theorem exec_hostMemoryWrite {s : State} (r : s.Ready) (a : WordAddr) (v : W16) :
    exec (.hostMemoryWrite a v) s = .next (s.hostWrite a v) :=
  congrArg Host.Outcome.next (whenOn_of_ready r _)

theorem exec_refused {s : State} (r : s.Ready) {a : WordAddr} {v : W16} {x : Nat} (offset : 2 * a.toNat = x)
    (judged : s.judgeWrite x v = .refused) : exec (.hostMemoryWrite a v) s = .next (s.refused a) := by
  rw [exec_hostMemoryWrite r, hostWrite_of_refused (offset ▸ judged)]

theorem exec_stored {s : State} (r : s.Ready) {a : WordAddr} {v : W16} {x : Nat} (offset : 2 * a.toNat = x)
    (judged : s.judgeWrite x v = .stored) (below : x < 0x1C00) :
    exec (.hostMemoryWrite a v) s = .next (s.writeWord x v) := by
  rw [exec_hostMemoryWrite r, hostWrite_of_stored offset judged below]

/-! The state word of a slot (R102). -/

section SlotWord

variable {s : State} (r : s.Ready) {k : SlotId} {v : W16}

include r

theorem exec_slotWord_stored (judged : judgeSlotState (s.slotState k) v = .stored) :
    exec (.hostMemoryWrite (wordAt (slotBase k)) v) s = .next (s.writeWord (slotBase k) v) :=
  exec_stored r (two_mul_wordAt_slot k) ((judgeWrite_slotState s k v).trans judged)
    (by have := slotBase_upper k; omega)

theorem exec_slotWord_discarded (judged : judgeSlotState (s.slotState k) v = .discarded) :
    exec (.hostMemoryWrite (wordAt (slotBase k)) v) s = .next s := by
  rw [exec_hostMemoryWrite r,
    hostWrite_of_discarded (by rw [two_mul_wordAt_slot, judgeWrite_slotState, judged])]

theorem exec_slotWord_refused (stored : judgeSlotState (s.slotState k) v ≠ .stored)
    (discarded : judgeSlotState (s.slotState k) v ≠ .discarded) :
    exec (.hostMemoryWrite (wordAt (slotBase k)) v) s = .next (s.refused (wordAt (slotBase k))) :=
  exec_refused r (two_mul_wordAt_slot k) ((judgeWrite_slotState s k v).trans (eq_refused_of_ne stored discarded))

/-- A transition that is stored changes the state word and nothing else. -/
theorem exec_slotWord_transition (w : s.mem.wf = true) (judged : judgeSlotState (s.slotState k) v = .stored) :
    ∃ t : State, exec (.hostMemoryWrite (wordAt (slotBase k)) v) s = .next t ∧ t = { s with mem := t.mem }
      ∧ t.slotState k = v ∧ Memory.SameBut (bytesFrom (slotBase k) 2) s.mem t.mem := by
  have upper := slotBase_upper k
  refine ⟨_, exec_slotWord_stored r judged, rfl, Memory.read16_write16 w ?_,
    Memory.SameBut.write16 w ⟨by omega, by omega⟩ ⟨by omega, by omega⟩⟩
  unfold Memory.size
  omega

end SlotWord

theorem exec_slotPosted (s : State) (k : SlotId) :
    exec (.slotPosted k) s = exec (.hostMemoryWrite (wordAt (slotBase k)) slotPosted) s := rfl

theorem exec_slotWithdraw (s : State) (k : SlotId) :
    exec (.slotWithdraw k) s = exec (.hostMemoryWrite (wordAt (slotBase k)) slotWithdraw) s := rfl

theorem exec_slotEmptied (s : State) (k : SlotId) :
    exec (.slotEmptied k) s = exec (.hostMemoryWrite (wordAt (slotBase k)) slotEmpty) s := rfl

theorem exec_pageReturn (s : State) (p : PageId) :
    exec (.pageReturn p) s = exec (.hostMemoryWrite (wordAt (pageBase p)) pageReturned) s := rfl

/-- Settles O35: the three judgements of a state word, and the commands that are writes of one. -/
theorem slotStateWordTransitions : Obligations.SlotStateWordTransitions := by
  refine ⟨fun s k v r => ⟨fun accepted => ?_, fun late => ?_, fun notAccepted notLate => ?_⟩, fun s k w r =>
    ⟨fun empty => ?_, fun taken => ?_, fun answered => ?_, fun busy => ?_, fun early => ?_, fun busy unanswered => ?_⟩⟩
  · exact exec_slotWord_stored r (judgeSlotState_stored_iff.mpr accepted)
  · exact exec_slotWord_discarded r (judgeSlotState_discarded_iff.mpr late)
  · exact exec_slotWord_refused r (judgeSlotState_stored_iff.not.mpr notAccepted)
      (judgeSlotState_discarded_iff.not.mpr notLate)
  · exact exec_slotWord_transition r w (judgeSlotState_stored_iff.mpr (.inl ⟨empty, rfl⟩))
  · exact exec_slotWord_transition r w (judgeSlotState_stored_iff.mpr (.inr (.inr (.inr ⟨taken, rfl⟩))))
  · exact exec_slotWord_transition r w (judgeSlotState_stored_iff.mpr (.inr (.inr (.inl ⟨answered, rfl⟩))))
  · rw [exec_slotPosted]
    refine exec_slotWord_refused r (judgeSlotState_stored_iff.not.mpr ?_) (judgeSlotState_discarded_iff.not.mpr ?_)
    · simp [busy, show slotPosted ≠ slotEmpty by decide, show slotPosted ≠ slotWithdraw by decide]
    · simp [show slotPosted ≠ slotWithdraw by decide]
  · rw [exec_slotWithdraw]
    rcases early with st | st <;>
      exact exec_slotWord_refused r (by rw [st]; decide) (by rw [st]; decide)
  · rw [exec_slotEmptied]
    refine exec_slotWord_refused r (judgeSlotState_stored_iff.not.mpr ?_) (judgeSlotState_discarded_iff.not.mpr ?_)
    · simp [busy, unanswered, show slotEmpty ≠ slotWithdraw by decide]
    · simp [show slotEmpty ≠ slotWithdraw by decide]

/-! The rest of a slot (R103). -/

/-- An answer's code and length stand in its slot (R110). -/
theorem answer_code_and_length {s : State} (w : s.mem.wf = true) (k : SlotId) (code : AnswerCode)
    (body : List Byte) :
    (s.answer k code body).mem.read16 (slotBase k + 6) = code.code
      ∧ (s.answer k code body).mem.read16 (slotBase k + 8) = BitVec.ofNat 16 body.length := by
  have size : Memory.size = 0x8000 := rfl
  have upper := slotBase_upper k
  have bodied := Memory.writeBytes_wf (x := slotBase k + 0x40) (bs := padTo 64 body) w
  have counted := Memory.write16_wf (x := slotBase k + 8) (v := BitVec.ofNat 16 body.length) bodied
  have coded := Memory.write16_wf (x := slotBase k + 6) (v := code.code) counted
  rw [answer_mem]
  constructor
  · rw [Memory.read16_write16_other coded (by omega), Memory.read16_write16 counted (by omega)]
  · rw [Memory.read16_write16_other coded (by omega), Memory.read16_write16_other counted (by omega),
      Memory.read16_write16 bodied (by omega)]

theorem writeWord_sameBut {s : State} (w : s.mem.wf = true) (x : Nat) (v : W16) :
    Memory.SameBut (bytesFrom x 2) s.mem (s.writeWord x v).mem :=
  Memory.SameBut.write16 w ⟨by omega, by omega⟩ ⟨by omega, by omega⟩

/-- A refused write changes the header's copy of the latch alone (R105). -/
theorem refused_sameBut {s : State} (w : s.mem.wf = true) (a : WordAddr) :
    Memory.SameBut (bytesFrom hdrRefused 2) s.mem (s.refused a).mem := by
  unfold State.refused
  dsimp only
  split
  · exact writeWord_sameBut w hdrRefused _
  · exact Memory.SameBut.refl _ _

/-- Stored writes change the word written, or are the journal's affair (R104). -/
theorem storeWrite_sameBut {s : State} (w : s.mem.wf = true) (x : Nat) (v : W16) :
    Memory.SameBut (fun y => bytesFrom x 2 y ∨ journalBytes y) s.mem (s.storeWrite x v).mem := by
  unfold State.storeWrite
  split
  · exact ((returnPage_journaled s _).memory w).mono fun _ => .inr
  · exact (writeWord_sameBut w x v).mono fun _ => .inl

/-- While a slot is not EMPTY, no host write changes the order in it: the head words after the state word, and the
order body (R103). -/
theorem hostWrite_keeps_order {s : State} (w : s.mem.wf = true) {k : SlotId} (busy : s.slotState k ≠ slotEmpty)
    (a : WordAddr) (v : W16) {x : Nat} (order : bytesFrom (slotBase k + 2) 62 x) :
    (s.hostWrite a v).mem.readByte x = s.mem.readByte x := by
  obtain ⟨first, last⟩ := order
  have lower := slotBase_lower k
  have upper := slotBase_upper k
  have latch : hdrRefused = 0x32 := rfl
  have journal : hdrStoreFault = 0x30 := rfl
  cases judged : s.judgeWrite (2 * a.toNat) v with
  | discarded => rw [hostWrite_of_discarded judged]
  | refused =>
    rw [hostWrite_of_refused judged]
    refine refused_sameBut w a x ?_
    rintro ⟨-, below⟩
    omega
  | stored =>
    rw [State.hostWrite, judged]
    refine storeWrite_sameBut w (2 * a.toNat) v x ?_
    rintro (⟨reached, below⟩ | ⟨-, below⟩ | above)
    · have even : slotBase k % 2 = 0 := by unfold slotBase; omega
      have inSlot : s.judgeWrite (2 * a.toNat) v = .refused := by
        have := judgeWrite_busySlot busy v (o := 2 * a.toNat - slotBase k) (by omega) (by omega)
        rwa [show slotBase k + (2 * a.toNat - slotBase k) = 2 * a.toNat by omega] at this
      rw [judged] at inSlot
      cases inSlot
    · omega
    · omega

/-- Settles O36: the judgement of each part of a slot, what an answer writes, and what no host write does. -/
theorem theRestOfASlotIsWrittenWhileEmpty : Obligations.TheRestOfASlotIsWrittenWhileEmpty := by
  refine ⟨fun s k a v o r offset => ⟨fun positive h empty => ?_, fun positive h busy => ?_, fun lower upper => ?_⟩,
    fun s k code body w _ => answer_code_and_length w k code body, fun s t k a v w r busy written x order => ?_⟩
  · have upper := slotBase_upper k
    exact exec_stored r offset ((judgeWrite_order s k v positive h).trans (if_pos empty)) (by omega)
  · exact exec_refused r offset ((judgeWrite_order s k v positive h).trans (if_neg busy))
  · exact exec_refused r offset (judgeWrite_answer s k v lower upper)
  · rw [exec_hostMemoryWrite r] at written
    cases written
    exact hostWrite_keeps_order w busy a v order

/-! Outside the slots (R104). -/

theorem exec_returned {s : State} (r : s.Ready) {p : PageId} (published : s.pageState p = pagePublished) :
    exec (.hostMemoryWrite (wordAt (pageBase p)) pageReturned) s = .next (s.returnPage p) := by
  rw [exec_hostMemoryWrite r, hostWrite_of_returned published]

/-- A page that the journal does not wait for becomes RETURNED (R104). -/
theorem returnPage_of_unawaited {s : State} {p : PageId} (h : ¬(s.journal.blocked = true ∧ s.journal.nextFill = p)) :
    s.returnPage p = { s with mem := s.mem.write16 (pageBase p) pageReturned } := by
  unfold State.returnPage
  dsimp only
  rw [if_neg (by simpa using h)]
  rfl

/-- A blocked journal opens the page it waits for, and drains (R155). -/
theorem returnPage_of_awaited {s : State} {p : PageId} (blocked : s.journal.blocked = true)
    (next : s.journal.nextFill = p) :
    s.returnPage p = ({ s with mem := s.mem.write16 (pageBase p) pageReturned } : State).openPage.drain := by
  unfold State.returnPage
  dsimp only
  rw [if_pos (by simp [blocked, next])]
  rfl

/-- Settles O37: header, board and staging area by their judgements, and a page by whether it is PUBLISHED. -/
theorem hostWritesOutsideTheSlots : Obligations.HostWritesOutsideTheSlots := by
  refine ⟨fun s a v r => ⟨fun low => ?_, fun lower upper free => ?_, fun lower upper claimed => ?_⟩,
    fun s p a v o r offset inside other => ?_, fun s p r published unawaited => ?_,
    fun s p r published blocked next => ?_, fun s p w r published => ?_, fun s p r unpublished => ?_⟩
  · exact exec_refused r rfl (judgeWrite_low s v low)
  · exact exec_stored r rfl ((judgeWrite_staging s v lower upper).trans (if_pos (by simp [free]))) upper
  · exact exec_refused r rfl ((judgeWrite_staging s v lower upper).trans (if_neg (by simpa using claimed)))
  · exact exec_refused r offset ((judgeWrite_page s p v inside).trans (if_neg other))
  · rw [exec_returned r published, returnPage_of_unawaited unawaited]
  · rw [exec_returned r published, returnPage_of_awaited blocked next]
  · have journaled := returnPage_journaled s p
    exact ⟨s.returnPage p, (exec_pageReturn s p).trans (exec_returned r published), exec_returned r published,
      journaled.eq, journaled.raised, journaled.memory w⟩
  · have judged := judgeWrite_page s p pageReturned (o := 0) (by decide)
    exact exec_refused r (two_mul_wordAt_page p) (judged.trans (if_neg fun h => unpublished h.2.1))

/-! Registers (R111 to R113). -/

/-- ATTN_N is asserted while a cause and its enable are both set (R112). -/
theorem attention_iff (s : State) :
    s.attention = true ↔ ∃ i : Nat, s.regs.cause.getLsbD i = true ∧ s.regs.enable.getLsbD i = true := by
  unfold State.attention
  rw [bne_iff_ne]
  constructor
  · intro asserted
    by_contra h
    refine asserted (BitVec.eq_of_getLsbD_eq fun i _ => ?_)
    have := not_exists.mp h i
    simpa using this
  · rintro ⟨i, cause, enable⟩ zero
    have shared := congrArg (·.getLsbD i) zero
    simp [cause, enable] at shared

/-- Settles O38: each register command on a part that runs, and the attention line. -/
theorem registerWritesAndAttention : Obligations.RegisterWritesAndAttention := by
  intro s r
  have runs : ∀ f : State → State, Host.Outcome.next (s.whenOn f) = (.next (f s) : Result) := fun f =>
    congrArg Host.Outcome.next (whenOn_of_ready r f)
  refine ⟨runs _, runs _, runs _, runs _, runs _, fun v => runs _, fun b running => ?_, fun b restarting => ?_,
    fun high v => ?_, attention_iff s⟩
  · exact (runs _).trans (congrArg _ (if_neg (by simp [running])))
  · exact (runs _).trans (congrArg _ (if_pos restarting))
  · exact runs id

end Sys2Proof.Bus
end

section
/-! SUPPORT. The first power-on of a part new from manufacture (R118, R183, assumption 8): what the verification of its
rows finds, what the exchange memory then shows, and the STARTUP record. -/

namespace Sys2Proof.StartUps

open Sys2Proof Sys2Proof.Machine

/-- A part new from manufacture, without power. -/
def newPart : State :=
  State.reset.cleared .off

/-- Nothing outlasts the loss of power but the commands that wait, the pins, the traverse clock and the rows
(R118). -/
theorem cleared_eq {s t : State} (pending : s.pending = t.pending) (pins : s.pins = t.pins)
    (clock : s.clock = t.clock) (rows : s.store.rows = t.store.rows) (p : Power) : s.cleared p = t.cleared p := by
  unfold State.cleared
  rw [pending, pins, clock, rows]

/-- Whatever a part with the rows of manufacture was before, without power it is a new part. -/
theorem losePower_eq_newPart {s : State} (pending : s.pending = []) (pins : s.pins = Pins.start)
    (rows : s.store.rows = manufactureRows) (dark : s.power ≠ .on) (left : Residue) : s.losePower left = newPart := by
  unfold State.losePower
  rw [if_neg dark]
  exact cleared_eq (s := { s with clock := 0 }) (t := State.reset) pending pins rfl rows .off

/-- What the verification makes of a new part: the reset state, but for its memory and its journal. No entry arises,
and its boot count is to be written. -/
def verifiedPart : State :=
  { State.reset with
    mem := []
    journal := { Journal.start with holding := true } }

theorem verify_newPart : ((newPart.cleared .on).holdRecords).verify .powerOn = verifiedPart := by
  decide +kernel

/-- The header and the board of a new part (R118, R101). -/
def shownPart : State :=
  { verifiedPart with mem := resetMemory.clearBytes 0x1C00 0x100 }

theorem show_verifiedPart : (verifiedPart.writeHeader .powerOn).writeBoard = shownPart := by
  decide +kernel

/-- The STARTUP record is the first of page 0 (R160), after which no record was held. -/
theorem offer_shownPart :
    (shownPart.offer (shownPart.startUpRecord .powerOn)).releaseHeld = State.reset := by
  decide +kernel

/-- The site row of manufacture checks, so that no notice follows (R116). -/
theorem noticeSite_reset : State.reset.noticeSite = State.reset := by
  decide +kernel

theorem startPart_newPart : newPart.startPart .powerOn = State.reset := by
  unfold State.startPart
  rw [verify_newPart]
  dsimp only
  change ((((verifiedPart.writeHeader .powerOn).writeBoard).offer
    (((verifiedPart.writeHeader .powerOn).writeBoard).startUpRecord .powerOn)).releaseHeld).noticeSite = _
  rw [show_verifiedPart, offer_shownPart, noticeSite_reset]

theorem exec_powerLoss_dark {s : State} (dark : s.power ≠ .on) (left : Residue) :
    exec (.powerLoss left) s = .next (s.losePower left) :=
  congrArg (fun t : State => Host.Outcome.next (t.losePower left)) (if_neg dark)

/-- POWER_ON of a part without power, released, is the whole start-up (R118). -/
theorem exec_powerOn_off {s : State} (off : s.power = .off) (left : Residue) :
    exec (.powerOn false left) s = .next (s.startPart .powerOn) := by
  have settled : s.settled = s := if_neg (by simp [off])
  change Host.Outcome.next (s.settled.applyPower false left) = _
  unfold State.applyPower
  rw [settled, if_pos off]
  rfl

/-- Settles O9: without power the part is a new one, and POWER_ON starts it. -/
theorem resetIsThePowerOnOfANewPart : Obligations.ResetIsThePowerOnOfANewPart := by
  intro s u left pending pins rows dark lost
  rw [exec_powerLoss_dark dark, losePower_eq_newPart pending pins rows dark] at lost
  cases lost
  rw [exec_powerOn_off rfl, startPart_newPart]

end Sys2Proof.StartUps
end

section
/-! SUPPORT. The order intake (section 6.4): the ranges of the parameters, the take of a slot and its immediate
answers, the sweep, and the statements about them and about READ_SITE (R115). -/

namespace Sys2Proof.Intake

open Sys2Proof Sys2Proof.Machine Sys2Proof.Orders

/-! The command of an order and the take by the sweep (R107, assumption 5). -/

theorem exec_orderCommand (s : State) (k : SlotId) (kind : OrderKind) :
    exec (orderCommand k kind) s = .next (s.whenOn fun t => t.takePosted k kind (ownerOf kind)) := by
  cases kind <;> rfl

theorem takePosted_of_not {s : State} {k : SlotId} {kind : OrderKind}
    (h : ¬(s.regs.run = true ∧ s.slotState k = slotPosted ∧ OrderKind.ofCode (s.slotKind k) = some kind))
    (owner : State → SlotId → State) : s.takePosted k kind owner = s :=
  if_neg (by simpa [and_assoc] using h)

theorem takeSlot_of_known {s : State} {k : SlotId} {kind : OrderKind}
    (known : OrderKind.ofCode (s.slotKind k) = some kind) : s.takeSlot k = s.takeOrder k kind (ownerOf kind) := by
  simp only [State.takeSlot, known]

theorem takeSlot_of_unknown {s : State} {k : SlotId} (unknown : OrderKind.ofCode (s.slotKind k) = none) :
    s.takeSlot k = (s.writeWord (slotBase k) slotTaken).answer k .badOrder [] := by
  simp only [State.takeSlot, unknown]

/-- The command takes the slot as the sweep does, and the sweep position becomes the slot. -/
theorem takePosted_eq_takeSlot {s : State} {k : SlotId} {kind : OrderKind} (p : s.Posted k kind) :
    s.takePosted k kind (ownerOf kind) = (s.takeSlot k).setPosition k := by
  unfold State.takePosted
  rw [if_pos (by simp [p.run, p.posted, p.kind]), takeSlot_of_known p.kind]

/-- The answer that the intake gives before an owner sees the order. -/
theorem beginOrder_answeredAs {s : State} {k : SlotId} {code : AnswerCode} {body : List Byte} (w : s.mem.wf = true)
    (kind : OrderKind) (fits : body.length ≤ 64) :
    AnsweredAs k code body s s (((s.beginOrder k kind).answer k code body).setPosition k) :=
  begunAs_answeredAs w fits rfl

/-- A slot of unknown kind is answered without an order in flight. -/
theorem takeSlot_badOrder {s : State} {k : SlotId} (w : s.mem.wf = true)
    (unknown : OrderKind.ofCode (s.slotKind k) = none) :
    AnsweredAs k .badOrder [] s s ((s.takeSlot k).setPosition k) := by
  have taken : (s.writeWord (slotBase k) slotTaken).mem.wf = true := Memory.write16_wf w
  rw [takeSlot_of_unknown unknown]
  exact
    { answered := answer_answered (u := s.writeWord (slotBase k) slotTaken) taken (Nat.zero_le _) ⟨rfl, rfl⟩
      rest := answer_rest (s.writeWord (slotBase k) slotTaken) k .badOrder []
      memory := (beginOrder_sameBut w k .zero).trans (answer_sameBut (u := s.writeWord (slotBase k) slotTaken) taken (Nat.zero_le _)) }

/-- An order that claims the staging area has no parameter to be out of range. -/
theorem badOrderParam_of_claimsStaging {kind : OrderKind} (claims : kind.claimsStaging = true) (s : State)
    (k : SlotId) : s.badOrderParam k kind = none := by
  cases kind
  case loadClasses | setSite | readSite | stageParams | readMetrology => rfl
  all_goals cases claims

/-! The sweep (R106). -/

theorem sweep_of_stopped {s : State} (stopped : s.regs.run = false) : s.sweep = s :=
  if_neg (by simp [stopped])

theorem sweep_of_run {s t : State} {last : Option SlotId} (run : s.regs.run = true)
    (swept : (Machine.rotation s.intake.position).foldl examineSlot (s, none) = (t, last)) :
    s.sweep = last.elim t fun k => t.setPosition k := by
  unfold State.sweep
  dsimp only
  rw [if_pos run, swept]
  cases last <;> rfl

theorem rotation_getElem? (p : SlotId) {i : Nat} (h : i < 16) :
    (Machine.rotation p)[i]? = some (Fin.ofNat 16 (p.val + 1 + i)) := by
  simp [Machine.rotation, h]

/-- The sweep visits each slot once, and the one at the sweep position last. -/
theorem rotation_complete (p : SlotId) :
    (Machine.rotation p).Nodup ∧ (∀ k : SlotId, k ∈ Machine.rotation p) ∧ (Machine.rotation p).getLast? = some p := by
  revert p
  decide

/-- A withdrawal is due where the host has written one and its order has not been told (R106). -/
theorem withdrawalDue_iff {s : State} {k : SlotId} :
    s.withdrawalDue k = true ↔ s.slotState k = slotWithdraw ∧ ∃ f, s.flightOf k = some f ∧ f.withdrawn = false := by
  unfold State.withdrawalDue
  cases s.flightOf k <;> simp

section Examine

variable {s : State} {k : SlotId} (last : Option SlotId)

theorem examineSlot_of_posted (posted : s.slotState k = slotPosted) :
    examineSlot (s, last) k = (s.takeSlot k, some k) :=
  if_pos posted

theorem examineSlot_of_due (due : s.withdrawalDue k = true) :
    examineSlot (s, last) k = (s.handWithdrawal k, last) := by
  have unposted : s.slotState k ≠ slotPosted := by
    rw [(withdrawalDue_iff.mp due).1]
    decide
  exact (if_neg unposted).trans (if_pos due)

theorem examineSlot_of_idle (unposted : s.slotState k ≠ slotPosted) (undue : ¬s.withdrawalDue k = true) :
    examineSlot (s, last) k = (s, last) :=
  (if_neg unposted).trans (if_neg undue)

end Examine

/-! The ranges of the parameters (R107, step 3). -/

/-- A mask names a deck where one of its bits is set. -/
theorem maskDecks_isEmpty_iff {mask : W16} :
    (maskDecks mask).isEmpty = true ↔ ¬∃ d : DeckId, mask.getLsbD d.val = true := by
  have all : ∀ d : DeckId, d ∈ allDecks := by decide
  simp [maskDecks, all]

theorem mem_maskDecks {mask : W16} {d : DeckId} : d ∈ maskDecks mask ↔ mask.getLsbD d.val = true := by
  have all : d ∈ allDecks := by revert d; decide
  simp [maskDecks, all]

/-- The mask of a calibration names a deck, and no bit above bit 3 (R168). -/
def MaskNamesDecks (mask : W16) : Prop :=
  (∃ d : DeckId, mask.getLsbD d.val = true) ∧ mask.toNat ≤ 15

theorem not_maskBad_iff {mask : W16} :
    ¬((maskDecks mask).isEmpty || decide (15 < mask.toNat)) = true ↔ MaskNamesDecks mask := by
  rw [Bool.or_eq_true, not_or, maskDecks_isEmpty_iff, not_not, decide_eq_true_eq, Nat.not_lt, MaskNamesDecks]

theorem maskValid_iff {m : MetroSet} {mask : W16} :
    maskValid m mask = true ↔
      (∃ d : DeckId, mask.getLsbD d.val = true) ∧ mask.toNat ≤ 15
        ∧ ∀ d : DeckId, mask.getLsbD d.val = true → m.isEnabled d = true := by
  unfold maskValid
  rw [Bool.and_eq_true, Bool.and_eq_true, Bool.not_eq_true', ← Bool.not_eq_true, maskDecks_isEmpty_iff, not_not,
    decide_eq_true_eq, List.all_eq_true, and_assoc, Nat.lt_succ_iff]
  simp only [mem_maskDecks]

/-- A vehicle reference is twelve printing characters, the first not a space (R121). -/
def IsReference (v : List Byte) : Prop :=
  v.length = 12 ∧ (∀ b ∈ v, 0x20 ≤ b.toNat ∧ b.toNat ≤ 0x7E) ∧ v.headD 0x20 ≠ 0x20

theorem vehicleValid_iff {v : List Byte} : vehicleValid v = true ↔ IsReference v := by
  simp [vehicleValid, IsReference, and_assoc]

theorem signalsBadParam_none_iff {a b pattern period : Nat} :
    signalsBadParam a b pattern period = none ↔
      a ≤ 2 ∧ b ≤ 2 ∧ pattern ≤ 2 ∧ (pattern = 2 → 100 ≤ period ∧ period ≤ 2000) := by
  unfold signalsBadParam
  split_ifs <;> simp <;> omega

section Ranges

variable (s : State) (k : SlotId)

theorem clearCell_inRange_iff : s.badOrderParam k .clearCell = none ↔ (s.order16 k 0).toNat ≤ 23 := by
  simp [State.badOrderParam]

theorem armClass_inRange_iff : s.badOrderParam k .armClass = none ↔ (s.order16 k 0).toNat ≤ 15 := by
  simp [State.badOrderParam]

theorem zero_inRange_iff :
    s.badOrderParam k .zero = none ↔ maskValid s.metro.active (s.order16 k 0) = true := by
  simp [State.badOrderParam]

theorem firstWeigh_inRange_iff :
    s.badOrderParam k .firstWeigh = none ↔ IsReference (s.orderVehicle k) ∧ (s.order16 k 16).toNat ≤ 1 := by
  rw [← vehicleValid_iff]
  simp only [State.badOrderParam]
  split_ifs <;> simp_all

theorem secondWeigh_inRange_iff : s.badOrderParam k .secondWeigh = none ↔ IsReference (s.orderVehicle k) := by
  simp [State.badOrderParam, vehicleValid_iff]

theorem voidVisit_inRange_iff : s.badOrderParam k .voidVisit = none ↔ IsReference (s.orderVehicle k) :=
  secondWeigh_inRange_iff s k

theorem zeroCal_inRange_iff : s.badOrderParam k .zeroCal = none ↔ MaskNamesDecks (s.order16 k 0) := by
  rw [← not_maskBad_iff]
  exact ite_eq_right_iff.trans (imp_congr_right fun _ => iff_of_false nofun id)

theorem spanCal_inRange_iff :
    s.badOrderParam k .spanCal = none ↔
      1000000 ≤ (s.order32 k 2).toInt ∧ (s.order32 k 2).toInt ≤ 200000000 := by
  simp [State.badOrderParam]

theorem cornerRead_inRange_iff :
    s.badOrderParam k .cornerRead = none ↔ (s.order16 k 0).toNat ≤ 3 ∧ (s.order16 k 2).toNat ≤ 23 := by
  simp only [State.badOrderParam]
  split_ifs <;> simp <;> omega

/-- TEST_LOAD checks its mask as ZERO_CAL does, then the reference mass, then the mode. -/
theorem badOrderParam_testLoad :
    s.badOrderParam k .testLoad =
      if s.badOrderParam k .zeroCal ≠ none then some 0
      else if (s.order32 k 2).toInt < 0 ∨ 800000000 < (s.order32 k 2).toInt then some 1
      else if 2 < (s.order16 k 6).toNat then some 2
      else none := by
  simp only [State.badOrderParam]
  split_ifs <;> simp_all

theorem testLoad_inRange_iff :
    s.badOrderParam k .testLoad = none ↔
      MaskNamesDecks (s.order16 k 0) ∧ 0 ≤ (s.order32 k 2).toInt ∧ (s.order32 k 2).toInt ≤ 800000000
        ∧ (s.order16 k 6).toNat ≤ 2 := by
  rw [badOrderParam_testLoad, ← zeroCal_inRange_iff]
  split_ifs <;> simp_all
  omega

theorem readAudit_inRange_iff :
    s.badOrderParam k .readAudit = none ↔ 1 ≤ (s.order16 k 4).toNat ∧ (s.order16 k 4).toNat ≤ 16 := by
  simp only [State.badOrderParam]
  split_ifs <;> simp <;> omega

/-- FIRST_WEIGH checks its reference as SECOND_WEIGH does, then the binding. -/
theorem badOrderParam_firstWeigh :
    s.badOrderParam k .firstWeigh =
      if s.badOrderParam k .secondWeigh ≠ none then some 0
      else if 1 < (s.order16 k 16).toNat then some 2 else none := by
  simp only [State.badOrderParam]
  split_ifs <;> simp_all

/-- The orders whose only ranged parameter is the first. -/
theorem badOrderParam_first {kind : OrderKind} {n : Nat}
    (h : kind = .clearCell ∨ kind = .armClass ∨ kind = .zero ∨ kind = .secondWeigh ∨ kind = .voidVisit
      ∨ kind = .zeroCal) (bad : s.badOrderParam k kind = some n) : n = 0 := by
  rcases h with rfl | rfl | rfl | rfl | rfl | rfl
  all_goals
    simp only [State.badOrderParam] at bad
    split_ifs at bad
    exact (Option.some.inj bad).symm

end Ranges

/-- Settles O39: the command by whether its order is POSTED, the take's own answers, the sweep, and the range of
each parameter. -/
theorem takingAnOrder : Obligations.TakingAnOrder := by
  refine ⟨?untaken, ?taken, ?badParam, ?busy, ?badOrder, ?stopped, ?swept, ?rotation, ?examined, ?ranges, ?numbers,
    ?unranged⟩
  case untaken =>
    intro s k kind r h
    rw [exec_orderCommand, whenOn_of_ready r, takePosted_of_not h]
  case taken =>
    intro s k kind p
    rw [exec_orderCommand, whenOn_of_ready p.ready, takePosted_eq_takeSlot p]
  case badParam =>
    intro s k kind n p bad
    refine ⟨_, ?_, beginOrder_answeredAs p.memory kind (bytes16_fits _)⟩
    rw [exec_orderCommand, takePosted_bad p bad]
  case busy =>
    intro s k kind p claims claimed
    refine ⟨_, ?_, beginOrder_answeredAs p.memory kind (Nat.zero_le _)⟩
    rw [exec_orderCommand, takePosted_busy p (badOrderParam_of_claimsStaging claims s k) claims
      (Option.isSome_iff_ne_none.mpr claimed)]
  case badOrder => exact fun s k w unknown => takeSlot_badOrder w unknown
  case stopped => exact fun s stopped => sweep_of_stopped stopped
  case swept =>
    intro s t last run swept
    refine ⟨?_, fun k => ?_⟩
    all_goals
      rintro rfl
      exact sweep_of_run run swept
  case rotation =>
    intro p
    obtain ⟨once, all, final⟩ := rotation_complete p
    exact ⟨once, all, final, fun i => rotation_getElem? p⟩
  case examined =>
    intro s last k
    refine ⟨examineSlot_of_posted last, fun f withdrawn flight told => ?_, fun unposted h => ?_⟩
    · exact examineSlot_of_due last (withdrawalDue_iff.mpr ⟨withdrawn, f, flight, told⟩)
    · refine examineSlot_of_idle last unposted fun due => ?_
      obtain ⟨withdrawn, f, flight, untold⟩ := withdrawalDue_iff.mp due
      simp_all
  case ranges =>
    intro s k
    exact ⟨clearCell_inRange_iff s k, armClass_inRange_iff s k, (zero_inRange_iff s k).trans maskValid_iff,
      signalsBadParam_none_iff, firstWeigh_inRange_iff s k, secondWeigh_inRange_iff s k, voidVisit_inRange_iff s k,
      zeroCal_inRange_iff s k, spanCal_inRange_iff s k, cornerRead_inRange_iff s k, testLoad_inRange_iff s k,
      readAudit_inRange_iff s k⟩
  case numbers =>
    intro s k
    refine ⟨fun kind n => badOrderParam_first s k, fun bad => if_pos bad, ?aspectB, ?pattern, ?period, ?vehicle, ?binding,
      fun bad => if_pos bad, fun bad => if_pos bad, ?cell, ?mask, ?mass, ?mode, fun bad => if_pos bad⟩
    case aspectB => exact fun a b => (if_neg (by omega)).trans (if_pos b)
    case pattern => exact fun a b c => (if_neg (by omega)).trans ((if_neg (by omega)).trans (if_pos c))
    case period =>
      exact fun a b c d =>
        (if_neg (by omega)).trans ((if_neg (by omega)).trans ((if_neg (by omega)).trans (if_pos ⟨c, d⟩)))
    case vehicle => exact fun bad => (badOrderParam_firstWeigh s k).trans (if_pos bad)
    case binding =>
      intro good bad
      rw [badOrderParam_firstWeigh, if_neg (not_not.mpr good), if_pos bad]
    case cell => exact fun a b => (if_neg (by omega)).trans (if_pos b)
    case mask => exact fun bad => (badOrderParam_testLoad s k).trans (if_pos bad)
    case mass =>
      intro good bad
      rw [badOrderParam_testLoad, if_neg (not_not.mpr good), if_pos bad]
    case mode =>
      intro good low high bad
      rw [badOrderParam_testLoad, if_neg (not_not.mpr good), if_neg (by omega), if_pos bad]
  case unranged =>
    rintro s k kind (rfl | rfl | rfl | rfl | rfl | rfl | rfl | rfl | rfl | rfl | rfl | rfl | rfl) <;> rfl

/-! READ_SITE (R115). -/

/-- Words written as bytes are read back as words. -/
theorem read16_writeBytes_words {ws : List W16} {m : Memory} {x n : Nat} (w : m.wf = true)
    (room : x + 2 * ws.length ≤ Memory.size) (h : n < ws.length) :
    (m.writeBytes x (ws.flatMap bytes16)).read16 (x + 2 * n) = ws[n] := by
  induction ws generalizing m x n with
  | nil => cases h
  | cons word ws ih =>
    rw [List.length_cons] at room h
    have first : m.writeBytes x ((word :: ws).flatMap bytes16)
        = (m.write16 x word).writeBytes (x + 2) (ws.flatMap bytes16) := rfl
    have written := Memory.write16_wf (x := x) (v := word) w
    rw [first]
    cases n with
    | zero =>
      rw [Memory.read16_writeBytes_other written (by omega)]
      exact Memory.read16_write16 w (by omega)
    | succ n =>
      rw [show x + 2 * (n + 1) = x + 2 + 2 * n by omega]
      exact ih written (by omega) (by omega)

/-- The settings as READ_SITE writes them: one word each, in field-number order (12.8). -/
def siteWords (x : Site) : List W16 :=
  x.fields.map fun (n : Nat) => field16 n

theorem siteWords_length (x : Site) : (siteWords x).length = 11 := rfl

/-- The state in which READ_SITE is answered: its claim held, and the settings in the staging area. -/
def siteShown (s : State) (k : SlotId) : State :=
  ((s.beginOrder k .readSite).claimStaging k).writeRun stagingBase ((siteWords s.site).flatMap bytes16)

/-- The part when READ_SITE has been answered. -/
def siteAnswered (s : State) (k : SlotId) : State :=
  ((siteShown s k).answer k .done []).setPosition k

theorem siteShown_mem (s : State) (k : SlotId) :
    (siteShown s k).mem =
      (s.beginOrder k .readSite).mem.writeBytes stagingBase ((siteWords s.site).flatMap bytes16) := by
  rw [siteShown, writeRun_mem, claimStaging_mem]

theorem siteShown_intake (s : State) (k : SlotId) :
    (siteShown s k).intake = ((s.beginOrder k .readSite).claimStaging k).intake := by
  rw [siteShown, writeRun_intake]

/-- The bytes of the settings are those of their words. -/
theorem flatMap_fields (x : Site) : (x.fields.flatMap fun (n : Nat) => u16 n) = (siteWords x).flatMap bytes16 := by
  rw [siteWords, List.flatMap_map]
  rfl

theorem exec_readSite {s : State} {k : SlotId} (p : s.Posted k .readSite) (free : s.intake.claim = none) :
    exec (.readSite k) s = .next (siteAnswered s k) := by
  have owned : ((s.beginOrder k .readSite).claimStaging k).readSiteOrder k = (siteShown s k).answer k .done [] := by
    rw [State.readSiteOrder, claimStaging_site, beginOrder_site, flatMap_fields, siteShown]
  rw [siteAnswered, ← owned]
  exact congrArg Host.Outcome.next (takePosted_claims p rfl rfl free State.readSiteOrder)

theorem siteShown_wf {s : State} (w : s.mem.wf = true) (k : SlotId) : (siteShown s k).mem.wf = true := by
  rw [siteShown_mem]
  exact Memory.writeBytes_wf (beginOrder_wf w k .readSite)

theorem siteShown_holds {s : State} (free : s.intake.claim = none) (k : SlotId) : Holds k s (siteShown s k) := by
  obtain ⟨flight, claim⟩ := claimStaging_holds free k .readSite
  constructor <;> rwa [siteShown_intake]

theorem siteShown_sameBut {s : State} (w : s.mem.wf = true) (k : SlotId) :
    Memory.SameBut (fun x => answerBytes k x ∨ bytesFrom stagingBase 22 x) s.mem (siteShown s k).mem := by
  rw [siteShown_mem]
  exact ((beginOrder_sameBut w k .readSite).mono fun _ => .inl).trans
    (Memory.SameBut.writeBytes (beginOrder_wf w k .readSite) fun _ lower upper => .inr ⟨lower, upper⟩)

theorem siteShown_read16 {s : State} (w : s.mem.wf = true) (k : SlotId) {n : Nat} (h : n < 11) :
    (siteShown s k).mem.read16 (stagingBase + 2 * n) = field16 (s.site.fields.getD n 0) := by
  have room : stagingBase + 2 * (siteWords s.site).length ≤ Memory.size := by
    rw [siteWords_length]
    decide
  have inside : n < s.site.fields.length := h
  rw [siteShown_mem, read16_writeBytes_words (beginOrder_wf w k .readSite) room h,
    List.getD_eq_getElem _ _ inside]
  simp only [siteWords, List.getElem_map]

theorem siteShown_eq (s : State) (k : SlotId) :
    siteShown s k = { s with mem := (siteShown s k).mem, intake := (siteShown s k).intake } := by
  simp only [siteShown, State.writeRun, State.claimStaging, State.beginOrder, State.writeWord]

/-- What READ_SITE leaves beside memory and intake is its cause. -/
theorem siteAnswered_eq (s : State) (k : SlotId) :
    siteAnswered s k =
      { s with
        mem := (siteAnswered s k).mem
        intake := (siteAnswered s k).intake
        regs := { s.regs with cause := s.regs.cause ||| causeAnswer } } := by
  rw [siteAnswered, siteShown_eq]
  simp only [State.setPosition, State.answer, State.setCause, State.writeWord, State.writeRun]

/-- After the settings have been shown, the answer is written elsewhere. -/
theorem siteAnswered_sameBut {s : State} (w : s.mem.wf = true) (k : SlotId) :
    Memory.SameBut (answerBytes k) (siteShown s k).mem (siteAnswered s k).mem :=
  answer_sameBut (siteShown_wf w k) (Nat.zero_le _)

theorem siteAnswered_answered {s : State} (w : s.mem.wf = true) (free : s.intake.claim = none) (k : SlotId) :
    Answered k .done [] s (siteAnswered s k) :=
  answer_answered (siteShown_wf w k) (Nat.zero_le _) (siteShown_holds free k)

theorem not_answerBytes_staging (k : SlotId) {x : Nat} (h : stagingBase ≤ x) : ¬answerBytes k x := by
  have upper := slotBase_upper k
  have staging : stagingBase = 0xC00 := rfl
  have sweep : hdrSweep = 0x22 := rfl
  rintro (⟨-, below⟩ | ⟨-, below⟩ | ⟨-, below⟩ | ⟨-, below⟩) <;> omega

/-- Settles O41: the settings are written under the claim, and the answer releases it. -/
theorem readSiteCopiesTheSettings : Obligations.ReadSiteCopiesTheSettings := by
  intro s k p free
  have answered := siteAnswered_answered p.memory free k
  have changed := siteAnswered_sameBut p.memory k
  refine ⟨_, exec_readSite p free, answered, ?released, fun n h => ?settings, siteAnswered_eq s k,
    (siteShown_sameBut p.memory k).trans (changed.mono fun _ => .inl)⟩
  case released => simp [answered.intake, free]
  case settings =>
    have outside := fun {x} (h : stagingBase ≤ x) => not_answerBytes_staging k h
    rw [changed.read16 (outside (by omega)) (outside (by omega)), siteShown_read16 p.memory k h]

end Sys2Proof.Intake
end

section
/-! SUPPORT. The engine clock and the expiry of visits (R117, R135): the order SET_CLOCK, the advance of engine time, the
pass over the expired entries, and the statement about them. -/

namespace Sys2Proof.Clock

open Sys2Proof Sys2Proof.Machine

/-! Engine time and its header copies (R117). -/

/-- The header's bytes that show the engine clock. -/
def clockBytes (x : Nat) : Prop :=
  bytesFrom hdrTime 4 x ∨ bytesFrom hdrClockSet 2 x

theorem setTime_mem (s : State) (c : EngineClock) :
    (s.setTime c).mem = (s.mem.write32 hdrTime c.time).write16 hdrClockSet (BitVec.ofNat 16 (bit c.isSet)) := rfl

section Shown

variable {s : State} (w : s.mem.wf = true) (c : EngineClock)

include w

theorem setTime_wf : (s.setTime c).mem.wf = true := by
  rw [setTime_mem]
  exact Memory.write16_wf (Memory.write32_wf w)

theorem setTime_time : (s.setTime c).mem.read32 hdrTime = c.time := by
  rw [setTime_mem, Memory.read32_write16_other (Memory.write32_wf w) (by decide),
    Memory.read32_write32 w (by decide)]

theorem setTime_isSet : (s.setTime c).mem.read16 hdrClockSet = BitVec.ofNat 16 (bit c.isSet) := by
  rw [setTime_mem, Memory.read16_write16 (Memory.write32_wf w) (by decide)]

theorem setTime_sameBut : Memory.SameBut clockBytes s.mem (s.setTime c).mem := by
  rw [setTime_mem]
  exact (Memory.SameBut.write32 w fun _ lower upper => .inl ⟨lower, upper⟩).trans
    (Memory.SameBut.write16 (Memory.write32_wf w) (.inr ⟨by omega, by omega⟩) (.inr ⟨by omega, by omega⟩))

end Shown

/-! SET_CLOCK (R117). -/

/-- The clock that SET_CLOCK leaves. -/
def orderedClock (s : State) (k : SlotId) : EngineClock :=
  { time := s.order32 k 0, isSet := true, second := 0 }

/-- The body of the answer: engine time and the flag as they were. -/
def clockBody (s : State) : List Byte :=
  bytes32 s.time.time ++ u16 (bit s.time.isSet)

theorem clockBody_fits (s : State) : (clockBody s).length ≤ 64 :=
  Nat.le_of_ble_eq_true rfl

/-- The part when SET_CLOCK has set the clock. -/
def clockTaken (s : State) (k : SlotId) : State :=
  (s.beginOrder k .setClock).setTime (orderedClock s k)

/-- The part when SET_CLOCK has offered its record too. -/
def clockRecorded (s : State) (k : SlotId) : State :=
  (clockTaken s k).record (clockRecord s.time.time (s.order32 k 0) s.time.isSet)

/-- The part when SET_CLOCK has been answered. -/
def clockAnswered (s : State) (k : SlotId) : State :=
  ((clockRecorded s k).answer k .done (clockBody s)).setPosition k

theorem exec_setClock {s : State} {k : SlotId} (p : s.Posted k .setClock) :
    exec (.setClock k) s = .next (clockAnswered s k) := by
  have owned : (s.beginOrder k .setClock).setClockOrder k = (clockRecorded s k).answer k .done (clockBody s) := by
    rw [State.setClockOrder, beginOrder_order32 p.memory, beginOrder_time]
    rfl
  rw [clockAnswered, ← owned]
  exact congrArg Host.Outcome.next (takePosted_runs p rfl rfl State.setClockOrder)

theorem clockTaken_regs (s : State) (k : SlotId) : (clockTaken s k).regs = s.regs := by
  simp only [clockTaken, State.setTime, writeWord_regs, writeLong_regs, beginOrder_regs]

theorem clockTaken_wf {s : State} (w : s.mem.wf = true) (k : SlotId) : (clockTaken s k).mem.wf = true :=
  setTime_wf (beginOrder_wf w k .setClock) _

theorem clockRecorded_journaled (s : State) (k : SlotId) : Journaled causeJournal (clockTaken s k) (clockRecorded s k) :=
  record_journaled _ _

theorem clockRecorded_wf {s : State} (w : s.mem.wf = true) (k : SlotId) : (clockRecorded s k).mem.wf = true :=
  (clockRecorded_journaled s k).wf (clockTaken_wf w k)

/-- Placing the record changes memory, registers and journal alone. -/
theorem clockRecorded_eq (s : State) (k : SlotId) :
    clockRecorded s k =
      { s with
        time := orderedClock s k
        intake := (s.beginOrder k .setClock).intake
        mem := (clockRecorded s k).mem
        regs := (clockRecorded s k).regs
        journal := (clockRecorded s k).journal } := by
  refine (clockRecorded_journaled s k).eq.trans ?_
  generalize (clockRecorded s k).mem = m, (clockRecorded s k).regs = r, (clockRecorded s k).journal = j
  simp only [clockTaken, State.setTime, State.beginOrder, State.writeLong, State.writeWord]

theorem clockRecorded_intake (s : State) (k : SlotId) :
    (clockRecorded s k).intake = (s.beginOrder k .setClock).intake := by
  rw [clockRecorded_eq]

theorem clockRecorded_holds (s : State) (k : SlotId) : Holds k s (clockRecorded s k) := by
  obtain ⟨flight, claim⟩ := beginOrder_holds s k .setClock
  constructor <;> rwa [clockRecorded_intake]


/-- The causes that SET_CLOCK raises: ANSWER, and JOURNAL where its record is published. -/
theorem clockAnswered_raised (s : State) (k : SlotId) :
    Registers.Raised (causeAnswer ||| causeJournal) s.regs (clockAnswered s k).regs := by
  have recorded : Registers.Raised (causeAnswer ||| causeJournal) (clockTaken s k).regs (clockRecorded s k).regs :=
    (clockRecorded_journaled s k).raised.mono (by decide)
  rw [clockTaken_regs] at recorded
  rw [clockAnswered, setPosition_regs, answer_regs]
  exact recorded.trans ⟨causeAnswer, by decide, rfl⟩

/-- What SET_CLOCK leaves beside memory, intake, registers and journal is the clock. -/
theorem clockAnswered_eq (s : State) (k : SlotId) :
    clockAnswered s k =
      { s with
        time := orderedClock s k
        mem := (clockAnswered s k).mem
        intake := (clockAnswered s k).intake
        regs := (clockAnswered s k).regs
        journal := (clockAnswered s k).journal } := by
  rw [clockAnswered, clockRecorded_eq]
  simp only [State.setPosition, State.answer, State.setCause, State.writeWord, State.writeRun]

/-- The bytes that SET_CLOCK can change. -/
def setClockBytes (k : SlotId) (x : Nat) : Prop :=
  answerBytes k x ∨ journalBytes x ∨ bytesFrom hdrTime 4 x ∨ bytesFrom hdrClockSet 2 x

section Answered

variable {s : State} (w : s.mem.wf = true) (k : SlotId)

include w

/-- After the clock has been shown, the record and the answer are written elsewhere. -/
theorem clockAnswered_sameBut_clockTaken :
    Memory.SameBut (fun x => answerBytes k x ∨ journalBytes x) (clockTaken s k).mem
      (clockAnswered s k).mem :=
  (((clockRecorded_journaled s k).memory (clockTaken_wf w k)).mono fun _ => .inr).trans
    ((answer_sameBut (clockRecorded_wf w k) (clockBody_fits s)).mono fun _ => .inl)

theorem clockAnswered_sameBut :
    Memory.SameBut (setClockBytes k) s.mem (clockAnswered s k).mem := by
  have begun : Memory.SameBut (setClockBytes k) s.mem (s.beginOrder k .setClock).mem :=
    (beginOrder_sameBut w k .setClock).mono fun _ => .inl
  have taken : Memory.SameBut (setClockBytes k) (s.beginOrder k .setClock).mem (clockTaken s k).mem :=
    (setTime_sameBut (beginOrder_wf w k .setClock) (orderedClock s k)).mono fun _ h => .inr (.inr h)
  refine (begun.trans taken).trans ((clockAnswered_sameBut_clockTaken w k).mono ?_)
  rintro x (answer | journal)
  · exact .inl answer
  · exact .inr (.inl journal)

omit w in
/-- The answer and the record leave the header's clock alone. -/
theorem not_answer_or_journal {x : Nat} (h : x < hdrSweep) : ¬(answerBytes k x ∨ journalBytes x) := by
  have lower := slotBase_lower k
  have sweep : hdrSweep = 0x22 := rfl
  have page : hdrLastPage = 0x24 := rfl
  rintro ((⟨above, -⟩ | ⟨above, -⟩ | ⟨above, -⟩ | ⟨above, -⟩) | (⟨above, -⟩ | above)) <;> omega

theorem clockAnswered_time : (clockAnswered s k).mem.read32 hdrTime = s.order32 k 0 := by
  have outside := fun {x} (h : x < hdrSweep) => not_answer_or_journal k h
  rw [(clockAnswered_sameBut_clockTaken w k).read32 (outside (by decide)) (outside (by decide))
    (outside (by decide)) (outside (by decide))]
  exact setTime_time (beginOrder_wf w k .setClock) _

theorem clockAnswered_isSet : (clockAnswered s k).mem.read16 hdrClockSet = 1 := by
  have outside := fun {x} (h : x < hdrSweep) => not_answer_or_journal k h
  rw [(clockAnswered_sameBut_clockTaken w k).read16 (outside (by decide)) (outside (by decide))]
  exact setTime_isSet (beginOrder_wf w k .setClock) _

theorem clockAnswered_answered : Answered k .done (clockBody s) s (clockAnswered s k) :=
  answer_answered (clockRecorded_wf w k) (clockBody_fits s) (clockRecorded_holds s k)

end Answered

/-! ENGINE_TIME_ADVANCE (R117). -/

/-- The part when engine time has been raised, at the stop of its cadence event. -/
def raisedTime (s : State) : State :=
  ({ s with unfinished := [] } : State).setTime { s.time with time := s.time.time + 1, second := 0 }

theorem advanceTime_of_due {s : State} (due : s.secondDue = true) :
    ({ s with unfinished := [] } : State).advanceTime = (raisedTime s).beginExpiry :=
  if_pos due

theorem exec_engineTimeAdvance (s : State) : exec .engineTimeAdvance s = .next (s.takeStopped .time) := rfl

theorem exec_engineTimeAdvance_of_stopped {s : State} {rest : List Piece} (h : s.StoppedAt .time rest) :
    exec .engineTimeAdvance s = .next ((raisedTime s).beginExpiry.run true rest) := by
  rw [exec_engineTimeAdvance, takeStopped_of_stopped h, State.takeOwn, advanceTime_of_due h.due]

/-! The entries of a pass, oldest first (R135). -/

/-- One entry goes before another in a pass: it is older, or as old with no higher a number. -/
def Before (a b : VisitEntry) : Prop :=
  a.time.toNat < b.time.toNat ∨ a.time = b.time ∧ a.number.toNat ≤ b.number.toNat

theorem expiryBefore_iff {a b : VisitEntry} : expiryBefore a b = true ↔ Before a b := by
  simp [expiryBefore, Before, BitVec.lt_def, BitVec.le_def]

theorem before_total (a b : VisitEntry) : Before a b ∨ Before b a := by
  unfold Before
  rw [← BitVec.toNat_inj, ← BitVec.toNat_inj]
  omega

theorem before_trans {a b c : VisitEntry} (ab : Before a b) (bc : Before b c) : Before a c := by
  unfold Before at *
  rw [← BitVec.toNat_inj] at *
  omega

/-- Putting an entry in its place in a pass is insertion into a sorted list. -/
theorem insertExpiry_eq_orderedInsert (e : VisitEntry) (l : List VisitEntry) :
    insertExpiry e l = l.orderedInsert (fun a b => expiryBefore a b = true) e := by
  induction l with
  | nil => rfl
  | cons x xs ih => simp only [insertExpiry, List.orderedInsert_cons, ih]

theorem foldr_insertExpiry (l : List VisitEntry) :
    l.foldr insertExpiry [] = l.insertionSort fun a b => expiryBefore a b = true :=
  congrArg (fun f => l.foldr f []) (funext fun e => funext (insertExpiry_eq_orderedInsert e))

theorem mem_expiredEntries {s : State} {age : Nat} {e : VisitEntry} :
    e ∈ s.expiredEntries age ↔
      ∃ v, some v ∈ s.visits.places ∧ v.status = .held ∧ v.entry = e
        ∧ e.time.toNat + age * 3600 < s.time.time.toNat := by
  rw [State.expiredEntries, foldr_insertExpiry, List.mem_insertionSort, List.mem_filterMap]
  constructor
  · rintro ⟨_ | v, place, found⟩
    · cases found
    · dsimp only at found
      split at found
      · rename_i held
        cases found
        simp only [Bool.and_eq_true, beq_iff_eq, expired, decide_eq_true_eq] at held
        exact ⟨v, place, held.1, rfl, held.2⟩
      · cases found
  · rintro ⟨v, place, held, rfl, old⟩
    exact ⟨some v, place, if_pos (by simp [held, expired, old])⟩

theorem expiredEntries_sorted (s : State) (age : Nat) : (s.expiredEntries age).Pairwise Before := by
  have total : Std.Total fun a b => expiryBefore a b = true :=
    ⟨fun a b => by simpa only [expiryBefore_iff] using before_total a b⟩
  have transitive : IsTrans VisitEntry fun a b => expiryBefore a b = true :=
    ⟨fun a b c => by simpa only [expiryBefore_iff] using before_trans⟩
  rw [State.expiredEntries, foldr_insertExpiry]
  exact (List.pairwise_insertionSort _ _).imp expiryBefore_iff.mp

/-! The steps of a pass (R135). -/

theorem beginExpiry_of_not {s : State}
    (h : ¬(s.time.time.toNat % 3600 = 0 ∧ s.time.isSet = true ∧ s.site.visitAge ≠ 0 ∧ s.visits.pass = none)) :
    s.beginExpiry = s :=
  if_neg h

theorem beginExpiry_begins {s : State}
    (h : s.time.time.toNat % 3600 = 0 ∧ s.time.isSet = true ∧ s.site.visitAge ≠ 0 ∧ s.visits.pass = none) :
    s.beginExpiry = s.expiryStep s.site.visitAge ((s.expiredEntries s.site.visitAge).map (·.number)) :=
  if_pos h

theorem expiryStep_of_gone {s : State} {n : W32} (gone : s.placeOf n = none) (age : Nat) (rest : List W32) :
    s.expiryStep age (n :: rest) = s.expiryStep age rest := by
  simp only [State.expiryStep, gone]

section Step

variable {s : State} {n : W32} {i : Nat} {v : Visit} (found : s.placeOf n = some i) (entry : s.place i = some v)

include found entry

/-- A pass that finds its next entry judges it. -/
theorem expiryStep_of_found (age : Nat) (rest : List W32) :
    s.expiryStep age (n :: rest) =
      if v.status = .held ∧ s.visits.mark ≠ some n ∧ v.entry.time.toNat + age * 3600 < s.time.time.toNat then
        if s.store.latch || s.journal.blocked then s.endPass
        else
          ({ s with
            visits :=
              { s.visits with
                places := s.visits.places.set i (some { v with status := .removing })
                pass := some ⟨age, rest, some n⟩ } } : State).requestJob (.expiry n) [.freeVisit i]
      else s.expiryStep age rest := by
  simp only [State.expiryStep, found, entry, expired, decide_eq_true_eq]
  rfl

theorem expiryCompleted_of_found {p : ExpiryPass} (pass : s.visits.pass = some p) :
    s.expiryCompleted n =
      ((s.removeVisit n).record ((s.removeVisit n).expiredRecord v.entry p.maxAge)).expiryStep p.maxAge p.todo := by
  simp only [State.expiryCompleted, pass, found, Option.bind_some, entry]

theorem setStatus_of_found (st : VisitStatus) : s.setStatus n st = s.setPlace i (some { v with status := st }) := by
  simp only [State.setStatus, found, entry]

end Step

/-- Settles O44: the order, the advance of engine time, and the pass from its beginning to each removal's end. -/
theorem engineClock : Obligations.EngineClock := by
  refine ⟨?setClock, ?advance, ?undue, ?begin, fun s age e => mem_expiredEntries, expiredEntries_sorted, ?step,
    ?completed, ?failed⟩
  case setClock =>
    intro s k p
    exact ⟨_, exec_setClock p, clockAnswered_answered p.memory k, rfl, clockAnswered_eq s k,
      clockAnswered_time p.memory k, clockAnswered_isSet p.memory k, clockAnswered_raised s k,
      clockAnswered_sameBut p.memory k⟩
  case advance =>
    intro s rest w stopped
    have due : 200 ≤ s.time.second := of_decide_eq_true stopped.due
    exact ⟨due, raisedTime s, exec_engineTimeAdvance_of_stopped stopped, rfl, setTime_time w _, setTime_isSet w _,
      setTime_sameBut w _⟩
  case undue =>
    intro s h
    rw [exec_engineTimeAdvance, takeStopped_of_not h]
  case begin => exact fun s => ⟨beginExpiry_of_not, beginExpiry_begins⟩
  case step =>
    intro s age n rest
    refine ⟨rfl, fun gone => expiryStep_of_gone gone age rest, fun i v found entry => ?_⟩
    have step := expiryStep_of_found found entry age rest
    refine ⟨fun undue => ?_, fun due stopped => ?_, fun due latch blocked => ?_⟩
    · rw [step, if_neg undue]
    · rw [step, if_pos due, if_pos (by simpa using stopped)]
      rfl
    · rw [step, if_pos due, if_neg (by simp [latch, blocked])]
      rfl
  case completed => exact fun s n i v p pass found entry => expiryCompleted_of_found found entry pass
  case failed =>
    intro s n i v found entry
    change s.expiryFailed n = _
    rw [State.expiryFailed, setStatus_of_found found entry]
    rfl

end Sys2Proof.Clock
end

section
/-! SUPPORT. The answer of an order in flight and the end of a capture (R110, R120, R124, R125): what an answer leaves
of the state, and the statement about captures that end without a weighing. -/

namespace Sys2Proof.CaptureEnds

open Sys2Proof Sys2Proof.Machine

/-! The answer of an order in flight (R110). -/

/-- What an answer leaves beside memory and intake is its cause. -/
theorem answer_eq (u : State) (k : SlotId) (code : AnswerCode) (body : List Byte) :
    u.answer k code body =
      { u with
        mem := (u.answer k code body).mem
        intake := (u.answer k code body).intake
        regs := { u.regs with cause := u.regs.cause ||| causeAnswer } } := by
  simp only [State.answer, State.setCause, State.writeWord, State.writeRun]

/-- The slot's answer words are the only bytes that an answer writes. -/
theorem answer_sameBut_slot {u : State} (w : u.mem.wf = true) (k : SlotId) (code : AnswerCode) {body : List Byte}
    (fits : body.length ≤ 64) : Memory.SameBut (slotAnswerBytes k) u.mem (u.answer k code body).mem := by
  have padded := padTo_length fits
  have wBody := Memory.writeBytes_wf (x := slotBase k + 0x40) (bs := padTo 64 body) w
  have wLength := Memory.write16_wf (x := slotBase k + 8) (v := BitVec.ofNat 16 body.length) wBody
  have wCode := Memory.write16_wf (x := slotBase k + 6) (v := code.code) wLength
  rw [answer_mem]
  refine Memory.SameBut.trans ?_ (Memory.SameBut.write16 wCode (.inl (by omega)) (.inl (by omega)))
  refine Memory.SameBut.trans ?_ (Memory.SameBut.write16 wLength (.inr (.inl (by omega))) (.inr (.inl (by omega))))
  refine Memory.SameBut.trans ?_ (Memory.SameBut.write16 wBody (.inr (.inl (by omega))) (.inr (.inl (by omega))))
  exact Memory.SameBut.writeBytes w fun y _ _ => .inr (.inr (by omega))

theorem answer_wf {u : State} (w : u.mem.wf = true) (k : SlotId) (code : AnswerCode) (body : List Byte) :
    (u.answer k code body).mem.wf = true := by
  rw [answer_mem]
  exact Memory.write16_wf (Memory.write16_wf (Memory.write16_wf (Memory.writeBytes_wf w)))

/-- The header's sweep position stands outside every slot. -/
theorem setPosition_slot_sameBut {u : State} (w : u.mem.wf = true) (k : SlotId) :
    Memory.SameBut (fun x => x < 0x400) u.mem (u.setPosition k).mem :=
  Memory.SameBut.write16 (x := hdrSweep) w (show hdrSweep < 0x400 by decide) (show hdrSweep + 1 < 0x400 by decide)

/-- What the host finds of an order that is answered while in flight: the same as of one answered at its take, but for
the sweep position. -/
theorem answer_written {s u : State} {k : SlotId} {code : AnswerCode} {body : List Byte} (w : u.mem.wf = true)
    (fits : body.length ≤ 64) (holds : Holds k s u) (position : u.intake.position = s.intake.position) :
    AnswerWritten k code body s (u.answer k code body) := by
  have lower := slotBase_lower k
  have swept := setPosition_slot_sameBut (answer_wf w k code body) k
  have answered : Answered k code body s ((u.answer k code body).setPosition k) := answer_answered w fits holds
  refine ⟨?state, ?code, ?length, ?body, ?intake, answered.attention⟩
  case state => exact (swept.read16 (by omega) (by omega)).symm.trans answered.state
  case code => exact (swept.read16 (by omega) (by omega)).symm.trans answered.code
  case length => exact (swept.read16 (by omega) (by omega)).symm.trans answered.length
  case body => exact (swept.readBytes fun y _ _ => by omega).symm.trans answered.body
  case intake =>
    rw [answer_intake, holds.flight, holds.claim]
    simp only [position]

/-! The end of a capture (R120). -/

/-- The part with no capture: its record, its mark and its CAPTURE cause are gone. -/
def uncaptured (s : State) : State :=
  { s with capture := none, visits := { s.visits with mark := none }, lane := s.lane.unmark .capture }

theorem endCapture_eq_answer (s : State) (k : SlotId) (code : AnswerCode) (body : List Byte) :
    s.endCapture k code body = (uncaptured s).answer k code body := rfl

/-- The end of a capture in a state that holds its order as another does: the answer, and nothing beside the
capture. -/
theorem endCapture_written {s u : State} {k : SlotId} {code : AnswerCode} {body : List Byte} (w : u.mem.wf = true)
    (fits : body.length ≤ 64) (holds : Holds k s u) (position : u.intake.position = s.intake.position) :
    AnswerWritten k code body s (u.endCapture k code body) :=
  answer_written (u := uncaptured u) w fits ⟨holds.flight, holds.claim⟩ position

theorem endCapture_eq (s : State) (k : SlotId) (code : AnswerCode) (body : List Byte) :
    s.endCapture k code body =
      { s with
        capture := none
        visits := { s.visits with mark := none }
        lane := s.lane.unmark .capture
        mem := (s.endCapture k code body).mem
        intake := (s.endCapture k code body).intake
        regs := { s.regs with cause := s.regs.cause ||| causeAnswer } } :=
  answer_eq (uncaptured s) k code body

theorem endCapture_sameBut {s : State} (w : s.mem.wf = true) (k : SlotId) (code : AnswerCode) {body : List Byte}
    (fits : body.length ≤ 64) : Memory.SameBut (slotAnswerBytes k) s.mem (s.endCapture k code body).mem :=
  answer_sameBut_slot (u := uncaptured s) w k code fits

/-! CAPTURE_DEADLINE (R124). -/

/-- The body of the answer to a capture whose time has run out. -/
def missedBody (s : State) : List Byte :=
  bytes16 s.monitor.snapshot.flags.word ++ s32 s.monitor.snapshot.legal ++ u16 (bit s.tracker.report.contained)

theorem missedBody_fits (s : State) : (missedBody s).length ≤ 64 :=
  Nat.le_of_ble_eq_true rfl

theorem deadlineDue_iff {s : State} :
    s.deadlineDue = true ↔ ∃ c u, s.capture = some c ∧ c.missed = some u := by
  unfold State.deadlineDue
  cases s.capture with
  | none => simp
  | some c => simp [Option.isSome_iff_exists]

theorem missDeadline_of_missed {s : State} {c : Capture} {u : Unmet} (capture : s.capture = some c)
    (missed : c.missed = some u) : s.missDeadline = s.endCapture c.slot u.answerCode (missedBody s) := by
  simp only [State.missDeadline, capture, missed, missedBody]

theorem exec_captureDeadline (s : State) : exec .captureDeadline s = .next (s.takeStopped .deadline) := rfl

/-! Withdrawals (R109, R125). -/

/-- The withdrawal mark on an order is gone with the order. -/
theorem markWithdrawn_holds (s : State) (k : SlotId) : Holds k s (s.markWithdrawn k) := by
  refine ⟨?_, rfl⟩
  change (s.intake.flight.map _).filter _ = _
  induction s.intake.flight with
  | nil => rfl
  | cons f fs ih =>
    by_cases here : f.slot = k
    · simp [here, ih]
    · simp [here, ih]

/-- A withdrawal in the wait phase ends the capture. -/
theorem handWithdrawal_of_waiting {s : State} {c : Capture} {f : Flight} (capture : s.capture = some c)
    (waiting : c.storing = false) (flight : s.flightOf c.slot = some f) (owner : f.owner = .captureUnit) :
    s.handWithdrawal c.slot = (s.markWithdrawn c.slot).endCapture c.slot .withdrawn [] := by
  have marked : (s.markWithdrawn c.slot).capture = some c := capture
  simp [State.handWithdrawal, State.withdrawCapture, flight, owner, marked, waiting]

/-- Settles O51: both endings are the end of a capture, in the state that the cadence event or the withdrawal mark
leaves. -/
theorem capturesEndWithoutAWeighing : Obligations.CapturesEndWithoutAWeighing := by
  refine ⟨?deadline, ⟨rfl, rfl, rfl⟩, ?undue, ?withdrawal⟩
  case deadline =>
    intro s rest w stopped
    obtain ⟨c, u, capture, missed⟩ := deadlineDue_iff.mp stopped.due
    let whole : State := { s with unfinished := [] }
    refine ⟨c, u, whole.endCapture c.slot u.answerCode (missedBody s), capture, missed, ?_,
      endCapture_written (u := whole) w (missedBody_fits s) ⟨rfl, rfl⟩ rfl, endCapture_eq whole ..,
      endCapture_sameBut (s := whole) w c.slot _ (missedBody_fits s)⟩
    rw [exec_captureDeadline, takeStopped_of_stopped stopped, State.takeOwn,
      missDeadline_of_missed (s := whole) capture missed]
    rfl
  case undue =>
    intro s h
    rw [exec_captureDeadline, takeStopped_of_not h]
  case withdrawal =>
    intro s c f w capture waiting flight owner
    rw [handWithdrawal_of_waiting capture waiting flight owner]
    exact ⟨endCapture_written (u := s.markWithdrawn c.slot) w (Nat.zero_le _) (markWithdrawn_holds s c.slot) rfl,
      endCapture_eq (s.markWithdrawn c.slot) ..,
      endCapture_sameBut (s := s.markWithdrawn c.slot) w c.slot _ (Nat.zero_le _)⟩

end Sys2Proof.CaptureEnds
end

section
/-! SUPPORT. FIND_VISIT (R134): the lowest place whose entry passes a test, and the statement about the order. -/

namespace Sys2Proof.Finding

open Sys2Proof Sys2Proof.Machine Sys2Proof.Orders

/-! Places of the visit table (section 7.5). -/

theorem place_eq_some_iff {s : State} {i : Nat} {v : Visit} :
    s.place i = some v ↔ s.visits.places[i]? = some (some v) := by
  rw [State.place, List.getD_eq_getElem?_getD]
  cases s.visits.places[i]? <;> simp

/-- The search ends at the lowest place whose entry passes. -/
theorem findPlace_of_lowest {s : State} {p : Visit → Bool} {i : Nat} {v : Visit} (inside : i < 64)
    (entry : s.place i = some v) (passes : p v = true)
    (lowest : ∀ j w, s.place j = some w → p w = true → i ≤ j) : s.findPlace p = some i := by
  rw [State.findPlace, List.find?_range_eq_some]
  refine ⟨by rw [entry]; exact passes, List.mem_range.mpr inside, fun j below => ?_⟩
  cases other : s.place j with
  | none => rfl
  | some w =>
    rw [Bool.not_eq_true']
    exact Bool.eq_false_iff.mpr fun found => absurd (lowest j w other found) (by omega)

theorem findPlace_of_absent {s : State} {p : Visit → Bool}
    (absent : ∀ i v, i < 64 → s.place i = some v → p v = false) : s.findPlace p = none := by
  rw [State.findPlace, List.find?_eq_none]
  intro i inside
  cases entry : s.place i with
  | none => exact Bool.false_ne_true
  | some v => simpa using absent i v (List.mem_range.mp inside) entry

/-! The order FIND_VISIT. -/

/-- What an answer shows of an axle summary: without one, 0 in every field (assumption 57). -/
def summaryShown : Option Summary → List Byte
  | some m => u16 1 ++ u8 m.verdict.code ++ u8 m.quality.code ++ u16 m.groups.length
  | none => u16 0 ++ u8 0 ++ u8 0 ++ u16 0

/-- The body of the answer that shows an entry. -/
def entryShown (e : VisitEntry) : List Byte :=
  bytes32 e.number ++ bytes32 e.lot ++ s32 e.weight ++ bytes32 e.time ++ bytes32 e.epoch ++ bytes32 (orZero e.bound)
    ++ summaryShown e.summary

theorem entryShown_fits (e : VisitEntry) : (entryShown e).length ≤ 64 := by
  unfold entryShown
  cases e.summary <;> exact Nat.le_of_ble_eq_true rfl

theorem findOrder_of_held {s : State} {k : SlotId} {i : Nat} {v : Visit}
    (found : s.heldPlace (s.orderVehicle k) = some i) (entry : s.place i = some v) :
    s.findOrder k = s.answer k .done (entryShown v.entry) := by
  simp only [State.findOrder, found, Option.bind_some, entry]
  rfl

theorem findOrder_of_absent {s : State} {k : SlotId} (absent : s.heldPlace (s.orderVehicle k) = none) :
    s.findOrder k = s.answer k .noVisit [] := by
  simp only [State.findOrder, absent, Option.bind_none]

theorem exec_findVisit (s : State) (k : SlotId) :
    exec (.findVisit k) s = .next (s.whenOn fun u => u.takePosted k .findVisit State.findOrder) := rfl

theorem exec_findVisit_of_held {s : State} {k : SlotId} {i : Nat} {v : Visit} (p : s.Posted k .findVisit)
    (found : s.heldPlace (s.orderVehicle k) = some i) (entry : s.place i = some v) :
    ∃ t : State, exec (.findVisit k) s = .next t ∧ AnsweredAs k .done (entryShown v.entry) s s t :=
  exec_answered (exec_findVisit s k) p rfl rfl (entryShown_fits v.entry) rfl
    (findOrder_of_held (s := s.beginOrder k .findVisit)
      ((Captures.beginOrder_heldPlace p.memory k .findVisit).trans found) entry)

theorem exec_findVisit_of_absent {s : State} {k : SlotId} (p : s.Posted k .findVisit)
    (absent : s.heldPlace (s.orderVehicle k) = none) :
    ∃ t : State, exec (.findVisit k) s = .next t ∧ AnsweredAs k .noVisit [] s s t :=
  exec_answered (exec_findVisit s k) p rfl rfl (Nat.zero_le _) rfl
    (findOrder_of_absent (s := s.beginOrder k .findVisit)
      ((Captures.beginOrder_heldPlace p.memory k .findVisit).trans absent))

/-- Settles O43: the search of the take finds the lowest HELD entry of the vehicle, or none. -/
theorem findVisitAnswersFromTheHeldEntry : Obligations.FindVisitAnswersFromTheHeldEntry := by
  intro s k p
  refine ⟨fun i v inside entry vehicle held lowest => ?held, fun absent => ?absent⟩
  case held =>
    rw [← place_eq_some_iff] at entry
    have found : s.heldPlace (s.orderVehicle k) = some i := by
      refine findPlace_of_lowest inside entry (by simp [vehicle, held]) fun j w other passes => ?_
      simp only [Bool.and_eq_true, beq_iff_eq] at passes
      exact lowest j w (place_eq_some_iff.mp other) passes.1 passes.2
    have answered := exec_findVisit_of_held p found entry
    refine ⟨fun without => ?_, fun m summary => ?_⟩
    · rwa [entryShown, without] at answered
    · rwa [entryShown, summary] at answered
  case absent =>
    refine exec_findVisit_of_absent p (findPlace_of_absent fun i v inside entry => ?_)
    have missing := absent i v inside (place_eq_some_iff.mp entry)
    by_cases vehicle : v.entry.vehicle = s.orderVehicle k
    · simp [missing vehicle]
    · simp [vehicle]

end Sys2Proof.Finding
end

section
/-! SUPPORT. A reserved record (R158, R159): placed on the page that its reservation keeps, published in the same step,
and then neither overwritten nor kept reserved by what the journal does next. -/

namespace Sys2Proof.Reserved

open Sys2Proof Sys2Proof.Machine

/-! What filling and publishing a page leaves of the journal's queue. -/

/-- The reservation, the outbox and the owed summary are as they were. -/
structure QueueKept (s t : State) : Prop where
  reservation : t.journal.reservation = s.journal.reservation
  outbox : t.journal.outbox = s.journal.outbox
  owed : t.journal.owed = s.journal.owed

theorem QueueKept.trans {s t u : State} (h : QueueKept s t) (k : QueueKept t u) : QueueKept s u :=
  ⟨k.reservation.trans h.reservation, k.outbox.trans h.outbox, k.owed.trans h.owed⟩

theorem openPage_queueKept (s : State) : QueueKept s s.openPage := by
  unfold State.openPage
  dsimp only
  split <;> exact ⟨rfl, rfl, rfl⟩

theorem judgeAttention_queueKept (s : State) : QueueKept s s.judgeAttention := by
  unfold State.judgeAttention
  dsimp only
  split <;> exact ⟨rfl, rfl, rfl⟩

/-- The memory when a page has been offered and the header shows it. -/
def shownPage (s : State) (p : PageId) : Memory :=
  (((s.mem.write32 (pageBase p + 4) s.journal.nextSequence).write16 (pageBase p) pagePublished).write16 hdrLastPage
    (BitVec.ofNat 16 p.val)).write32 hdrLastSequence s.journal.nextSequence

theorem judgeAttention_mem (s : State) : s.judgeAttention.mem = s.mem := by
  unfold State.judgeAttention
  dsimp only
  split <;> rfl

theorem judgeAttention_nextFill (s : State) : s.judgeAttention.journal.nextFill = s.journal.nextFill := by
  unfold State.judgeAttention
  dsimp only
  split <;> rfl

/-- A publication ends with the opening of the page that follows (R152). -/
theorem publish_opens {s : State} {p : PageId} (current : s.journal.current = some p) :
    ∃ u : State, s.publish = u.openPage ∧ QueueKept s u ∧ u.journal.nextFill = nextPage s.journal.nextFill
      ∧ u.mem = (shownPage s p).write16 hdrNextFill (BitVec.ofNat 16 (nextPage s.journal.nextFill).val) := by
  refine ⟨_, by simp only [State.publish, current]; rfl, ⟨?_, ?_, ?_⟩, ?_, ?_⟩
  · simp only [writeWord_journal, (judgeAttention_queueKept _).reservation, writeLong_journal]
  · simp only [writeWord_journal, (judgeAttention_queueKept _).outbox, writeLong_journal]
  · simp only [writeWord_journal, (judgeAttention_queueKept _).owed, writeLong_journal]
  · simp only [writeWord_journal, judgeAttention_nextFill, writeLong_journal]
  · simp only [writeWord_mem, judgeAttention_mem, writeLong_mem, shownPage]

theorem publish_queueKept (s : State) : QueueKept s s.publish := by
  cases current : s.journal.current with
  | none =>
    simp only [State.publish, current]
    exact ⟨rfl, rfl, rfl⟩
  | some p =>
    obtain ⟨u, published, kept, -⟩ := publish_opens current
    rw [published]
    exact kept.trans (openPage_queueKept u)

/-! No drain makes a reservation. -/

@[simp] theorem placeOn_reservation (s : State) (p : PageId) (r : Record) :
    (s.placeOn p r).journal.reservation = s.journal.reservation := rfl

@[simp] theorem setOutbox_reservation (s : State) (rs : List Record) :
    (s.setOutbox rs).journal.reservation = s.journal.reservation := rfl

@[simp] theorem publish_reservation (s : State) : s.publish.journal.reservation = s.journal.reservation :=
  (publish_queueKept s).reservation

theorem placeSummary_reservation (s : State) : s.placeSummary.journal.reservation = s.journal.reservation := by
  unfold State.placeSummary
  dsimp only
  repeat' split
  all_goals simp

theorem drainOutbox_reservation (rs : List Record) (s : State) :
    (s.drainOutbox rs).journal.reservation = s.journal.reservation := by
  induction rs generalizing s with
  | nil => rfl
  | cons r rest ih =>
    unfold State.drainOutbox
    dsimp only
    repeat' split
    all_goals simp [ih]

theorem judgePage_reservation (s : State) : s.judgePage.journal.reservation = s.journal.reservation := by
  unfold State.judgePage
  repeat' split
  all_goals simp

theorem drain_reservation (s : State) : s.drain.journal.reservation = s.journal.reservation := by
  unfold State.drain
  dsimp only
  repeat' split
  all_goals simp [judgePage_reservation, drainOutbox_reservation, placeSummary_reservation]

/-- Placing a reserved record uses its reservation up. -/
theorem placeReserved_reservation (s : State) (r : Record) : (s.placeReserved r).journal.reservation = none := by
  unfold State.placeReserved
  split
  · rw [drain_reservation]
    rfl
  · rw [drain_reservation, publish_reservation]
    rfl

/-- With nothing queued and nothing owed there is nothing to drain (R155). -/
theorem drain_of_clear {s : State} (outbox : s.journal.outbox = []) (owed : s.journal.owed = false) : s.drain = s := by
  simp [State.drain, outbox, owed]

/-! Pages. -/

theorem nextPage_ne (p : PageId) : nextPage p ≠ p := by
  intro same
  have value := congrArg Fin.val same
  unfold nextPage at value
  split at value
  · simp at value
    omega
  · simp at value
    omega

theorem pageBase_other {p q : PageId} (h : p ≠ q) :
    pageBase p + 0x100 ≤ pageBase q ∨ pageBase q + 0x100 ≤ pageBase p := by
  have : p.val ≠ q.val := fun e => h (Fin.ext e)
  unfold pageBase
  omega

/-- The bytes that opening a page writes. -/
def openedBytes (p : PageId) (x : Nat) : Prop :=
  bytesFrom (pageBase p) 256 x ∨ bytesFrom hdrBlocked 2 x

theorem openPage_sameBut {s : State} (w : s.mem.wf = true) :
    Memory.SameBut (openedBytes s.journal.nextFill) s.mem s.openPage.mem := by
  have blocked : ∀ {m : Memory} {v : W16}, m.wf = true →
      Memory.SameBut (openedBytes s.journal.nextFill) m (m.write16 hdrBlocked v) := fun w =>
    Memory.SameBut.write16 w (.inr ⟨by omega, by omega⟩) (.inr ⟨by omega, by omega⟩)
  have cleared := Memory.clearBytes_wf (x := pageBase s.journal.nextFill) (n := 256) w
  unfold State.openPage
  dsimp only
  split
  · exact blocked w
  · refine Memory.SameBut.trans ?_ (blocked (Memory.write16_wf cleared))
    exact (Memory.SameBut.clearBytes fun y lower upper => .inl ⟨lower, upper⟩).trans
      (Memory.SameBut.write16 cleared (.inl ⟨by omega, by omega⟩) (.inl ⟨by omega, by omega⟩))

/-! A page published (R152). -/

theorem shownPage_wf {s : State} (w : s.mem.wf = true) (p : PageId) : (shownPage s p).wf = true :=
  Memory.write32_wf (Memory.write16_wf (Memory.write16_wf (Memory.write32_wf w)))

/-- What follows the showing of a page touches neither the page nor the header fields that name it. -/
theorem publish_sameBut {s : State} {p : PageId} (w : s.mem.wf = true) (current : s.journal.current = some p) :
    Memory.SameBut (fun x => openedBytes (nextPage s.journal.nextFill) x ∨ bytesFrom hdrNextFill 2 x) (shownPage s p)
      s.publish.mem := by
  obtain ⟨u, published, -, fill, mem⟩ := publish_opens current
  have shown := shownPage_wf w p
  have opened := openPage_sameBut (s := u) (by rw [mem]; exact Memory.write16_wf shown)
  rw [fill, mem] at opened
  rw [published]
  exact (Memory.SameBut.write16 shown (.inr ⟨by omega, by omega⟩) (.inr ⟨by omega, by omega⟩)).trans
    (opened.mono fun _ => .inl)

/-! A record on a published page. -/

/-- The host finds a record's bytes on a published page, which the header names with its sequence. -/
structure RecordShown (p : PageId) (used : Nat) (bytes : List Byte) (sequence : W32) (m : Memory) : Prop where
  state : m.read16 (pageBase p) = pagePublished
  record : m.readBytes (pageBody p + used) bytes.length = bytes
  page : m.read16 hdrLastPage = BitVec.ofNat 16 p.val
  sequence : m.read32 hdrLastSequence = sequence

/-- The bytes in which the host finds it. -/
def shownBytes (p : PageId) (x : Nat) : Prop :=
  bytesFrom (pageBase p) 256 x ∨ bytesFrom hdrLastPage 2 x ∨ bytesFrom hdrLastSequence 4 x

theorem RecordShown.of_sameBut {p : PageId} {used : Nat} {bytes : List Byte} {sequence : W32} {m n : Memory}
    {changed : Nat → Prop} (h : RecordShown p used bytes sequence m) (room : used + bytes.length ≤ 240)
    (same : Memory.SameBut changed m n) (outside : ∀ x, shownBytes p x → ¬changed x) :
    RecordShown p used bytes sequence n := by
  have onPage : ∀ x, pageBase p ≤ x → x < pageBase p + 256 → ¬changed x := fun x lower upper =>
    outside x (.inl ⟨lower, upper⟩)
  have named : ∀ x, hdrLastPage ≤ x → x < hdrLastPage + 2 → ¬changed x := fun x lower upper =>
    outside x (.inr (.inl ⟨lower, upper⟩))
  have numbered : ∀ x, hdrLastSequence ≤ x → x < hdrLastSequence + 4 → ¬changed x := fun x lower upper =>
    outside x (.inr (.inr ⟨lower, upper⟩))
  constructor
  case state => rw [same.read16 (onPage _ (by omega) (by omega)) (onPage _ (by omega) (by omega)), h.state]
  case record =>
    have body : pageBody p = pageBase p + 16 := rfl
    rw [same.readBytes fun x lower upper => onPage x (by omega) (by omega), h.record]
  case page => rw [same.read16 (named _ (by omega) (by omega)) (named _ (by omega) (by omega)), h.page]
  case sequence =>
    rw [same.read32 (numbered _ (by omega) (by omega)) (numbered _ (by omega) (by omega))
      (numbered _ (by omega) (by omega)) (numbered _ (by omega) (by omega)), h.sequence]

/-- Publishing a page shows a record that stands on it. -/
theorem shownPage_recordShown {s : State} {p : PageId} {used : Nat} {bytes : List Byte} (w : s.mem.wf = true)
    (placed : s.mem.readBytes (pageBody p + used) bytes.length = bytes) :
    RecordShown p used bytes s.journal.nextSequence (shownPage s p) := by
  have lower := pageBase_lower p
  have upper := pageBase_upper p
  have body : pageBody p = pageBase p + 16 := rfl
  have page : hdrLastPage = 0x24 := rfl
  have sequence : hdrLastSequence = 0x28 := rfl
  have size : Memory.size = 0x8000 := rfl
  have wNumber := Memory.write32_wf (x := pageBase p + 4) (v := s.journal.nextSequence) w
  have wState := Memory.write16_wf (x := pageBase p) (v := pagePublished) wNumber
  have wPage := Memory.write16_wf (x := hdrLastPage) (v := BitVec.ofNat 16 p.val) wState
  constructor
  case state =>
    rw [shownPage, Memory.read16_write32_other wPage (by omega), Memory.read16_write16_other wState (by omega),
      Memory.read16_write16 wNumber (by omega)]
  case record =>
    have same : Memory.SameBut (fun x => x < pageBody p) s.mem (shownPage s p) :=
      (((Memory.SameBut.write32 w fun y _ _ => by omega).trans
        (Memory.SameBut.write16 wNumber (by omega) (by omega))).trans
        (Memory.SameBut.write16 wState (by omega) (by omega))).trans
        (Memory.SameBut.write32 wPage fun y _ _ => by omega)
    rw [same.readBytes fun y above _ => by omega, placed]
  case page => rw [shownPage, Memory.read16_write32_other wPage (by omega), Memory.read16_write16 wState (by omega)]
  case sequence => rw [shownPage, Memory.read32_write32 wPage (by omega)]

theorem publish_recordShown {s : State} {p : PageId} {used : Nat} {bytes : List Byte} (w : s.mem.wf = true)
    (current : s.journal.current = some p) (fill : s.journal.nextFill = p) (room : used + bytes.length ≤ 240)
    (placed : s.mem.readBytes (pageBody p + used) bytes.length = bytes) :
    RecordShown p used bytes s.journal.nextSequence s.publish.mem := by
  refine (shownPage_recordShown w placed).of_sameBut room (publish_sameBut w current) fun x shown changed => ?_
  rw [fill] at changed
  have apart := pageBase_other (nextPage_ne p)
  have lower := pageBase_lower p
  have lowerNext := pageBase_lower (nextPage p)
  have page : hdrLastPage = 0x24 := rfl
  have next : hdrNextFill = 0x26 := rfl
  have sequence : hdrLastSequence = 0x28 := rfl
  have blocked : hdrBlocked = 0x2E := rfl
  simp only [shownBytes, openedBytes, bytesFrom] at shown changed
  omega

/-! The record itself (R150). -/

theorem record_bytes_length (r : Record) (serial : W32) : (r.bytes serial).length = r.length := by
  simp only [Record.bytes, Record.length, u16, bytes16, bytes32, List.length_append, List.length_cons, List.length_nil]

theorem placeOn_wf {s : State} (w : s.mem.wf = true) (p : PageId) (r : Record) : (s.placeOn p r).mem.wf = true :=
  (placeOn_journaled s p r).wf w

/-- A record placed stands behind what the page holds. -/
theorem placeOn_record {s : State} (w : s.mem.wf = true) {p : PageId} {r : Record}
    (room : s.pageUsed p + r.length ≤ 240) :
    (s.placeOn p r).mem.readBytes (pageBody p + s.pageUsed p) (r.bytes s.journal.nextSerial).length
      = r.bytes s.journal.nextSerial := by
  have upper := pageBase_upper p
  have body : pageBody p = pageBase p + 16 := rfl
  have size : Memory.size = 0x8000 := rfl
  have long := record_bytes_length r s.journal.nextSerial
  have wRun := Memory.writeBytes_wf (x := pageBody p + s.pageUsed p) (bs := r.bytes s.journal.nextSerial) w
  have head : Memory.SameBut (fun x => x < pageBody p)
      (s.mem.writeBytes (pageBody p + s.pageUsed p) (r.bytes s.journal.nextSerial)) (s.placeOn p r).mem :=
    (Memory.SameBut.write16 wRun (by omega) (by omega)).trans
      (Memory.SameBut.write16 (Memory.write16_wf wRun) (by omega) (by omega))
  rw [head.readBytes fun y above _ => by omega]
  exact Memory.readBytes_writeBytes w (by omega)

/-- A reserved record, on a page with nothing waiting behind it, is published with that page (R159). -/
theorem placeReserved_recordShown {s : State} {p : PageId} {r : Record} (w : s.mem.wf = true)
    (current : s.journal.current = some p) (fill : s.journal.nextFill = p) (outbox : s.journal.outbox = [])
    (owed : s.journal.owed = false) (room : s.pageUsed p + r.length ≤ 240) :
    RecordShown p (s.pageUsed p) (r.bytes s.journal.nextSerial) s.journal.nextSequence (s.placeReserved r).mem := by
  let placed := s.endReservation.placeOn p r
  have kept : QueueKept placed placed.publish := publish_queueKept placed
  have published : s.placeReserved r = placed.publish := by
    simp only [State.placeReserved, current]
    exact drain_of_clear (kept.outbox.trans outbox) (kept.owed.trans owed)
  have stands := placeOn_record (s := s.endReservation) (p := p) (r := r) w room
  have long : s.pageUsed p + (r.bytes s.journal.nextSerial).length ≤ 240 := by
    rwa [record_bytes_length]
  rw [published]
  exact publish_recordShown (s := placed) (placeOn_wf (s := s.endReservation) w p r) current fill long stands

end Sys2Proof.Reserved
end

section
/-! SUPPORT. The last row of a store job (R179): weighings, voids and recalls that complete (R127, R128, R132, R133,
R141, R147), each as the state that its completion makes, the record placed there, and the answer; and the statement
about them. -/

namespace Sys2Proof.Completions

open Sys2Proof Sys2Proof.Machine Sys2Proof.CaptureEnds Sys2Proof.Reserved

/-! The last row of a job (R179). -/

theorem writeRow_queue (s : State) (w : RowWrite) : (s.writeRow w).store.queue = s.store.queue := by
  cases w <;> rfl

theorem writeRow_waiting (s : State) (w : RowWrite) : (s.writeRow w).store.waiting = s.store.waiting := by
  cases w <;> rfl

theorem writeRow_latch (s : State) (w : RowWrite) : (s.writeRow w).store.latch = s.store.latch := by
  cases w <;> rfl

/-- The part when the last row of the front job is written and verified, and the job has left the queue. -/
def rowDone (s : State) (w : RowWrite) (jobs : List Job) : State :=
  { s with store := { (s.writeRow w).store with queue := jobs, retry := false } }

theorem enterJobs_of_none {s : State} (waiting : s.store.waiting = []) : s.enterJobs = s := by
  unfold State.enterJobs
  rw [waiting]
  rfl

theorem finishRow_last {s : State} {kind : JobKind} {w : RowWrite} {jobs : List Job}
    (queue : s.store.queue = ⟨kind, [w]⟩ :: jobs) :
    s.finishRow ⟨kind, [w]⟩ w [] = (rowDone s w jobs).jobCompleted kind := by
  have left : (s.writeRow w).store.queue.drop 1 = jobs := by
    rw [writeRow_queue, queue]
    rfl
  have finished : ({ s.writeRow w with
      store := { (s.writeRow w).store with queue := jobs, retry := false } } : State) = rowDone s w jobs := by
    cases w <;> rfl
  simp only [State.finishRow, List.isEmpty_nil, if_true, left, finished]

/-- STORE_ROW_WRITTEN with a match at the last row of a job completes it. -/
theorem exec_lastRow {s : State} {kind : JobKind} {w : RowWrite} {jobs : List Job} (r : s.Ready)
    (waiting : s.store.waiting = []) (queue : s.store.queue = ⟨kind, [w]⟩ :: jobs) (left : Residue) :
    exec (.storeRowWritten true left) s = .next ((rowDone s w jobs).jobCompleted kind) := by
  have writing : s.writing = some (⟨kind, [w]⟩, w, []) := by
    simp only [State.writing, queue]
  change Host.Outcome.next (s.whenOn fun t => t.rowWritten true left) = _
  rw [whenOn_of_ready r, State.rowWritten, enterJobs_of_none waiting]
  simp only [writing, if_true, finishRow_last queue]

/-! A record placed and an order answered. -/

/-- A state has placed records and is the other one to its host besides. -/
structure Recorded (u v : State) : Prop where
  intake : v.intake = u.intake
  raised : Registers.Raised causeJournal u.regs v.regs
  wf : v.mem.wf = true
  memory : Memory.SameBut journalBytes u.mem v.mem

theorem recorded_of_journaled {u v : State} (w : u.mem.wf = true) (h : Journaled causeJournal u v) : Recorded u v where
  intake := by rw [h.eq]
  raised := h.raised
  wf := h.wf w
  memory := h.memory w

theorem Recorded.uncaptured {u v : State} (h : Recorded u v) : Recorded u (uncaptured v) :=
  ⟨h.intake, h.raised, h.wf, h.memory⟩

/-- The header below the journal's own fields is neither the answer's nor the record's. -/
theorem not_slot_or_journal (k : SlotId) {x : Nat} (h : x < hdrLastPage) : ¬(slotAnswerBytes k x ∨ journalBytes x) := by
  have lower := slotBase_lower k
  have page : hdrLastPage = 0x24 := rfl
  rintro ((⟨above, -⟩ | ⟨above, -⟩ | ⟨above, -⟩) | (⟨above, -⟩ | above)) <;> omega

theorem answerWritten_congr {k : SlotId} {code : AnswerCode} {body : List Byte} {s t u : State}
    (h : AnswerWritten k code body s t) (mem : u.mem = t.mem) (intake : u.intake = t.intake) (regs : u.regs = t.regs) :
    AnswerWritten k code body s u where
  state := by rw [State.slotState, mem]; exact h.state
  code := by rw [mem, h.code]
  length := by rw [mem, h.length]
  body := by rw [mem, h.body]
  intake := by rw [intake, h.intake]
  attention := by rw [regs, h.attention]

section Answer

variable {s u v : State} {k : SlotId} {code : AnswerCode} {body : List Byte} (h : Recorded u v)
include h

theorem Recorded.answerWritten (fits : body.length ≤ 64) (intake : u.intake = s.intake) :
    AnswerWritten k code body s (v.answer k code body) := by
  have same := h.intake.trans intake
  exact answer_written h.wf fits ⟨by rw [same], by rw [same]⟩ (by rw [same])

theorem Recorded.raised_answer (regs : u.regs = s.regs) :
    Registers.Raised (causeAnswer ||| causeJournal) s.regs (v.answer k code body).regs := by
  have recorded : Registers.Raised (causeAnswer ||| causeJournal) u.regs v.regs := h.raised.mono (by decide)
  rw [answer_regs, ← regs]
  exact recorded.trans ⟨causeAnswer, by decide, rfl⟩

theorem Recorded.sameBut_answer (fits : body.length ≤ 64) :
    Memory.SameBut (fun x => slotAnswerBytes k x ∨ journalBytes x) u.mem (v.answer k code body).mem :=
  (h.memory.mono fun _ => .inr).trans ((answer_sameBut_slot h.wf k code fits).mono fun _ => .inl)

/-- The header below the journal's own fields reads as before the records and the answer. -/
theorem Recorded.read16_answer {x : Nat} (fits : body.length ≤ 64) (below : x + 1 < hdrLastPage) :
    (v.answer k code body).mem.read16 x = u.mem.read16 x :=
  (h.sameBut_answer fits).read16 (not_slot_or_journal k (by omega)) (not_slot_or_journal k below)

theorem Recorded.read32_answer {x : Nat} (fits : body.length ≤ 64) (below : x + 3 < hdrLastPage) :
    (v.answer k code body).mem.read32 x = u.mem.read32 x :=
  (h.sameBut_answer fits).read32 (not_slot_or_journal k (by omega)) (not_slot_or_journal k (by omega))
    (not_slot_or_journal k (by omega)) (not_slot_or_journal k below)

end Answer

/-- A record on a published page is not overwritten by an answer. -/
theorem shown_not_slot (p : PageId) (k : SlotId) (x : Nat) (shown : shownBytes p x) : ¬slotAnswerBytes k x := by
  have lower := slotBase_lower k
  have upper := slotBase_upper k
  have above := pageBase_lower p
  have page : hdrLastPage = 0x24 := rfl
  have sequence : hdrLastSequence = 0x28 := rfl
  simp only [shownBytes, bytesFrom, slotAnswerBytes] at shown ⊢
  omega

/-! The header's visit count (R130). -/

theorem showVisitCount_mem (s : State) :
    s.showVisitCount.mem = s.mem.write16 hdrVisits (BitVec.ofNat 16 s.visitCount) := rfl

theorem showVisitCount_shown {s : State} (w : s.mem.wf = true) :
    s.showVisitCount.mem.read16 hdrVisits = BitVec.ofNat 16 s.visitCount := by
  rw [showVisitCount_mem, Memory.read16_write16 w (by decide)]

theorem showVisitCount_wf {s : State} (w : s.mem.wf = true) : s.showVisitCount.mem.wf = true := by
  rw [showVisitCount_mem]
  exact Memory.write16_wf w

theorem showVisitCount_sameBut {s : State} (w : s.mem.wf = true) :
    Memory.SameBut (bytesFrom hdrVisits 2) s.mem s.showVisitCount.mem := by
  rw [showVisitCount_mem]
  exact Memory.SameBut.write16 w ⟨by omega, by omega⟩ ⟨by omega, by omega⟩

theorem length_filter_set {α : Type} {f : α → Bool} {a b : α} (same : f a = f b) (l : List α) (i : Nat) :
    ((l.set i a).filter f).length = ((l.set i b).filter f).length := by
  rw [← List.countP_eq_length_filter, ← List.countP_eq_length_filter]
  by_cases inside : i < l.length
  · rw [List.countP_set inside, List.countP_set inside, same]
  · rw [List.set_eq_of_length_le (by omega), List.set_eq_of_length_le (by omega)]

/-- The count goes by the statuses of the entries alone. -/
theorem visitCount_setPlace (s : State) (i : Nat) {v w : Visit} (status : v.status = w.status) :
    (s.setPlace i (some v)).visitCount = (s.setPlace i (some w)).visitCount :=
  length_filter_set (by simp only [status]) s.visits.places i

theorem visitCount_of_places {s t : State} (h : s.visits.places = t.visits.places) : s.visitCount = t.visitCount := by
  unfold State.visitCount
  rw [h]

/-- The part with the entry of a place removed. -/
def visitRemoved (s : State) (i : Nat) : State :=
  (s.setPlace i none).showVisitCount

theorem removeVisit_of_found {s : State} {n : W32} {i : Nat} (found : s.placeOf n = some i) :
    s.removeVisit n = visitRemoved s i := by
  simp only [State.removeVisit, found]
  rfl

/-! Weighings that complete (R127, R128). -/

/-- A weighing's end: the reserved record is placed, the order answered DONE, and the capture is over. -/
def weighed (u : State) (r : Record) (k : SlotId) (body : List Byte) : State :=
  (u.placeReserved r).endCapture k .done body

section Weighed

variable {s u : State} {r : Record} {k : SlotId} {body : List Byte} (w : u.mem.wf = true)

theorem weighed_eq (u : State) (r : Record) (k : SlotId) (body : List Byte) :
    weighed u r k body =
      { u with
        visits := { u.visits with mark := none }
        capture := none
        lane := u.lane.unmark .capture
        mem := (weighed u r k body).mem
        intake := (weighed u r k body).intake
        regs := (weighed u r k body).regs
        journal := (weighed u r k body).journal } := by
  obtain ⟨m, q, j, placed⟩ := (placeReserved_journaled u r).fields
  rw [weighed, placed]
  refine (endCapture_eq _ k .done body).trans ?_
  simp only [endCapture_eq_answer, answer_regs, answer_journal, uncaptured]

theorem weighed_reservation (u : State) (r : Record) (k : SlotId) (body : List Byte) :
    (weighed u r k body).journal.reservation = none := by
  rw [weighed, endCapture_eq_answer, answer_journal]
  exact placeReserved_reservation u r

include w

theorem weighed_recorded (r : Record) : Recorded u (uncaptured (u.placeReserved r)) :=
  (recorded_of_journaled w (placeReserved_journaled u r)).uncaptured

theorem weighed_written (fits : body.length ≤ 64) (intake : u.intake = s.intake) :
    AnswerWritten k .done body s (weighed u r k body) :=
  (weighed_recorded w r).answerWritten fits intake

theorem weighed_raised (regs : u.regs = s.regs) :
    Registers.Raised (causeAnswer ||| causeJournal) s.regs (weighed u r k body).regs :=
  (weighed_recorded w r).raised_answer regs

theorem weighed_read16 {x : Nat} (fits : body.length ≤ 64) (below : x + 1 < hdrLastPage) :
    (weighed u r k body).mem.read16 x = u.mem.read16 x :=
  (weighed_recorded w r).read16_answer fits below

theorem weighed_read32 {x : Nat} (fits : body.length ≤ 64) (below : x + 3 < hdrLastPage) :
    (weighed u r k body).mem.read32 x = u.mem.read32 x :=
  (weighed_recorded w r).read32_answer fits below

/-- The record of a weighing is published where the page has nothing waiting behind it. -/
theorem weighed_recordShown {p : PageId} (fits : body.length ≤ 64) (current : u.journal.current = some p)
    (fill : u.journal.nextFill = p) (outbox : u.journal.outbox = []) (owed : u.journal.owed = false)
    (room : u.pageUsed p + r.length ≤ 240) :
    RecordShown p (u.pageUsed p) (r.bytes u.journal.nextSerial) u.journal.nextSequence (weighed u r k body).mem := by
  have placed := placeReserved_recordShown w current fill outbox owed room
  have answered := endCapture_sameBut (s := u.placeReserved r) (weighed_recorded w r).wf k .done fits
  have long : u.pageUsed p + (r.bytes u.journal.nextSerial).length ≤ 240 := by rwa [record_bytes_length]
  exact placed.of_sameBut long answered (shown_not_slot p k)

end Weighed

/-! What a completion shows before its record is placed. -/

/-- A state as another has left it to the journal and the host, with header fields below the sweep position written. -/
structure Prepared (changed : Nat → Prop) (s u : State) : Prop where
  wf : u.mem.wf = true
  intake : u.intake = s.intake
  regs : u.regs = s.regs
  journal : u.journal = s.journal
  memory : Memory.SameBut changed s.mem u.mem
  header : ∀ x, changed x → x < hdrSweep

/-- A reserved record has been published as the pages of `s` give it its place, if nothing waits behind it. -/
def RecordPublished (s : State) (r : Record) (m : Memory) : Prop :=
  ∀ p, s.journal.current = some p → s.journal.nextFill = p → s.journal.outbox = [] → s.journal.owed = false →
    s.pageUsed p + r.length ≤ 240 →
      m.read16 (pageBase p) = pagePublished
        ∧ m.readBytes (pageBody p + s.pageUsed p) r.length = r.bytes s.journal.nextSerial
        ∧ m.read16 hdrLastPage = BitVec.ofNat 16 p.val
        ∧ m.read32 hdrLastSequence = s.journal.nextSequence

section Prepared

variable {changed : Nat → Prop} {s u : State} (h : Prepared changed s u) {r : Record} {k : SlotId}
  {body : List Byte}
include h

theorem Prepared.pageUsed (p : PageId) : u.pageUsed p = s.pageUsed p := by
  have lower := pageBase_lower p
  have sweep : hdrSweep = 0x22 := rfl
  have outside : ∀ x, pageBase p ≤ x → ¬changed x := fun x above c => by
    have := h.header x c
    omega
  unfold State.pageUsed
  rw [h.memory.read16 (outside _ (by omega)) (outside _ (by omega))]

theorem Prepared.published (fits : body.length ≤ 64) : RecordPublished s r (weighed u r k body).mem := by
  intro p current fill outbox owed room
  rw [← h.pageUsed, ← h.journal] at *
  obtain ⟨state, record, page, sequence⟩ := weighed_recordShown (k := k) h.wf fits current fill outbox owed room
  rw [record_bytes_length] at record
  exact ⟨state, record, page, sequence⟩

/-- The bytes that the completion changes: those prepared, the journal's and the answer's. -/
theorem Prepared.sameBut {v : State} {code : AnswerCode} (recorded : Recorded u v) (fits : body.length ≤ 64) :
    Memory.SameBut (fun x => slotAnswerBytes k x ∨ journalBytes x ∨ changed x) s.mem (v.answer k code body).mem := by
  refine (h.memory.mono fun _ c => .inr (.inr c)).trans ((recorded.sameBut_answer fits).mono ?_)
  rintro x (answer | journal)
  · exact .inl answer
  · exact .inr (.inl journal)

theorem Prepared.weighed_sameBut (fits : body.length ≤ 64) :
    Memory.SameBut (fun x => slotAnswerBytes k x ∨ journalBytes x ∨ changed x) s.mem (weighed u r k body).mem :=
  h.sameBut (weighed_recorded h.wf r) fits

end Prepared

/-- A change of the visit table alone, and the header's count of it. -/
theorem showVisitCount_prepared {s t : State} (w : s.mem.wf = true) (mem : t.mem = s.mem)
    (intake : t.intake = s.intake) (regs : t.regs = s.regs) (journal : t.journal = s.journal) :
    Prepared (bytesFrom hdrVisits 2) s t.showVisitCount where
  wf := showVisitCount_wf (by rw [mem, w])
  intake := intake
  regs := regs
  journal := journal
  memory := mem ▸ showVisitCount_sameBut (by rw [mem, w])
  header := fun _ h => h.2

/-! A first weighing (R127, R132). -/

/-- A summary kept for an entry is written into it, where there is one. -/
def keepSummary (s : State) (i : Nat) (v : Visit) : Option Summary → State
  | none => s
  | some m => s.writeSummary i v m

theorem writeSummary_of_latched {s : State} (latch : s.store.latch = true) (i : Nat) (v : Visit) (m : Summary) :
    s.writeSummary i v m = s.setPlace i (some { v with entry := { v.entry with summary := some m }, kept := none }) :=
  if_pos latch

theorem writeSummary_of_sound {s : State} (latch : s.store.latch = false) (i : Nat) (v : Visit) (m : Summary) :
    s.writeSummary i v m =
      (s.setPlace i (some { v with entry := { v.entry with summary := some m }, kept := none })).requestJob
        (.summary v.entry.number) (visitRows i { v.entry with summary := some m }) :=
  if_neg (by simp [latch])

/-- A summary changes the visit table and the store alone. -/
theorem keepSummary_fields (s : State) (i : Nat) (v : Visit) (m : Option Summary) :
    ∃ visits store, keepSummary s i v m = { s with visits := visits, store := store } := by
  cases m with
  | none => exact ⟨_, _, rfl⟩
  | some m =>
    cases latch : s.store.latch with
    | true => exact ⟨_, _, writeSummary_of_latched latch i v m⟩
    | false => exact ⟨_, _, writeSummary_of_sound latch i v m⟩

theorem keepSummary_mem (s : State) (i : Nat) (v : Visit) (m : Option Summary) : (keepSummary s i v m).mem = s.mem := by
  obtain ⟨_, _, same⟩ := keepSummary_fields s i v m
  rw [same]

theorem keepSummary_intake (s : State) (i : Nat) (v : Visit) (m : Option Summary) :
    (keepSummary s i v m).intake = s.intake := by
  obtain ⟨_, _, same⟩ := keepSummary_fields s i v m
  rw [same]

theorem keepSummary_regs (s : State) (i : Nat) (v : Visit) (m : Option Summary) :
    (keepSummary s i v m).regs = s.regs := by
  obtain ⟨_, _, same⟩ := keepSummary_fields s i v m
  rw [same]

theorem keepSummary_journal (s : State) (i : Nat) (v : Visit) (m : Option Summary) :
    (keepSummary s i v m).journal = s.journal := by
  obtain ⟨_, _, same⟩ := keepSummary_fields s i v m
  rw [same]

theorem writeSummary_places (s : State) (i : Nat) (v : Visit) (m : Summary) :
    (s.writeSummary i v m).visits =
      (s.setPlace i (some { v with entry := { v.entry with summary := some m }, kept := none })).visits := by
  cases latch : s.store.latch with
  | true => rw [writeSummary_of_latched latch]
  | false => rw [writeSummary_of_sound latch, requestJob_visits]

/-- The body of a first weighing's answer. -/
def firstBody (e : VisitEntry) : List Byte :=
  bytes32 e.number ++ s32 e.weight ++ bytes32 e.time ++ bytes32 e.epoch ++ bytes32 (orZero e.bound)

theorem firstBody_fits (e : VisitEntry) : (firstBody e).length ≤ 64 :=
  Nat.le_of_ble_eq_true rfl

/-- The entry of a first weighing as its completion makes it, before a kept summary is written. -/
def heldVisit (v : Visit) : Visit :=
  { v with status := .held, kept := none }

/-- The part with the entry of a first weighing HELD and counted. -/
def firstHeld (s : State) (i : Nat) (v : Visit) : State :=
  (s.setPlace i (some (heldVisit v))).showVisitCount

theorem firstWeighCompleted_of_found {s : State} {c : Capture} {i : Nat} {v : Visit} (capture : s.capture = some c)
    (found : s.placeOf (c.visit.getD 0) = some i) (entry : s.place i = some v) :
    s.firstWeighCompleted =
      keepSummary (weighed (firstHeld s i v) (weighRecord v.entry (c.e.getD 0)) c.slot (firstBody v.entry)) i
        { v with status := .held } v.kept := by
  simp only [State.firstWeighCompleted, capture, found, entry]
  cases v.kept <;> rfl

theorem firstHeld_prepared {s : State} (w : s.mem.wf = true) (row : RowWrite) (jobs : List Job) (i : Nat) (v : Visit) :
    Prepared (bytesFrom hdrVisits 2) s (firstHeld (rowDone s row jobs) i v) :=
  showVisitCount_prepared w rfl rfl rfl rfl

theorem weighed_visits (u : State) (r : Record) (k : SlotId) (body : List Byte) :
    (weighed u r k body).visits = { u.visits with mark := none } := by
  rw [weighed_eq]

theorem weighed_store (u : State) (r : Record) (k : SlotId) (body : List Byte) :
    (weighed u r k body).store = u.store := by
  rw [weighed_eq]

theorem keepSummary_visitCount {s : State} {i : Nat} {v : Visit} {r : Record} {k : SlotId} {body : List Byte}
    (m : Option Summary) :
    (keepSummary (weighed (firstHeld s i v) r k body) i { v with status := .held } m).visitCount
      = (s.setPlace i (some (heldVisit v))).visitCount := by
  cases m with
  | none =>
    refine visitCount_of_places ?_
    rw [keepSummary, weighed_visits]
    rfl
  | some m =>
    let written : Visit := { heldVisit v with entry := { v.entry with summary := some m } }
    refine Eq.trans (visitCount_of_places (t := s.setPlace i (some written)) ?_)
      (visitCount_setPlace s i (v := written) (w := heldVisit v) rfl)
    rw [keepSummary, writeSummary_places, State.setPlace, weighed_visits]
    exact List.set_set ..

/-- The part when a first weighing has been answered. -/
def firstWeighed (s : State) (row : RowWrite) (jobs : List Job) (c : Capture) (i : Nat) (v : Visit) : State :=
  weighed (firstHeld (rowDone s row jobs) i v) (weighRecord v.entry (c.e.getD 0)) c.slot (firstBody v.entry)

/-- The part when a first weighing has completed. -/
def firstDone (s : State) (row : RowWrite) (jobs : List Job) (c : Capture) (i : Nat) (v : Visit) : State :=
  keepSummary (firstWeighed s row jobs c i v) i { v with status := .held } v.kept

section First

variable {s : State} {row : RowWrite} {jobs : List Job} {c : Capture} {i : Nat} {v : Visit}

theorem exec_firstWeighDone {n : W32} (r : s.Ready) (waiting : s.store.waiting = [])
    (queue : s.store.queue = ⟨.firstWeigh, [row]⟩ :: jobs) (capture : s.capture = some c) (named : c.visit = some n)
    (found : s.placeOf n = some i) (entry : s.place i = some v) (left : Residue) :
    exec (.storeRowWritten true left) s = .next (firstDone s row jobs c i v) := by
  have place : (rowDone s row jobs).placeOf (c.visit.getD 0) = some i := by
    rw [named]
    exact found
  rw [exec_lastRow r waiting queue left, State.jobCompleted,
    firstWeighCompleted_of_found (s := rowDone s row jobs) capture place entry, firstDone, firstWeighed]

/-- Beside the visit table and the store, a kept summary changes nothing of the weighing's end. -/
theorem firstDone_fields (s : State) (row : RowWrite) (jobs : List Job) (c : Capture) (i : Nat) (v : Visit) :
    firstDone s row jobs c i v =
      { firstWeighed s row jobs c i v with
        visits := (firstDone s row jobs c i v).visits
        store := (firstDone s row jobs c i v).store } := by
  obtain ⟨_, _, same⟩ := keepSummary_fields (firstWeighed s row jobs c i v) i { v with status := .held } v.kept
  rw [firstDone, same]

theorem firstDone_written (w : s.mem.wf = true) :
    AnswerWritten c.slot .done (firstBody v.entry) s (firstDone s row jobs c i v) := by
  have prepared := firstHeld_prepared w row jobs i v
  have written : AnswerWritten c.slot .done (firstBody v.entry) s (firstWeighed s row jobs c i v) :=
    weighed_written prepared.wf (firstBody_fits _) prepared.intake
  exact answerWritten_congr written (keepSummary_mem ..) (keepSummary_intake ..) (keepSummary_regs ..)

/-- All that a first weighing's completion changes. -/
theorem firstDone_eq (s : State) (row : RowWrite) (jobs : List Job) (c : Capture) (i : Nat) (v : Visit) :
    firstDone s row jobs c i v =
      { s with
        visits := (firstDone s row jobs c i v).visits
        store := (firstDone s row jobs c i v).store
        capture := none
        lane := s.lane.unmark .capture
        mem := (firstDone s row jobs c i v).mem
        intake := (firstDone s row jobs c i v).intake
        regs := (firstDone s row jobs c i v).regs
        journal := (firstDone s row jobs c i v).journal } := by
  obtain ⟨_, _, kept⟩ := keepSummary_fields (firstWeighed s row jobs c i v) i { v with status := .held } v.kept
  have ended := weighed_eq (firstHeld (rowDone s row jobs) i v) (weighRecord v.entry (c.e.getD 0)) c.slot
    (firstBody v.entry)
  rw [firstDone, kept, firstWeighed, ended]
  rfl

theorem firstDone_of_bare (bare : v.kept = none) :
    (firstDone s row jobs c i v).visits =
        { s.visits with mark := none, places := s.visits.places.set i (some (heldVisit v)) }
      ∧ (firstDone s row jobs c i v).store = (rowDone s row jobs).store := by
  rw [firstDone, bare, keepSummary, firstWeighed, weighed_visits, weighed_store]
  exact ⟨rfl, rfl⟩

theorem firstDone_visits_of_kept {m : Summary} (kept : v.kept = some m) :
    (firstDone s row jobs c i v).visits =
      { s.visits with
        mark := none
        places :=
          s.visits.places.set i
            (some { v with entry := { v.entry with summary := some m }, status := .held, kept := none }) } := by
  rw [firstDone, kept, keepSummary, writeSummary_places, State.setPlace, firstWeighed, weighed_visits]
  exact congrArg (fun places => { s.visits with mark := none, places := places }) (List.set_set ..)

theorem firstWeighed_store : (firstWeighed s row jobs c i v).store = (rowDone s row jobs).store :=
  weighed_store ..

theorem firstWeighed_latch : (firstWeighed s row jobs c i v).store.latch = s.store.latch := by
  rw [firstWeighed_store]
  exact writeRow_latch s row

theorem firstDone_store_of_latched {m : Summary} (kept : v.kept = some m) (latch : s.store.latch = true) :
    (firstDone s row jobs c i v).store = (rowDone s row jobs).store := by
  rw [firstDone, kept, keepSummary, writeSummary_of_latched (firstWeighed_latch.trans latch), setPlace_store,
    firstWeighed_store]

theorem firstDone_store_of_sound {m : Summary} (waiting : s.store.waiting = []) (kept : v.kept = some m)
    (latch : s.store.latch = false) :
    (firstDone s row jobs c i v).store =
      { (rowDone s row jobs).store with
        waiting := [⟨.summary v.entry.number, visitRows i { v.entry with summary := some m }⟩] } := by
  have empty : (rowDone s row jobs).store.waiting = [] := (writeRow_waiting s row).trans waiting
  rw [firstDone, kept, keepSummary, writeSummary_of_sound (firstWeighed_latch.trans latch), State.requestJob,
    setPlace_store, firstWeighed_store, empty, List.nil_append]

theorem firstDone_visitCount (w : s.mem.wf = true) :
    (firstDone s row jobs c i v).mem.read16 hdrVisits = BitVec.ofNat 16 (firstDone s row jobs c i v).visitCount := by
  have shown : (firstHeld (rowDone s row jobs) i v).mem.read16 hdrVisits = _ :=
    showVisitCount_shown (s := (rowDone s row jobs).setPlace i (some (heldVisit v))) w
  rw [firstDone, keepSummary_mem, firstWeighed,
    weighed_read16 (firstHeld_prepared w row jobs i v).wf (firstBody_fits _) (by decide), shown, keepSummary_visitCount]

end First

/-! A second weighing (R128, R141). -/

/-- The part with a ticket committed: its number shown, its copy HELD and its job over. -/
def ticketIssued (s : State) (ticket : Ticket) (i : Nat) : State :=
  { s with
    tickets := { s.tickets with places := s.tickets.places.set i (.held ⟨ticket, 0⟩), job := none }
    mem := s.mem.write32 hdrTicket ticket.number }

/-- The part with a ticket's visit removed too. -/
def ticketCommitted (s : State) (ticket : Ticket) (i j : Nat) : State :=
  visitRemoved (ticketIssued s ticket i) j

theorem commitTicket_of_job {s : State} {ticket : Ticket} {i : Nat} (job : s.tickets.job = some (ticket, i)) :
    s.commitTicket = ticketIssued s ticket i := by
  simp only [State.commitTicket, job]
  rfl

theorem ticketCompleted_of_found {s : State} {c : Capture} {ticket : Ticket} {i j : Nat} (capture : s.capture = some c)
    (job : s.tickets.job = some (ticket, i)) (found : s.placeOf ticket.visit.number = some j) :
    s.ticketCompleted = weighed (ticketCommitted s ticket i j) ticket.record c.slot ticket.answerBody := by
  have removed : s.commitTicket.removeVisit ticket.visit.number = ticketCommitted s ticket i j := by
    rw [commitTicket_of_job job]
    exact removeVisit_of_found found
  simp only [State.ticketCompleted, capture, job, removed]
  rfl

theorem answerBody_fits (t : Ticket) : t.answerBody.length ≤ 64 :=
  Nat.le_of_ble_eq_true rfl

/-- The header's bytes that a ticket's commit writes. -/
def ticketBytes (x : Nat) : Prop :=
  bytesFrom hdrTicket 4 x ∨ bytesFrom hdrVisits 2 x

section Second

variable {s : State} (w : s.mem.wf = true) (row : RowWrite) (jobs : List Job) (ticket : Ticket) (i j : Nat)

theorem ticketIssued_mem :
    (ticketIssued (rowDone s row jobs) ticket i).mem = s.mem.write32 hdrTicket ticket.number := rfl

include w

theorem ticketIssued_wf : (ticketIssued (rowDone s row jobs) ticket i).mem.wf = true := by
  rw [ticketIssued_mem]
  exact Memory.write32_wf w

theorem ticketIssued_number : (ticketIssued (rowDone s row jobs) ticket i).mem.read32 hdrTicket = ticket.number := by
  rw [ticketIssued_mem, Memory.read32_write32 w (by decide)]

theorem ticketIssued_sameBut :
    Memory.SameBut (bytesFrom hdrTicket 4) s.mem (ticketIssued (rowDone s row jobs) ticket i).mem := by
  rw [ticketIssued_mem]
  exact Memory.SameBut.write32 w fun _ lower upper => ⟨lower, upper⟩

/-- Removing the visit writes the header's count alone. -/
theorem ticketCommitted_sameBut :
    Memory.SameBut (bytesFrom hdrVisits 2) (ticketIssued (rowDone s row jobs) ticket i).mem
      (ticketCommitted (rowDone s row jobs) ticket i j).mem :=
  showVisitCount_sameBut (s := (ticketIssued (rowDone s row jobs) ticket i).setPlace j none)
    (ticketIssued_wf w row jobs ticket i)

theorem ticketCommitted_number :
    (ticketCommitted (rowDone s row jobs) ticket i j).mem.read32 hdrTicket = ticket.number := by
  have outside : ∀ x, x < hdrVisits → ¬bytesFrom hdrVisits 2 x := fun x below c => absurd c.1 (by omega)
  rw [(ticketCommitted_sameBut w row jobs ticket i j).read32 (outside _ (by decide)) (outside _ (by decide))
    (outside _ (by decide)) (outside _ (by decide)), ticketIssued_number w]

theorem ticketCommitted_shown :
    (ticketCommitted (rowDone s row jobs) ticket i j).mem.read16 hdrVisits
      = BitVec.ofNat 16 ((ticketIssued (rowDone s row jobs) ticket i).setPlace j none).visitCount :=
  showVisitCount_shown (s := (ticketIssued (rowDone s row jobs) ticket i).setPlace j none)
    (ticketIssued_wf w row jobs ticket i)

theorem ticketCommitted_prepared : Prepared ticketBytes s (ticketCommitted (rowDone s row jobs) ticket i j) where
  wf := showVisitCount_wf (s := (ticketIssued (rowDone s row jobs) ticket i).setPlace j none)
    (ticketIssued_wf w row jobs ticket i)
  intake := rfl
  regs := rfl
  journal := rfl
  memory := ((ticketIssued_sameBut w row jobs ticket i).mono fun _ => .inl).trans
    ((ticketCommitted_sameBut w row jobs ticket i j).mono fun _ => .inr)
  header := by
    have number : hdrTicket = 0x1C := rfl
    have visits : hdrVisits = 0x20 := rfl
    have sweep : hdrSweep = 0x22 := rfl
    rintro x (⟨_, upper⟩ | ⟨_, upper⟩) <;> omega

end Second

/-! Voids and recalls (R133, R147). -/

/-- An answer after records placed changes memory, intake, registers and journal. -/
theorem answer_journaled_eq {e : W16} {u v : State} (h : Journaled e u v) (k : SlotId) (code : AnswerCode)
    (body : List Byte) :
    v.answer k code body =
      { u with
        mem := (v.answer k code body).mem
        intake := (v.answer k code body).intake
        regs := (v.answer k code body).regs
        journal := (v.answer k code body).journal } := by
  obtain ⟨m, q, j, placed⟩ := h.fields
  rw [placed]
  refine (answer_eq _ k code body).trans ?_
  simp only [answer_regs, answer_journal]

/-- The part when a VOID_VISIT has completed. -/
def voided (s : State) (i : Nat) (e : VisitEntry) (k : SlotId) (n : W32) : State :=
  ((visitRemoved s i).record (s.voidedRecord e)).answer k .done (bytes32 n)

theorem voidCompleted_of_found {s : State} {n : W32} {i : Nat} {v : Visit} (found : s.placeOf n = some i)
    (entry : s.place i = some v) (k : SlotId) : s.voidCompleted k n = voided s i v.entry k n := by
  simp only [State.voidCompleted, found, Option.bind_some, entry, removeVisit_of_found found]
  rfl

theorem voided_eq (s : State) (i : Nat) (e : VisitEntry) (k : SlotId) (n : W32) :
    voided s i e k n =
      { visitRemoved s i with
        mem := (voided s i e k n).mem
        intake := (voided s i e k n).intake
        regs := (voided s i e k n).regs
        journal := (voided s i e k n).journal } :=
  answer_journaled_eq (record_journaled _ _) k .done (bytes32 n)

section Void

variable {s : State} (w : s.mem.wf = true) (row : RowWrite) (jobs : List Job) (i : Nat)
include w

theorem visitRemoved_prepared : Prepared (bytesFrom hdrVisits 2) s (visitRemoved (rowDone s row jobs) i) :=
  showVisitCount_prepared w rfl rfl rfl rfl

theorem visitRemoved_recorded (r : Record) :
    Recorded (visitRemoved (rowDone s row jobs) i) ((visitRemoved (rowDone s row jobs) i).record r) :=
  recorded_of_journaled (visitRemoved_prepared w row jobs i).wf (record_journaled _ r)

theorem voided_visitCount (e : VisitEntry) (k : SlotId) (n : W32) :
    (voided (rowDone s row jobs) i e k n).mem.read16 hdrVisits
      = BitVec.ofNat 16 (voided (rowDone s row jobs) i e k n).visitCount := by
  have shown : (visitRemoved (rowDone s row jobs) i).mem.read16 hdrVisits = _ :=
    showVisitCount_shown (s := (rowDone s row jobs).setPlace i none) w
  rw [voided, (visitRemoved_recorded w row jobs i _).read16_answer (Captures.bytes32_fits n) (by decide), shown]
  refine congrArg (BitVec.ofNat 16) (visitCount_of_places ?_)
  rw [← voided, voided_eq]
  rfl

end Void

/-- The part with a recall over and its copy raised, where its place still holds the ticket (R148). -/
def recallRaised (s : State) (i : Nat) (c : TicketCopy) : State :=
  { s with
    tickets :=
      { s.tickets with
        recalls := s.tickets.recalls.filter fun m => m != c.ticket.number
        places :=
          if (s.ticketPlace i).number = some c.ticket.number then s.tickets.places.set i (.held c)
          else s.tickets.places } }

/-- The part when a RECALL_TICKET has completed. -/
def recalled (s : State) (k : SlotId) (i : Nat) (c : TicketCopy) : State :=
  ((recallRaised s i c).placeReserved (s.duplicateRecord c)).answer k .done (bytes32 c.ticket.number ++ u16 c.recalls)

theorem recallCompleted_eq (s : State) (k : SlotId) (i : Nat) (c : TicketCopy) :
    s.recallCompleted k i c = recalled s k i c := by
  have raised : (if ((s.endRecall c.ticket.number).ticketPlace i).number = some c.ticket.number then
      (s.endRecall c.ticket.number).setTicketPlace i (.held c) else s.endRecall c.ticket.number) = recallRaised s i c := by
    have same : (s.endRecall c.ticket.number).ticketPlace i = s.ticketPlace i := rfl
    rw [same, recallRaised]
    split <;> rfl
  unfold State.recallCompleted
  dsimp only
  rw [raised]
  rfl

theorem recallBody_fits (c : TicketCopy) : (bytes32 c.ticket.number ++ u16 c.recalls).length ≤ 64 :=
  Nat.le_of_ble_eq_true rfl

/-- Settles O52: each job's completion is the state it makes, the record placed there, and the answer. -/
theorem weighingsComplete : Obligations.WeighingsComplete := by
  refine ⟨?first, ?second, ?void, ?duplicate⟩
  case first =>
    intro s left row jobs c n i v w r _ waiting queue capture named found entry
    have prepared := firstHeld_prepared w row jobs i v
    have fits := firstBody_fits v.entry
    refine ⟨firstDone s row jobs c i v, exec_firstWeighDone r waiting queue capture named found entry left,
      firstDone_written w, firstDone_fields s row jobs c i v, firstDone_eq s row jobs c i v, firstDone_of_bare,
      fun m kept => ⟨firstDone_visits_of_kept kept, firstDone_store_of_latched kept,
        firstDone_store_of_sound waiting kept⟩, firstDone_visitCount w, ?reservation, ?published, ?raised, ?memory⟩
    case reservation => rw [firstDone, keepSummary_journal, firstWeighed, weighed_reservation]
    case published =>
      have published := prepared.published (r := weighRecord v.entry (c.e.getD 0)) (k := c.slot) fits
      rw [← firstWeighed, ← keepSummary_mem _ i { v with status := .held } v.kept] at published
      exact published
    case raised =>
      rw [firstDone, keepSummary_regs]
      exact weighed_raised prepared.wf prepared.regs
    case memory =>
      rw [firstDone, keepSummary_mem]
      exact prepared.weighed_sameBut fits
  case second =>
    intro s left row jobs c ticket i j w r _ waiting queue capture job found
    have prepared := ticketCommitted_prepared w row jobs ticket i j
    have fits := answerBody_fits ticket
    let u := ticketCommitted (rowDone s row jobs) ticket i j
    refine ⟨weighed u ticket.record c.slot ticket.answerBody, u, ?run, rfl, prepared.memory, rfl,
      weighed_written prepared.wf fits prepared.intake, weighed_eq u ticket.record c.slot ticket.answerBody, ?number,
      ?visits, weighed_reservation .., prepared.published fits, weighed_raised prepared.wf prepared.regs,
      prepared.weighed_sameBut fits⟩
    case run =>
      rw [exec_lastRow r waiting queue left, State.jobCompleted,
        ticketCompleted_of_found (s := rowDone s row jobs) capture job found]
    case number => rw [weighed_read32 prepared.wf fits (by decide), ticketCommitted_number w]
    case visits =>
      rw [weighed_read16 prepared.wf fits (by decide), ticketCommitted_shown w]
      refine congrArg (BitVec.ofNat 16) (visitCount_of_places ?_)
      rw [weighed_visits]
      rfl
  case void =>
    intro s left row jobs k n i v w r waiting queue found entry
    have prepared := visitRemoved_prepared w row jobs i
    have recorded := visitRemoved_recorded w row jobs i (s.voidedRecord v.entry)
    have fits := Captures.bytes32_fits n
    refine ⟨voided (rowDone s row jobs) i v.entry k n, ?_, recorded.answerWritten fits prepared.intake, rfl,
      voided_visitCount w row jobs i v.entry k n, voided_eq (rowDone s row jobs) i v.entry k n,
      recorded.raised_answer prepared.regs, prepared.sameBut recorded fits⟩
    rw [exec_lastRow r waiting queue left, State.jobCompleted,
      voidCompleted_of_found (s := rowDone s row jobs) found entry]
  case duplicate =>
    intro s left row jobs k i c w r _ waiting queue
    have journaled := placeReserved_journaled (recallRaised (rowDone s row jobs) i c) (s.duplicateRecord c)
    have recorded := recorded_of_journaled (u := recallRaised (rowDone s row jobs) i c) w journaled
    have fits := recallBody_fits c
    refine ⟨recalled (rowDone s row jobs) k i c, ?run, recorded.answerWritten fits rfl, rfl, ?reservation,
      answer_journaled_eq journaled k .done _, recorded.raised_answer rfl, recorded.sameBut_answer fits⟩
    case run => rw [exec_lastRow r waiting queue left, State.jobCompleted, recallCompleted_eq]
    case reservation => rw [recalled, answer_journal, placeReserved_reservation]

end Sys2Proof.Completions
end

section
/-! SUPPORT. Reservations, RECALL_TICKET and READ_AUDIT (R146, R158, R184, R185): when room is reserved, the recall that
stays in flight, the copies of audit entries that are offered, and the statement about them. -/

namespace Sys2Proof.Duplicates

open Sys2Proof Sys2Proof.Machine Sys2Proof.Orders Sys2Proof.Reserved Sys2Proof.Completions

/-! Reservations (R158). -/

/-- Nothing but the want of room can refuse a reservation. -/
def Reservable (s : State) : Prop :=
  s.journal.reservation = none ∧ s.journal.blocked = false ∧ s.journal.outbox = [] ∧ s.journal.owed = false

/-- Room for a record of a kind is reserved on the current page. -/
def reserved (s : State) (kind : RecordKind) : State :=
  { s with journal := { s.journal with reservation := some ⟨kind, reservedLength kind⟩ } }

theorem reserve_of_busy {s : State} (busy : ¬Reservable s) (kind : RecordKind) : s.reserve kind = none := by
  refine if_pos ?_
  by_contra idle
  refine busy ?_
  simpa [Reservable, and_assoc] using idle

theorem reserve_of_unopened {s : State} (unopened : s.journal.current = none) (kind : RecordKind) :
    s.reserve kind = none := by
  simp only [State.reserve, unopened, ite_self]

/-- With nothing else in the way, a reservation goes by the room on the current page and the state of the next. -/
theorem reserve_of_reservable {s : State} {p : PageId} (free : Reservable s) (current : s.journal.current = some p)
    (kind : RecordKind) :
    s.reserve kind =
      if reservedLength kind ≤ s.pageLeft p then some (reserved s kind)
      else if s.pageState (nextPage p) = pageFree ∨ s.pageState (nextPage p) = pageReturned then
        some (reserved s.publish kind)
      else none := by
  obtain ⟨unreserved, unblocked, empty, paid⟩ := free
  simp [State.reserve, reserved, unreserved, unblocked, empty, paid, current]

theorem reserve_of_room {s : State} {p : PageId} {kind : RecordKind} (free : Reservable s)
    (current : s.journal.current = some p) (room : reservedLength kind ≤ s.pageLeft p) :
    s.reserve kind = some (reserved s kind) := by
  rw [reserve_of_reservable free current, if_pos room]

theorem reserve_of_next {s : State} {p : PageId} {kind : RecordKind} (free : Reservable s)
    (current : s.journal.current = some p) (full : s.pageLeft p < reservedLength kind)
    (next : s.pageState (nextPage p) = pageFree ∨ s.pageState (nextPage p) = pageReturned) :
    s.reserve kind = some (reserved s.publish kind) := by
  rw [reserve_of_reservable free current, if_neg (by omega), if_pos next]

/-- A current page without room, before a page that cannot be opened. -/
def NoRoom (s : State) (kind : RecordKind) : Prop :=
  ∃ p, s.journal.current = some p ∧ s.pageLeft p < reservedLength kind ∧ s.pageState (nextPage p) ≠ pageFree
    ∧ s.pageState (nextPage p) ≠ pageReturned

theorem reserve_of_noRoom {s : State} {kind : RecordKind} (noRoom : NoRoom s kind) : s.reserve kind = none := by
  obtain ⟨p, current, full, notFree, notReturned⟩ := noRoom
  by_cases free : Reservable s
  · rw [reserve_of_reservable free current, if_neg (by omega), if_neg (not_or.mpr ⟨notFree, notReturned⟩)]
  · exact reserve_of_busy free kind

/-- What refuses a reservation (R158). -/
theorem reserve_refused {s : State} {kind : RecordKind}
    (h : ¬Reservable s ∨ s.journal.current = none ∨ NoRoom s kind) : s.reserve kind = none := by
  rcases h with busy | unopened | noRoom
  · exact reserve_of_busy busy kind
  · exact reserve_of_unopened unopened kind
  · exact reserve_of_noRoom noRoom

/-- The page published is offered to the host, unless it is the page opened next. -/
theorem publish_pageState {s : State} {p : PageId} (w : s.mem.wf = true) (current : s.journal.current = some p)
    (other : p ≠ nextPage s.journal.nextFill) : s.publish.pageState p = pagePublished := by
  have apart := pageBase_other other
  have above := pageBase_lower p
  have blocked : hdrBlocked = 0x2E := rfl
  have next : hdrNextFill = 0x26 := rfl
  have kept : ∀ x, pageBase p ≤ x → x < pageBase p + 2 →
      ¬(openedBytes (nextPage s.journal.nextFill) x ∨ bytesFrom hdrNextFill 2 x) := by
    intro x lower upper
    simp only [openedBytes, bytesFrom]
    omega
  have shown : (shownPage s p).read16 (pageBase p) = pagePublished :=
    (shownPage_recordShown (used := 0) (bytes := []) w rfl).state
  rw [State.pageState, (publish_sameBut w current).read16 (kept _ (by omega) (by omega)) (kept _ (by omega) (by omega)),
    shown]

/-! The journal at a take (R107). -/

theorem beginOrder_pageState {s : State} (w : s.mem.wf = true) (k : SlotId) (kind : OrderKind) (p : PageId) :
    (s.beginOrder k kind).pageState p = s.pageState p :=
  have := slotBase_upper k
  have := pageBase_lower p
  Memory.read16_write16_other w (by omega)

theorem beginOrder_pageLeft {s : State} (w : s.mem.wf = true) (k : SlotId) (kind : OrderKind) (p : PageId) :
    (s.beginOrder k kind).pageLeft p = s.pageLeft p := by
  have := slotBase_upper k
  have := pageBase_lower p
  have used : (s.beginOrder k kind).mem.read16 (pageBase p + 8) = s.mem.read16 (pageBase p + 8) :=
    Memory.read16_write16_other w (by omega)
  rw [State.pageLeft, State.pageUsed, used]
  rfl

theorem beginOrder_noRoom {s : State} (w : s.mem.wf = true) (k : SlotId) (kind : OrderKind) {record : RecordKind}
    (noRoom : NoRoom s record) : NoRoom (s.beginOrder k kind) record := by
  obtain ⟨p, current, full, next⟩ := noRoom
  exact ⟨p, current, by rwa [beginOrder_pageLeft w], by rwa [beginOrder_pageState w]⟩

/-! The recall of a ticket (R146). -/

/-- The copy that a recall writes. -/
def recalledCopy (c : TicketCopy) : TicketCopy :=
  { c with recalls := raiseTo65535 c.recalls }

/-- The recall of a number is in flight, and the row with the raised count is requested. -/
def recallBegun (s : State) (k : SlotId) (n : W32) (i : Nat) (c : TicketCopy) : State :=
  ({ s with tickets := { s.tickets with recalls := s.tickets.recalls ++ [n] } } : State).requestJob
    (.recall k i (recalledCopy c)) [.ticket i 3 (recalledCopy c)]

theorem recallOrder_of_latched {s : State} (latched : s.store.latch = true) (k : SlotId) :
    s.recallOrder k = s.answer k .storeFault [] :=
  if_pos latched

theorem recallOrder_of_absent {s : State} {k : SlotId} {n : W32} (ordered : s.order32 k 0 = n)
    (sound : s.store.latch = false) (absent : s.copyPlace n = none) : s.recallOrder k = s.answer k .notFound [] := by
  simp [State.recallOrder, ordered, sound, absent]

section Held

variable {s : State} {k : SlotId} {n : W32} {i : Nat} {c : TicketCopy} (ordered : s.order32 k 0 = n)
  (sound : s.store.latch = false) (found : s.copyPlace n = some i) (held : s.ticketPlace i = .held c)
include ordered sound found held

theorem recallOrder_of_busy (busy : n ∈ s.tickets.recalls) : s.recallOrder k = s.answer k .recallBusy [] := by
  simp [State.recallOrder, ordered, sound, found, held, busy]

theorem recallOrder_of_refused (idle : n ∉ s.tickets.recalls) (refused : s.reserve .duplicate = none) :
    s.recallOrder k = s.answer k .journalFull [] := by
  simp [State.recallOrder, ordered, sound, found, held, idle, refused]

theorem recallOrder_of_granted {u : State} (idle : n ∉ s.tickets.recalls)
    (granted : s.reserve .duplicate = some u) : s.recallOrder k = recallBegun u k n i c := by
  simp [State.recallOrder, ordered, sound, found, held, idle, granted, recallBegun, recalledCopy]

end Held

theorem exec_recallTicket (s : State) (k : SlotId) :
    exec (.recallTicket k) s = .next (s.whenOn fun u => u.takePosted k .recallTicket State.recallOrder) := rfl

/-- The take of a RECALL_TICKET that is answered at once. -/
theorem exec_recallTicket_answered {s : State} {k : SlotId} {code : AnswerCode} (p : s.Posted k .recallTicket)
    (owned : (s.beginOrder k .recallTicket).recallOrder k = (s.beginOrder k .recallTicket).answer k code []) :
    ∃ t : State, exec (.recallTicket k) s = .next t ∧ AnsweredAs k code [] s s t :=
  exec_answered (exec_recallTicket s k) p rfl rfl (Nat.zero_le _) rfl owned

/-- The part when a RECALL_TICKET has been taken, with `u` the part in which its room is reserved. -/
def recallTaken (u : State) (k : SlotId) (n : W32) (i : Nat) (c : TicketCopy) : State :=
  (recallBegun (reserved u .duplicate) k n i c).setPosition k

theorem exec_recallTicket_granted {s u : State} {k : SlotId} {i : Nat} {c : TicketCopy} (p : s.Posted k .recallTicket)
    (sound : s.store.latch = false) (found : s.copyPlace (s.order32 k 0) = some i) (held : s.ticketPlace i = .held c)
    (idle : s.order32 k 0 ∉ s.tickets.recalls)
    (granted : (s.beginOrder k .recallTicket).reserve .duplicate = some (reserved u .duplicate)) :
    exec (.recallTicket k) s = .next (recallTaken u k (s.order32 k 0) i c) := by
  rw [exec_recallTicket, takePosted_runs p rfl rfl,
    recallOrder_of_granted (s := s.beginOrder k .recallTicket) (beginOrder_order32 p.memory k _ 0) sound found held idle
      granted]
  rfl

theorem recallTaken_mem (u : State) (k : SlotId) (n : W32) (i : Nat) (c : TicketCopy) :
    (recallTaken u k n i c).mem = u.mem.write16 hdrSweep (BitVec.ofNat 16 k.val) := rfl

theorem recallTaken_intake (u : State) (k : SlotId) (n : W32) (i : Nat) (c : TicketCopy) :
    (recallTaken u k n i c).intake = { u.intake with position := k } := rfl

theorem recallTaken_store (u : State) (k : SlotId) (n : W32) (i : Nat) (c : TicketCopy) :
    (recallTaken u k n i c).store =
      { u.store with
        waiting := u.store.waiting ++ [⟨.recall k i (recalledCopy c), [.ticket i 3 (recalledCopy c)]⟩] } := rfl

theorem recallTaken_changes (u : State) (k : SlotId) (n : W32) (i : Nat) (c : TicketCopy) :
    recallTaken u k n i c =
      { u with
        tickets := { u.tickets with recalls := u.tickets.recalls ++ [n] }
        journal := { u.journal with reservation := some ⟨.duplicate, 236⟩ }
        mem := (recallTaken u k n i c).mem
        intake := (recallTaken u k n i c).intake
        store := (recallTaken u k n i c).store } := rfl

/-- The sweep position is all that the take still writes once the room is reserved (R106). -/
theorem recallTaken_sweep {u : State} (w : u.mem.wf = true) (k : SlotId) (n : W32) (i : Nat) (c : TicketCopy) :
    Memory.SameBut (bytesFrom hdrSweep 2) u.mem (recallTaken u k n i c).mem :=
  Memory.SameBut.write16 (x := hdrSweep) w ⟨by omega, by omega⟩ ⟨by omega, by omega⟩

theorem recallTaken_pageState {u : State} (w : u.mem.wf = true) (k : SlotId) (n : W32) (i : Nat) (c : TicketCopy)
    (p : PageId) : (recallTaken u k n i c).pageState p = u.pageState p := by
  have above := pageBase_lower p
  have sweep : hdrSweep = 0x22 := rfl
  rw [State.pageState, recallTaken_mem, Memory.read16_write16_other w (by omega)]
  rfl

/-- With room on the current page, the take writes what every take writes. -/
theorem recallTaken_takeBytes {s : State} (w : s.mem.wf = true) (k : SlotId) (n : W32) (i : Nat) (c : TicketCopy) :
    Memory.SameBut (takeBytes k) s.mem (recallTaken (s.beginOrder k .recallTicket) k n i c).mem := by
  rw [recallTaken_mem]
  exact Captures.begunAs_sameBut w s k .recallTicket

section Taken

variable {s u : State} {k : SlotId} (w : s.mem.wf = true) (n : W32) (i : Nat) (c : TicketCopy)
  (h : Journaled causeJournal (s.beginOrder k .recallTicket) u)

include h

theorem recallTaken_requested :
    Requested (.recall k i (recalledCopy c)) [.ticket i 3 (recalledCopy c)] s (recallTaken u k n i c) := by
  have store : u.store = s.store := by rw [h.eq, beginOrder_store]
  rw [Requested, recallTaken_store, store]

/-- The recall taken changes the recalls in flight, the journal with the memory and the registers, the intake and the
store's jobs. -/
theorem recallTaken_eq :
    recallTaken u k n i c =
      { s with
        tickets := { s.tickets with recalls := s.tickets.recalls ++ [n] }
        journal := { u.journal with reservation := some ⟨.duplicate, 236⟩ }
        mem := (recallTaken u k n i c).mem
        intake := (recallTaken u k n i c).intake
        regs := u.regs
        store := (recallTaken u k n i c).store } := by
  refine (recallTaken_changes u k n i c).trans ?_
  generalize (recallTaken u k n i c).mem = m, (recallTaken u k n i c).intake = x, (recallTaken u k n i c).store = y
  obtain ⟨_, _, _, rfl⟩ := h.fields
  rfl

include w

theorem recallTaken_inFlight : InFlight k .recallTicket s (recallTaken u k n i c) := by
  have lower := slotBase_lower k
  have upper := slotBase_upper k
  have size : Memory.size = 0x8000 := rfl
  have sweep : hdrSweep = 0x22 := rfl
  have storeFault : hdrStoreFault = 0x30 := rfl
  have wf := h.wf (beginOrder_wf w k _)
  have same := h.memory (beginOrder_wf w k _)
  have outside : ∀ x, slotBase k ≤ x → x < slotBase k + 2 → ¬journalBytes x := by
    intro x _ _
    simp only [journalBytes]
    omega
  have taken : (s.beginOrder k .recallTicket).mem.read16 (slotBase k) = slotTaken := Memory.read16_write16 w (by omega)
  have intake : u.intake = (s.beginOrder k .recallTicket).intake := by rw [h.eq]
  refine ⟨?state, ?sweep, ?position, ?flight⟩
  case state =>
    rw [State.slotState, recallTaken_mem, Memory.read16_write16_other wf (by omega),
      same.read16 (outside _ (by omega) (by omega)) (outside _ (by omega) (by omega)), taken]
  case sweep => rw [recallTaken_mem, Memory.read16_write16 wf (by omega)]
  case position => rw [recallTaken_intake]
  case flight =>
    rw [recallTaken_intake, intake]
    rfl

theorem recallTaken_sameBut :
    Memory.SameBut (fun x => takeBytes k x ∨ journalBytes x) s.mem (recallTaken u k n i c).mem := by
  have begun : Memory.SameBut (takeBytes k) s.mem (s.beginOrder k .recallTicket).mem :=
    Memory.SameBut.write16 w (.inl (by omega)) (.inl (by omega))
  have swept := recallTaken_sweep (h.wf (beginOrder_wf w k _)) k n i c
  exact ((begun.mono fun _ => .inl).trans ((h.memory (beginOrder_wf w k _)).mono fun _ => .inr)).trans
    (swept.mono fun _ inside => .inl (.inr inside))

end Taken

/-! READ_AUDIT (R185). -/

/-- Entries are offered to the journal as copies, one after another. -/
def copiesOffered (s : State) (copies : List AuditEntry) : State :=
  copies.foldl (fun u e => u.record (auditRecord e true)) s

/-- The body of the answer: how many copies, and the serial of the last. -/
def copiesBody (first : W32) (copies : List AuditEntry) : List Byte :=
  u16 copies.length ++ bytes32 ((copies.getLast?.map (·.serial)).getD first)

theorem copiesBody_fits (first : W32) (copies : List AuditEntry) : (copiesBody first copies).length ≤ 64 :=
  Nat.le_of_ble_eq_true rfl

theorem copiesOffered_journaled (copies : List AuditEntry) (s : State) :
    Journaled causeJournal s (copiesOffered s copies) := by
  induction copies generalizing s with
  | nil => exact Journaled.refl _ s
  | cons e copies ih => exact (record_journaled s (auditRecord e true)).trans (ih _)

/-- An entry held is among those from its serial on. -/
theorem auditCopies_ne_nil {es : List AuditEntry} {first : W32} {count : Nat} (held : ∃ e ∈ es, e.serial = first)
    (asked : 1 ≤ count) : auditCopies es first count ≠ [] := by
  obtain ⟨e, member, serial⟩ := held
  rw [auditCopies, Ne, List.take_eq_nil_iff, List.dropWhile_eq_nil_iff]
  rintro (zero | absent)
  · omega
  · simpa [serial] using absent e member

theorem readAudit_of_absent {s : State} {k : SlotId} {first : W32} (ordered : s.order32 k 0 = first)
    (absent : ∀ e ∈ s.audit.entries, e.serial ≠ first) : s.readAudit k = s.answer k .notFound [] := by
  refine if_pos ?_
  simpa [ordered] using absent

section Entries

variable {s : State} {k : SlotId} {first : W32} (ordered : s.order32 k 0 = first)
  (held : ∃ e ∈ s.audit.entries, e.serial = first)
include ordered held

theorem readAudit_of_full
    (full : s.journal.blocked = true ∨ s.journal.outbox ≠ [] ∨ s.journal.reservation ≠ none) :
    s.readAudit k = s.answer k .journalFull [] := by
  refine (if_neg ?_).trans (if_pos ?_)
  · simpa [ordered] using held
  · simpa [Option.isSome_iff_ne_none, or_assoc] using full

theorem readAudit_of_room (unblocked : s.journal.blocked = false) (empty : s.journal.outbox = [])
    (unreserved : s.journal.reservation = none) :
    s.readAudit k =
      (copiesOffered s (auditCopies s.audit.entries first (s.order16 k 4).toNat)).answer k .done
        (copiesBody first (auditCopies s.audit.entries first (s.order16 k 4).toNat)) := by
  rw [← ordered] at held ⊢
  refine (if_neg ?_).trans (if_neg ?_)
  · simpa using held
  · simp [unblocked, empty, unreserved]

end Entries

theorem exec_readAudit (s : State) (k : SlotId) :
    exec (.readAudit k) s = .next (s.whenOn fun u => u.takePosted k .readAudit State.readAudit) := rfl

theorem exec_readAudit_answered {s : State} {k : SlotId} {code : AnswerCode} (p : s.Posted k .readAudit)
    (inRange : s.badOrderParam k .readAudit = none)
    (owned : (s.beginOrder k .readAudit).readAudit k = (s.beginOrder k .readAudit).answer k code []) :
    ∃ t : State, exec (.readAudit k) s = .next t ∧ AnsweredAs k code [] s s t :=
  exec_answered (exec_readAudit s k) p inRange rfl (Nat.zero_le _) rfl owned

/-! An order answered at its take after records have been placed. -/

section Placed

variable {s v : State} {k : SlotId} {kind : OrderKind} {code : AnswerCode} {body : List Byte} (w : s.mem.wf = true)
  (h : Journaled causeJournal (s.beginOrder k kind) v)
include h

theorem placed_answer_eq :
    (v.answer k code body).setPosition k =
      { s with
        mem := ((v.answer k code body).setPosition k).mem
        intake := ((v.answer k code body).setPosition k).intake
        regs := ((v.answer k code body).setPosition k).regs
        journal := ((v.answer k code body).setPosition k).journal } := by
  obtain ⟨_, _, _, rfl⟩ := h.fields
  exact answer_rest _ k code body

include w

theorem placed_answer_answered (fits : body.length ≤ 64) :
    Answered k code body s ((v.answer k code body).setPosition k) := by
  have intake : v.intake = (s.beginOrder k kind).intake := by rw [h.eq]
  obtain ⟨flight, claim⟩ := beginOrder_holds s k kind
  exact answer_answered (h.wf (beginOrder_wf w k kind)) fits ⟨by rw [intake, flight], by rw [intake, claim]⟩

theorem placed_answer_sameBut (fits : body.length ≤ 64) :
    Memory.SameBut (fun x => answerBytes k x ∨ journalBytes x) s.mem ((v.answer k code body).setPosition k).mem := by
  have begun := beginOrder_wf w k kind
  exact (((beginOrder_sameBut w k kind).mono fun _ => .inl).trans ((h.memory begun).mono fun _ => .inr)).trans
    ((answer_sameBut (h.wf begun) fits).mono fun _ => .inl)

theorem placed_answer_raised :
    Registers.Raised (causeAnswer ||| causeJournal) s.regs ((v.answer k code body).setPosition k).regs := by
  have recorded := recorded_of_journaled (beginOrder_wf w k kind) h
  rw [setPosition_regs]
  exact recorded.raised_answer (beginOrder_regs s k kind)

end Placed

/-! An audit entry written (R184). -/

/-- The pump shows the host nothing: it changes the log's own state and the store's jobs. -/
theorem auditPump_shown (s : State) :
    s.auditPump.journal = s.journal ∧ s.auditPump.mem = s.mem ∧ s.auditPump.regs = s.regs := by
  unfold State.auditPump
  dsimp only
  repeat' split
  all_goals exact ⟨rfl, rfl, rfl⟩

/-- Settles O48: the recall by its checks in order, with the reservation on the page at hand or on the next; the copies
as records placed before the answer; and the entry as a record that the log's pump does not touch. -/
theorem recallTicketAndReadAudit : Obligations.RecallTicketAndReadAudit := by
  refine ⟨?recalled, ?readAudit, ?written⟩
  case recalled =>
    intro s k p n free
    have ordered := beginOrder_order32 p.memory k .recallTicket 0
    refine ⟨fun i c sound found held => ⟨?room, ?next, ?full, ?busy⟩, fun sound absent => ?absent,
      fun latched => ?latched⟩
    case room =>
      intro page idle free current room
      have granted := reserve_of_room (s := s.beginOrder k .recallTicket) (kind := .duplicate) free current
        (by rwa [beginOrder_pageLeft p.memory])
      have unmoved := Journaled.refl causeJournal (s.beginOrder k .recallTicket)
      have changes := recallTaken_eq n i c unmoved
      rw [beginOrder_journal, beginOrder_regs] at changes
      exact ⟨_, exec_recallTicket_granted p sound found held idle granted,
        recallTaken_inFlight p.memory n i c unmoved, recallTaken_requested n i c unmoved, changes,
        recallTaken_takeBytes p.memory k n i c⟩
    case next =>
      intro page idle free current full next moved
      have granted := reserve_of_next (s := s.beginOrder k .recallTicket) (kind := .duplicate) free current
        (by rwa [beginOrder_pageLeft p.memory]) (by rwa [beginOrder_pageState p.memory])
      have published : Journaled causeJournal (s.beginOrder k .recallTicket) moved := publish_journaled _
      have begun := beginOrder_wf p.memory k .recallTicket
      have swept := recallTaken_sweep (published.wf begun) k n i c
      refine ⟨_, exec_recallTicket_granted p sound found held idle granted,
        recallTaken_inFlight p.memory n i c published, recallTaken_requested n i c published,
        recallTaken_eq n i c published, swept, fun other => ?offered, published.raised,
        recallTaken_sameBut p.memory n i c published⟩
      case offered =>
        rw [recallTaken_pageState (published.wf begun)]
        exact publish_pageState begun current other
    case full =>
      intro idle refused
      exact exec_recallTicket_answered p (recallOrder_of_refused (s := s.beginOrder k .recallTicket) ordered sound found
        held idle (reserve_refused (refused.imp_right (.imp_right (beginOrder_noRoom p.memory k .recallTicket)))))
    case busy =>
      exact fun busy => exec_recallTicket_answered p
        (recallOrder_of_busy (s := s.beginOrder k .recallTicket) ordered sound found held busy)
    case absent =>
      exact exec_recallTicket_answered p
        (recallOrder_of_absent (s := s.beginOrder k .recallTicket) ordered sound absent)
    case latched =>
      exact exec_recallTicket_answered p (recallOrder_of_latched (s := s.beginOrder k .recallTicket) latched k)
  case readAudit =>
    intro s k p inRange first count
    have ordered := beginOrder_order32 p.memory k .readAudit 0
    refine ⟨fun held unblocked empty unreserved => ?room, fun held full => ?full, fun absent => ?absent⟩
    case room =>
      intro rest copies body
      have placed := copiesOffered_journaled copies (s.beginOrder k .readAudit)
      have asked : 1 ≤ count := ((Intake.readAudit_inRange_iff s k).mp inRange).1
      have fits := copiesBody_fits first copies
      have owned := readAudit_of_room (s := s.beginOrder k .readAudit) ordered held unblocked empty unreserved
      rw [beginOrder_order16 p.memory] at owned
      refine ⟨_, ?run, List.length_take, auditCopies_ne_nil held asked,
        placed_answer_answered p.memory placed fits, rfl, placed_answer_eq placed,
        placed_answer_raised p.memory placed, placed_answer_sameBut p.memory placed fits⟩
      case run =>
        rw [exec_readAudit, takePosted_runs p inRange rfl, owned]
        rfl
    case full =>
      exact exec_readAudit_answered p inRange (readAudit_of_full (s := s.beginOrder k .readAudit) ordered held full)
    case absent =>
      exact exec_readAudit_answered p inRange (readAudit_of_absent (s := s.beginOrder k .readAudit) ordered absent)
  case written =>
    intro s kind detail e joined t
    exact ⟨writeAudit_audited s kind detail, auditPump_shown _⟩

end Sys2Proof.Duplicates
end

section
/-! SUPPORT. The journal at work (R150 to R159): a page published and the page that follows, a record placed, offered,
queued or dropped, drains and the end of a reservation, PUBLISH_NOW and PUBLISH_DELAY, and the statement about them. -/

namespace Sys2Proof.Publishing

open Sys2Proof Sys2Proof.Machine Sys2Proof.Orders Sys2Proof.Reserved Sys2Proof.Duplicates

/-! The page that is opened (R151). -/

theorem openPage_regs (s : State) : s.openPage.regs = s.regs := by
  unfold State.openPage
  dsimp only
  split <;> rfl

/-- Opening a page leaves the numbering of the pages and the attention count. -/
structure NumberingKept (s t : State) : Prop where
  nextSequence : t.journal.nextSequence = s.journal.nextSequence
  nextFill : t.journal.nextFill = s.journal.nextFill
  attention : t.journal.attention = s.journal.attention

theorem openPage_numberingKept (s : State) : NumberingKept s s.openPage := by
  unfold State.openPage
  dsimp only
  split <;> exact ⟨rfl, rfl, rfl⟩

theorem openPage_blocks {s : State} (published : s.pageState s.journal.nextFill = pagePublished) :
    s.openPage.journal = { s.journal with current := none, blocked := true } := by
  unfold State.openPage
  dsimp only
  rw [if_pos published]
  rfl

section Opens

variable {s : State} (free : s.pageState s.journal.nextFill ≠ pagePublished)
include free

theorem openPage_opens :
    s.openPage.journal =
      { s.journal with current := some s.journal.nextFill, delay := 0, prompt := false, blocked := false } := by
  unfold State.openPage
  dsimp only
  rw [if_neg free]
  rfl

theorem openPage_filling (w : s.mem.wf = true) : s.openPage.pageState s.journal.nextFill = pageFilling := by
  have above := pageBase_lower s.journal.nextFill
  have below := pageBase_upper s.journal.nextFill
  have size : Memory.size = 0x8000 := rfl
  have blocked : hdrBlocked = 0x2E := rfl
  have cleared := Memory.clearBytes_wf (x := pageBase s.journal.nextFill) (n := 256) w
  have mem : s.openPage.mem =
      ((s.mem.clearBytes (pageBase s.journal.nextFill) 256).write16 (pageBase s.journal.nextFill) pageFilling).write16
        hdrBlocked 0 := by
    unfold State.openPage
    dsimp only
    rw [if_neg free]
    rfl
  rw [State.pageState, mem, Memory.read16_write16_other (Memory.write16_wf cleared) (by omega),
    Memory.read16_write16 cleared (by omega)]

end Opens

/-! A page published (R152, R154). -/

/-- The publication of the current page raises JOURNAL. -/
def attends (s : State) : Bool :=
  s.journal.prompt || decide (s.site.attentionPages ≤ raiseTo65535 s.journal.attention)

theorem raiseTo65535_eq (n : Nat) : raiseTo65535 n = min 65535 (n + 1) := by
  unfold raiseTo65535
  split <;> omega

theorem attends_iff {s : State} :
    attends s = true ↔ s.journal.prompt = true ∨ s.site.attentionPages ≤ min 65535 (s.journal.attention + 1) := by
  simp only [attends, raiseTo65535_eq, Bool.or_eq_true, decide_eq_true_eq]

/-- The state when a page has been numbered, offered, shown and judged, and filling moves on. -/
def offeredPage (s : State) (p : PageId) : State :=
  { s with
    mem := (shownPage s p).write16 hdrNextFill (BitVec.ofNat 16 (nextPage s.journal.nextFill).val)
    regs := { s.regs with cause := if attends s then s.regs.cause ||| causeJournal else s.regs.cause }
    journal :=
      { s.journal with
        nextSequence := nextSerial s.journal.nextSequence
        attention := raiseTo65535 s.journal.attention
        nextFill := nextPage s.journal.nextFill } }

theorem judgeAttention_eq (s : State) :
    s.judgeAttention =
      { s with
        regs := { s.regs with cause := if attends s then s.regs.cause ||| causeJournal else s.regs.cause }
        journal := { s.journal with attention := raiseTo65535 s.journal.attention } } := by
  unfold State.judgeAttention
  dsimp only
  change (if attends s = true then _ else _) = _
  split <;> rfl

theorem shownPage_sameBut {s : State} (w : s.mem.wf = true) (p : PageId) :
    Memory.SameBut (shownBytes p) s.mem (shownPage s p) := by
  have wNumber := Memory.write32_wf (x := pageBase p + 4) (v := s.journal.nextSequence) w
  have wState := Memory.write16_wf (x := pageBase p) (v := pagePublished) wNumber
  have wPage := Memory.write16_wf (x := hdrLastPage) (v := BitVec.ofNat 16 p.val) wState
  exact (((Memory.SameBut.write32 w fun y _ _ => .inl ⟨by omega, by omega⟩).trans
    (Memory.SameBut.write16 wNumber (.inl ⟨by omega, by omega⟩) (.inl ⟨by omega, by omega⟩))).trans
    (Memory.SameBut.write16 wState (.inr (.inl ⟨by omega, by omega⟩)) (.inr (.inl ⟨by omega, by omega⟩)))).trans
    (Memory.SameBut.write32 wPage fun y lower upper => .inr (.inr ⟨lower, upper⟩))

theorem offeredPage_mem (s : State) (p : PageId) :
    (offeredPage s p).mem =
      (shownPage s p).write16 hdrNextFill (BitVec.ofNat 16 (nextPage s.journal.nextFill).val) := rfl

theorem offeredPage_wf {s : State} (w : s.mem.wf = true) (p : PageId) : (offeredPage s p).mem.wf = true := by
  rw [offeredPage_mem]
  exact Memory.write16_wf (shownPage_wf w p)

/-- A publication leaves the state words of the other pages until one of them is opened. -/
theorem offeredPage_pageState {s : State} {p q : PageId} (w : s.mem.wf = true) (other : p ≠ q) :
    (offeredPage s p).pageState q = s.pageState q := by
  have apart := pageBase_other other
  have above := pageBase_lower q
  have page : hdrLastPage = 0x24 := rfl
  have next : hdrNextFill = 0x26 := rfl
  have sequence : hdrLastSequence = 0x28 := rfl
  have outside : ∀ x, pageBase q ≤ x → x < pageBase q + 2 → ¬shownBytes p x := by
    intro x lower upper
    simp only [shownBytes, bytesFrom]
    omega
  rw [State.pageState, offeredPage_mem, Memory.read16_write16_other (shownPage_wf w p) (by omega),
    (shownPage_sameBut w p).read16 (outside _ (by omega) (by omega)) (outside _ (by omega) (by omega))]
  rfl

section Published

variable {s : State} {p : PageId} (current : s.journal.current = some p)
include current

/-- A publication shows its page and opens the page that follows. -/
theorem publish_eq : s.publish = (offeredPage s p).openPage := by
  simp only [State.publish, current, judgeAttention_eq, attends, offeredPage, shownPage, State.writeWord,
    State.writeLong]
  rfl

theorem publish_nextSequence : s.publish.journal.nextSequence = nextSerial s.journal.nextSequence := by
  rw [publish_eq current, (openPage_numberingKept _).nextSequence]
  rfl

theorem publish_nextFill : s.publish.journal.nextFill = nextPage s.journal.nextFill := by
  rw [publish_eq current, (openPage_numberingKept _).nextFill]
  rfl

theorem publish_attention : s.publish.journal.attention = min 65535 (s.journal.attention + 1) := by
  rw [publish_eq current, (openPage_numberingKept _).attention, ← raiseTo65535_eq]
  rfl

theorem publish_cause :
    s.publish.regs.cause = if attends s then s.regs.cause ||| causeJournal else s.regs.cause := by
  rw [publish_eq current, openPage_regs]
  rfl

theorem publish_named (w : s.mem.wf = true) :
    s.publish.mem.read32 hdrLastSequence = s.journal.nextSequence
      ∧ s.publish.mem.read16 hdrLastPage = BitVec.ofNat 16 p.val := by
  have above := pageBase_lower (nextPage s.journal.nextFill)
  have page : hdrLastPage = 0x24 := rfl
  have next : hdrNextFill = 0x26 := rfl
  have sequence : hdrLastSequence = 0x28 := rfl
  have blocked : hdrBlocked = 0x2E := rfl
  have kept : ∀ x, (0x24 ≤ x ∧ x < 0x26) ∨ (0x28 ≤ x ∧ x < 0x2C) →
      ¬(openedBytes (nextPage s.journal.nextFill) x ∨ bytesFrom hdrNextFill 2 x) := by
    intro x named
    simp only [openedBytes, bytesFrom]
    omega
  have same := publish_sameBut w current
  have shown := shownPage_recordShown (p := p) (used := 0) (bytes := []) w rfl
  rw [same.read32 (kept _ (by omega)) (kept _ (by omega)) (kept _ (by omega)) (kept _ (by omega)),
    same.read16 (kept _ (by omega)) (kept _ (by omega))]
  exact ⟨shown.sequence, shown.page⟩

section Next

variable (w : s.mem.wf = true) (other : p ≠ nextPage s.journal.nextFill)
include w other

/-- A page that follows and is still PUBLISHED blocks the journal (R151). -/
theorem publish_blocks (taken : s.pageState (nextPage s.journal.nextFill) = pagePublished) :
    s.publish.journal.blocked = true ∧ s.publish.journal.current = none := by
  rw [← offeredPage_pageState w other] at taken
  rw [publish_eq current, openPage_blocks taken]
  exact ⟨rfl, rfl⟩

/-- Any other page that follows is opened (R151). -/
theorem publish_fills (free : s.pageState (nextPage s.journal.nextFill) ≠ pagePublished) :
    s.publish.journal.blocked = false ∧ s.publish.journal.current = some (nextPage s.journal.nextFill)
      ∧ s.publish.pageState (nextPage s.journal.nextFill) = pageFilling := by
  rw [← offeredPage_pageState w other] at free
  have filling := openPage_filling free (offeredPage_wf w p)
  rw [publish_eq current, openPage_opens free]
  exact ⟨rfl, rfl, filling⟩

end Next

end Published

/-! PUBLISH_NOW (R153). -/

theorem exec_publishNow (s : State) (k : SlotId) :
    exec (.publishNow k) s = .next (s.whenOn fun u => u.takePosted k .publishNow State.publishOrder) := rfl

/-- The body of the answer of PUBLISH_NOW: what was done, and the page and its sequence. -/
def publishBody (done page : Int) (sequence : W32) : List Byte :=
  u16 done ++ u16 page ++ bytes32 sequence

theorem publishBody_fits (done page : Int) (sequence : W32) : (publishBody done page sequence).length ≤ 64 :=
  Nat.le_of_ble_eq_true rfl

/-- The current page is to be published when the reservation ends (R159). -/
def dueAs (s : State) : State :=
  { s with journal := { s.journal with due := true } }

theorem publishOrder_of_nothing {s : State} (nothing : ∀ p, s.journal.current = some p → s.pageCount p = 0)
    (k : SlotId) : s.publishOrder k = s.answer k .done (publishBody 2 0 0) := by
  unfold State.publishOrder
  cases current : s.journal.current with
  | none => rfl
  | some p => exact if_pos (nothing p current)

section Holds

variable {s : State} {p : PageId} (current : s.journal.current = some p) (holds : s.pageCount p ≠ 0)
include current holds

theorem publishOrder_of_reserved (reserved : s.journal.reservation ≠ none) (k : SlotId) :
    s.publishOrder k = (dueAs s).answer k .done (publishBody 1 0 0) := by
  simp only [State.publishOrder, current, if_neg holds, Option.isSome_iff_ne_none.mpr reserved, if_true, dueAs,
    publishBody]

theorem publishOrder_of_unreserved (unreserved : s.journal.reservation = none) (k : SlotId) :
    s.publishOrder k = s.publish.answer k .done (publishBody 0 p.val s.journal.nextSequence) := by
  simp only [State.publishOrder, current, if_neg holds, unreserved]
  rfl

end Holds

theorem beginOrder_pageCount {s : State} (w : s.mem.wf = true) (k : SlotId) (kind : OrderKind) (p : PageId) :
    (s.beginOrder k kind).pageCount p = s.pageCount p := by
  have below := slotBase_upper k
  have above := pageBase_lower p
  have count : (s.beginOrder k kind).mem.read16 (pageBase p + 2) = s.mem.read16 (pageBase p + 2) :=
    Memory.read16_write16_other w (by omega)
  rw [State.pageCount, count]
  rfl

/-- The answer of an order stands apart from the journal. -/
theorem journalBytes_not_answerBytes {x : Nat} (h : journalBytes x) (k : SlotId) : ¬answerBytes k x := by
  have lower := slotBase_lower k
  have upper := slotBase_upper k
  have sweep : hdrSweep = 0x22 := rfl
  have page : hdrLastPage = 0x24 := rfl
  have fault : hdrStoreFault = 0x30 := rfl
  simp only [journalBytes, answerBytes] at h ⊢
  omega

section Answered

variable {v : State} (w : v.mem.wf = true) (k : SlotId) {code : AnswerCode} {body : List Byte}
  (fits : body.length ≤ 64)
include w fits

theorem answered_pageState (p : PageId) :
    ((v.answer k code body).setPosition k).pageState p = v.pageState p := by
  have above := pageBase_lower p
  exact (answer_sameBut w fits).read16 (journalBytes_not_answerBytes (.inr (by omega)) k)
    (journalBytes_not_answerBytes (.inr (by omega)) k)

theorem answered_named :
    ((v.answer k code body).setPosition k).mem.read32 hdrLastSequence = v.mem.read32 hdrLastSequence
      ∧ ((v.answer k code body).setPosition k).mem.read16 hdrLastPage = v.mem.read16 hdrLastPage := by
  have kept := fun {x} (h : hdrLastPage ≤ x ∧ x < hdrStoreFault) => journalBytes_not_answerBytes (.inl h) k
  have same := answer_sameBut (k := k) (code := code) w fits
  exact ⟨same.read32 (kept (by decide)) (kept (by decide)) (kept (by decide)) (kept (by decide)),
    same.read16 (kept (by decide)) (kept (by decide))⟩

end Answered

/-- An answer beside a publication hides nothing of JOURNAL. -/
theorem journal_raised_iff {c : W16} (clear : c &&& causeJournal = 0) (raised : Bool) :
    ((if raised then c ||| causeJournal else c) ||| causeAnswer) &&& causeJournal = causeJournal ↔ raised = true := by
  have answer : causeAnswer &&& causeJournal = 0 := by decide
  have journal : 0#16 ≠ causeJournal := by decide
  cases raised <;> simp [BitVec.and_or_distrib_right, clear, answer, journal]

/-- The part when PUBLISH_NOW has published a page and been answered. -/
def publishedNow (s : State) (k : SlotId) (p : PageId) : State :=
  ((s.beginOrder k .publishNow).publish.answer k .done (publishBody 0 p.val s.journal.nextSequence)).setPosition k

section Taken

variable {s : State} {k : SlotId} (posted : s.Posted k .publishNow)
include posted

/-- PUBLISH_NOW with nothing to publish. -/
theorem exec_publishNow_of_nothing (nothing : ∀ p, s.journal.current = some p → s.pageCount p = 0) :
    ∃ t : State, exec (.publishNow k) s = .next t ∧ AnsweredAs k .done (publishBody 2 0 0) s s t :=
  exec_answered (exec_publishNow s k) posted rfl rfl (publishBody_fits 2 0 0) rfl
    (publishOrder_of_nothing (fun p current => (beginOrder_pageCount posted.memory k _ p).trans (nothing p current)) k)

variable {p : PageId} (current : s.journal.current = some p) (holds : s.pageCount p ≠ 0)
include current holds

/-- PUBLISH_NOW while a reservation is held. -/
theorem exec_publishNow_of_reserved (reserved : s.journal.reservation ≠ none) :
    ∃ t : State, exec (.publishNow k) s = .next t ∧ AnsweredAs k .done (publishBody 1 0 0) s (dueAs s) t := by
  rw [← beginOrder_pageCount posted.memory k .publishNow] at holds
  exact exec_answered (exec_publishNow s k) posted rfl rfl (publishBody_fits 1 0 0) rfl
    (publishOrder_of_reserved (s := s.beginOrder k .publishNow) current holds reserved k)

theorem exec_publishNow_of_unreserved (unreserved : s.journal.reservation = none) :
    exec (.publishNow k) s = .next (publishedNow s k p) := by
  rw [← beginOrder_pageCount posted.memory k .publishNow] at holds
  rw [exec_publishNow, takePosted_runs posted rfl rfl,
    publishOrder_of_unreserved (s := s.beginOrder k .publishNow) current holds unreserved, beginOrder_journal,
    publishedNow]

end Taken

theorem publishedNow_journal (s : State) (k : SlotId) (p : PageId) :
    (publishedNow s k p).journal = (s.beginOrder k .publishNow).publish.journal := by
  rw [publishedNow, setPosition_journal, answer_journal]

section PublishedNow

variable {s : State} {p : PageId} (current : s.journal.current = some p) (k : SlotId)
include current

theorem publishedNow_nextSequence : (publishedNow s k p).journal.nextSequence = nextSerial s.journal.nextSequence := by
  rw [publishedNow_journal]
  exact publish_nextSequence (s := s.beginOrder k .publishNow) current

theorem publishedNow_nextFill : (publishedNow s k p).journal.nextFill = nextPage s.journal.nextFill := by
  rw [publishedNow_journal]
  exact publish_nextFill (s := s.beginOrder k .publishNow) current

theorem publishedNow_attention : (publishedNow s k p).journal.attention = min 65535 (s.journal.attention + 1) := by
  rw [publishedNow_journal]
  exact publish_attention (s := s.beginOrder k .publishNow) current

theorem publishedNow_cause_iff (clear : s.regs.cause &&& causeJournal = 0) :
    (publishedNow s k p).regs.cause &&& causeJournal = causeJournal ↔
      s.journal.prompt = true ∨ s.site.attentionPages ≤ (publishedNow s k p).journal.attention := by
  have cause := publish_cause (s := s.beginOrder k .publishNow) current
  rw [publishedNow_attention current k, publishedNow, setPosition_regs, answer_regs, cause]
  exact (journal_raised_iff clear _).trans attends_iff

variable (w : s.mem.wf = true)
include w

theorem publishedNow_named :
    (publishedNow s k p).mem.read32 hdrLastSequence = s.journal.nextSequence
      ∧ (publishedNow s k p).mem.read16 hdrLastPage = BitVec.ofNat 16 p.val := by
  have begun := beginOrder_wf w k .publishNow
  have shown := publish_named (s := s.beginOrder k .publishNow) current begun
  have kept := answered_named ((publish_journaled _).wf begun) k (code := .done)
    (publishBody_fits 0 p.val s.journal.nextSequence)
  exact ⟨kept.1.trans shown.1, kept.2.trans shown.2⟩

/-- The page is offered to the host, and filling moves on to the next or blocks on it (R151, R152). -/
theorem publishedNow_pages (other : p ≠ nextPage s.journal.nextFill) :
    (publishedNow s k p).pageState p = pagePublished
      ∧ (s.pageState (nextPage s.journal.nextFill) = pagePublished →
        (publishedNow s k p).journal.blocked = true ∧ (publishedNow s k p).journal.current = none)
      ∧ (s.pageState (nextPage s.journal.nextFill) ≠ pagePublished →
        (publishedNow s k p).journal.blocked = false
          ∧ (publishedNow s k p).journal.current = some (nextPage s.journal.nextFill)
          ∧ (publishedNow s k p).pageState (nextPage s.journal.nextFill) = pageFilling) := by
  have begun := beginOrder_wf w k .publishNow
  have page : (s.beginOrder k .publishNow).journal.current = some p := current
  have kept : ∀ q, (publishedNow s k p).pageState q = (s.beginOrder k .publishNow).publish.pageState q :=
    answered_pageState ((publish_journaled _).wf begun) k (publishBody_fits 0 p.val s.journal.nextSequence)
  rw [kept, kept, publishedNow_journal, ← beginOrder_pageState w k .publishNow]
  exact ⟨publish_pageState begun page other, publish_blocks page begun other, publish_fills page begun other⟩

end PublishedNow

/-! PUBLISH_DELAY (R153, assumption 4). -/

theorem delayReached_iff {s : State} :
    s.delayReached = true ↔
      ∃ p, s.journal.current = some p ∧ s.pageCount p ≠ 0 ∧ s.site.publishDelay ≤ s.journal.delay := by
  unfold State.delayReached
  cases s.journal.current with
  | none => simp
  | some p => simp

theorem publishByDelay_of_reserved {s : State} (reserved : s.journal.reservation ≠ none) :
    s.publishByDelay = dueAs s :=
  if_pos (Option.isSome_iff_ne_none.mpr reserved)

theorem publishByDelay_of_unreserved {s : State} (unreserved : s.journal.reservation = none) :
    s.publishByDelay = s.publish := by
  simp [State.publishByDelay, unreserved]

theorem exec_publishDelay (s : State) : exec .publishDelay s = .next (s.takeStopped .publishDelay) := rfl

section Stopped

variable {s : State} {rest : List Piece} (h : s.StoppedAt .publishDelay rest)
include h

theorem exec_publishDelay_of_reserved (reserved : s.journal.reservation ≠ none) :
    exec .publishDelay s = .next ((dueAs { s with unfinished := [] }).run true rest) := by
  rw [exec_publishDelay, takeStopped_of_stopped h, State.takeOwn,
    publishByDelay_of_reserved (s := { s with unfinished := [] }) reserved]

theorem exec_publishDelay_of_unreserved (unreserved : s.journal.reservation = none) :
    exec .publishDelay s = .next (({ s with unfinished := [] } : State).publish.run true rest) := by
  rw [exec_publishDelay, takeStopped_of_stopped h, State.takeOwn,
    publishByDelay_of_unreserved (s := { s with unfinished := [] }) unreserved]

end Stopped

/-! A record placed (R150). -/

/-- The memory when a record has been placed: its bytes, then the bytes used and the count. -/
theorem placeOn_mem (s : State) (p : PageId) (r : Record) :
    (s.placeOn p r).mem =
      ((s.mem.writeBytes (pageBody p + s.pageUsed p) (r.bytes s.journal.nextSerial)).write16 (pageBase p + 8)
        (BitVec.ofNat 16 (s.pageUsed p + r.length))).write16 (pageBase p + 2) (BitVec.ofNat 16 (s.pageCount p + 1)) :=
  rfl

theorem placeOn_journal (s : State) (p : PageId) (r : Record) :
    (s.placeOn p r).journal =
      { s.journal with
        nextSerial := nextSerial s.journal.nextSerial
        prompt := s.journal.prompt || r.kind.prompt
        firstAt := if s.pageCount p = 0 then some s.link.cadence else s.journal.firstAt } := by
  simp only [State.placeOn, writeWord_journal, writeRun_journal, writeWord_link, writeRun_link]

theorem placeOn_eq (s : State) (p : PageId) (r : Record) :
    s.placeOn p r = { s with mem := (s.placeOn p r).mem, journal := (s.placeOn p r).journal } := by
  simp only [State.placeOn, State.writeWord, State.writeRun]

section PlacedOn

variable {s : State} {p : PageId} {r : Record} (w : s.mem.wf = true) (room : s.pageUsed p + r.length ≤ 240)
include w

theorem placeOn_pageCount (below : s.pageCount p < 65535) : (s.placeOn p r).pageCount p = s.pageCount p + 1 := by
  have upper := pageBase_upper p
  have size : Memory.size = 0x8000 := rfl
  rw [State.pageCount, placeOn_mem,
    Memory.read16_write16 (Memory.write16_wf (Memory.writeBytes_wf w)) (by omega), BitVec.toNat_ofNat]
  exact Nat.mod_eq_of_lt (by omega)

theorem placeOn_sameBut :
    Memory.SameBut
      (fun x => bytesFrom (pageBody p + s.pageUsed p) r.length x ∨ bytesFrom (pageBase p + 8) 2 x
        ∨ bytesFrom (pageBase p + 2) 2 x) s.mem (s.placeOn p r).mem := by
  have long := record_bytes_length r s.journal.nextSerial
  have wRun := Memory.writeBytes_wf (x := pageBody p + s.pageUsed p) (bs := r.bytes s.journal.nextSerial) w
  rw [placeOn_mem]
  exact ((Memory.SameBut.writeBytes w fun y lower upper => .inl ⟨lower, by omega⟩).trans
    (Memory.SameBut.write16 wRun (.inr (.inl ⟨by omega, by omega⟩)) (.inr (.inl ⟨by omega, by omega⟩)))).trans
    (Memory.SameBut.write16 (Memory.write16_wf wRun) (.inr (.inr ⟨by omega, by omega⟩))
      (.inr (.inr ⟨by omega, by omega⟩)))

include room

theorem placeOn_pageUsed : (s.placeOn p r).pageUsed p = s.pageUsed p + r.length := by
  have upper := pageBase_upper p
  have size : Memory.size = 0x8000 := rfl
  have wRun := Memory.writeBytes_wf (x := pageBody p + s.pageUsed p) (bs := r.bytes s.journal.nextSerial) w
  rw [State.pageUsed, placeOn_mem, Memory.read16_write16_other (Memory.write16_wf wRun) (by omega),
    Memory.read16_write16 wRun (by omega), BitVec.toNat_ofNat]
  exact Nat.mod_eq_of_lt (by omega)

theorem placeOn_bytes :
    (s.placeOn p r).mem.readBytes (pageBody p + s.pageUsed p) r.length = r.bytes s.journal.nextSerial := by
  have placed := placeOn_record w room
  rwa [record_bytes_length] at placed

end PlacedOn

/-! A record offered (R151, R152, R156, R159). -/

/-- A record is placed on a page, which is published where it is a prompt record. -/
def placedAt (r : Record) (s : State) (p : PageId) : State :=
  if r.kind.prompt then (s.placeOn p r).publish else s.placeOn p r

/-- A record is placed on a page beside a reservation, and a prompt one makes the page due. -/
def placedBeside (r : Record) (s : State) (p : PageId) : State :=
  if r.kind.prompt then dueAs (s.placeOn p r) else s.placeOn p r

section Offered

variable {s : State} {r : Record}

theorem record_of_holding (holding : s.journal.holding = true) :
    s.record r = { s with journal := { s.journal with held := s.journal.held ++ [r] } } :=
  if_pos holding

theorem record_of_steady (steady : s.journal.holding = false) : s.record r = s.offer r :=
  if_neg (by simp [steady])

theorem offer_of_waiting (unreserved : s.journal.reservation = none)
    (waiting : s.journal.blocked = true ∨ s.journal.outbox ≠ []) : s.offer r = s.queueRecord r := by
  simp only [State.offer, unreserved]
  exact if_pos (by simpa using waiting)

section Unhindered

variable (unreserved : s.journal.reservation = none) (unblocked : s.journal.blocked = false)
  (empty : s.journal.outbox = [])
include unreserved unblocked empty

section Current

variable {p : PageId} (current : s.journal.current = some p)
include current

theorem offer_of_room (room : r.length ≤ s.pageLeft p) : s.offer r = placedAt r s p := by
  simp [State.offer, unreserved, unblocked, empty, current, State.fits, room, placedAt]

section Full

variable (full : s.pageLeft p < r.length)
include full

theorem offer_of_full_blocked (blocks : s.publish.journal.current = none) :
    s.offer r = s.publish.queueRecord r := by
  simp [State.offer, unreserved, unblocked, empty, current, State.fits, Nat.not_le.mpr full, blocks]

theorem offer_of_full {q : PageId} (moved : s.publish.journal.current = some q) :
    s.offer r = placedAt r s.publish q := by
  simp [State.offer, unreserved, unblocked, empty, current, State.fits, Nat.not_le.mpr full, moved, placedAt]

end Full

end Current

section Unopened

variable (unopened : s.journal.current = none)
include unopened

theorem offer_of_unopened_blocked (blocks : s.openPage.journal.current = none) :
    s.offer r = s.openPage.queueRecord r := by
  simp [State.offer, unreserved, unblocked, empty, unopened, blocks]

theorem offer_of_unopened {p : PageId} (opened : s.openPage.journal.current = some p)
    (room : r.length ≤ s.openPage.pageLeft p) : s.offer r = placedAt r s.openPage p := by
  simp [State.offer, unreserved, unblocked, empty, unopened, opened, State.fits, room, placedAt]

end Unopened

end Unhindered

section Beside

variable {res : Reservation} (reserved : s.journal.reservation = some res)
include reserved

theorem offer_beside {p : PageId} (current : s.journal.current = some p)
    (room : r.length + res.length ≤ s.pageLeft p) (empty : s.journal.outbox = []) :
    s.offer r = placedBeside r s p := by
  simp [State.offer, reserved, current, empty, State.fits, room, placedBeside, dueAs]

theorem offer_of_reserved
    (hindered : s.journal.current = none ∨ s.journal.outbox ≠ []
      ∨ ∀ p, s.journal.current = some p → s.pageLeft p < r.length + res.length) :
    s.offer r = s.queueRecord r := by
  simp only [State.offer, reserved]
  cases current : s.journal.current with
  | none => rfl
  | some p =>
    refine if_neg ?_
    simp only [State.fits, Bool.and_eq_true, decide_eq_true_eq, List.isEmpty_iff]
    rintro ⟨room, empty⟩
    rcases hindered with unopened | waiting | full
    · simp [unopened] at current
    · exact waiting empty
    · exact absurd (full p current) (Nat.not_lt.mpr room)

end Beside

theorem queueRecord_of_room
    (room : s.journal.outbox.length < 16 ∨ (s.journal.outbox.length < 24 ∧ r.kind = .audit)) :
    s.queueRecord r =
      { s with
        journal := { s.journal with outbox := s.journal.outbox ++ [r] }
        mem := s.mem.write16 hdrOutbox (BitVec.ofNat 16 (s.journal.outbox.length + 1)) } := by
  rw [State.queueRecord, if_pos room, State.setOutbox, List.length_append]
  rfl

theorem queueRecord_of_full (full : 16 ≤ s.journal.outbox.length)
    (noAudit : r.kind ≠ .audit ∨ 24 ≤ s.journal.outbox.length) :
    s.queueRecord r = { s with journal := { s.journal with owed := true, notes := s.journal.notes.drop r } } := by
  rw [State.queueRecord, if_neg ?noRoom]
  case noRoom =>
    rintro (short | ⟨short, audit⟩)
    · omega
    · exact noAudit.elim (absurd audit) (by omega)
  rfl

end Offered

/-! A drain (R155, R157). -/

/-- A blocked journal, a reservation, or nothing queued and nothing owed: there is no drain. -/
theorem drain_of_idle {s : State}
    (idle : s.journal.blocked = true ∨ s.journal.reservation ≠ none
      ∨ (s.journal.owed = false ∧ s.journal.outbox = [])) :
    s.drain = s := by
  rcases idle with blocked | reserved | ⟨paid, empty⟩
  · simp [State.drain, blocked]
  · exact if_pos (by simp [Option.isSome_iff_ne_none.mpr reserved])
  · exact drain_of_clear empty paid

section Drains

variable {s : State} (unblocked : s.journal.blocked = false) (unreserved : s.journal.reservation = none)
include unblocked unreserved

theorem drain_of_waiting (paid : s.journal.owed = false) (waiting : s.journal.outbox ≠ []) :
    s.drain = (s.drainOutbox s.journal.outbox).judgePage := by
  simp [State.drain, unblocked, unreserved, paid, waiting]

theorem drain_of_owed_blocked (owed : s.journal.owed = true) (blocks : s.placeSummary.journal.blocked = true) :
    s.drain = s.placeSummary.judgePage := by
  simp [State.drain, unblocked, unreserved, owed, blocks]

theorem drain_of_owed (owed : s.journal.owed = true) (continues : s.placeSummary.journal.blocked = false) :
    s.drain = (s.placeSummary.drainOutbox s.placeSummary.journal.outbox).judgePage := by
  simp [State.drain, unblocked, unreserved, owed, continues]

end Drains

/-- A SUMMARY has been placed: nothing is noted or owed any longer. -/
def noted (s : State) : State :=
  { s with journal := { s.journal with notes := Notes.start, owed := false, owedRestart := false } }

section Steps

variable {s : State} {p : PageId} (current : s.journal.current = some p)
include current

theorem placeSummary_of_room (room : s.summaryRecord.length ≤ s.pageLeft p) :
    s.placeSummary = noted (s.placeOn p s.summaryRecord) := by
  simp [State.placeSummary, current, State.fits, room, noted]

section FullSummary

variable (full : s.pageLeft p < s.summaryRecord.length)
include full

theorem placeSummary_of_blocked (blocks : s.publish.journal.current = none) : s.placeSummary = s.publish := by
  simp [State.placeSummary, current, State.fits, Nat.not_le.mpr full, blocks]

theorem placeSummary_of_moved {q : PageId} (moved : s.publish.journal.current = some q) :
    s.placeSummary = noted (s.publish.placeOn q s.publish.summaryRecord) := by
  simp [State.placeSummary, current, State.fits, Nat.not_le.mpr full, moved, noted]

end FullSummary

variable {r : Record} {rest : List Record}

theorem drainOutbox_of_room (room : r.length ≤ s.pageLeft p) :
    s.drainOutbox (r :: rest) = ((s.placeOn p r).setOutbox rest).drainOutbox rest := by
  simp [State.drainOutbox, current, State.fits, room]

section FullPage

variable (full : s.pageLeft p < r.length)
include full

theorem drainOutbox_of_blocked (blocks : s.publish.journal.current = none) :
    s.drainOutbox (r :: rest) = s.publish := by
  simp [State.drainOutbox, current, State.fits, Nat.not_le.mpr full, blocks]

theorem drainOutbox_of_moved {q : PageId} (moved : s.publish.journal.current = some q) :
    s.drainOutbox (r :: rest) = ((s.publish.placeOn q r).setOutbox rest).drainOutbox rest := by
  simp [State.drainOutbox, current, State.fits, Nat.not_le.mpr full, moved]

end FullPage

/-- A drain leaves its page published for a prompt record on it or its delay reached. -/
theorem judgePage_eq :
    s.judgePage =
      if s.journal.prompt = true ∨ (s.pageCount p ≠ 0 ∧ s.site.publishDelay ≤ s.journal.delay) then s.publish
      else s := by
  simp [State.judgePage, current]

end Steps

/-! The end of a reservation (R159). -/

section Reservation

variable {s : State} {p : PageId} (current : s.journal.current = some p)
include current

theorem placeReserved_of_current (r : Record) :
    s.placeReserved r = ((s.endReservation.placeOn p r).publish).drain := by
  simp only [State.placeReserved, current]

variable {res : Reservation} (reserved : s.journal.reservation = some res)
include reserved

theorem releaseReservation_of_due (due : s.journal.due = true) (holds : s.pageCount p ≠ 0) :
    s.releaseReservation = s.endReservation.publish.drain := by
  simp [State.releaseReservation, current, reserved, due, holds]

theorem releaseReservation_of_undue (undue : s.journal.due = false ∨ s.pageCount p = 0) :
    s.releaseReservation = s.endReservation.drain := by
  rcases undue with undue | empty
  · simp [State.releaseReservation, current, reserved, undue]
  · simp [State.releaseReservation, current, reserved, empty]

end Reservation

/-! Records noted as lost (R156). -/

theorem drop_axleReport {r : Record} (kind : r.kind = .axleReport) (n : Notes) :
    n.drop r =
      { n with
        firstTraverse := some (n.firstTraverse.getD r.key)
        lastTraverse := some r.key
        reports := min 65535 (n.reports + 1) } := by
  simp only [Notes.drop, kind, raiseTo65535_eq]

theorem drop_audit {r : Record} (kind : r.kind = .audit) (n : Notes) :
    n.drop r =
      { n with
        firstAudit := some (n.firstAudit.getD r.key)
        lastAudit := some r.key
        audits := min 65535 (n.audits + 1) } := by
  simp only [Notes.drop, kind, raiseTo65535_eq]

theorem drop_notice {r : Record} (kind : r.kind = .condition ∨ r.kind = .startup) (n : Notes) :
    n.drop r = { n with notices := min 65535 (n.notices + 1) } := by
  rcases kind with kind | kind <;> simp only [Notes.drop, kind, raiseTo65535_eq]

theorem drop_visit {r : Record} (kind : r.kind = .visitVoided ∨ r.kind = .visitExpired) (n : Notes) :
    n.drop r = { n with visits := min 65535 (n.visits + 1) } := by
  rcases kind with kind | kind <;> simp only [Notes.drop, kind, raiseTo65535_eq]

theorem drop_clockSet {r : Record} (kind : r.kind = .clockSet) (n : Notes) :
    n.drop r = { n with clocks := min 65535 (n.clocks + 1) } := by
  simp only [Notes.drop, kind, raiseTo65535_eq]

/-- Settles O45: the order by what the page holds and whether a reservation stands, PUBLISH_DELAY at its stop, and the
journal's operations one by one. -/
theorem publishNowAndDelay : Obligations.PublishNowAndDelay := by
  refine ⟨fun s k posted => ⟨?publishes, ?marks, exec_publishNow_of_nothing posted⟩, ?delay, ?undue, ?placed, ?ended,
    ?offered, ?dropped, ?drained⟩
  case publishes =>
    intro p current holds unreserved
    have w := posted.memory
    have published := publish_journaled (s.beginOrder k .publishNow)
    have fits := publishBody_fits 0 p.val s.journal.nextSequence
    obtain ⟨sequence, page⟩ := publishedNow_named current k w
    refine ⟨_, exec_publishNow_of_unreserved posted current holds unreserved,
      placed_answer_answered w published fits, placed_answer_eq published, placed_answer_raised w published,
      publishedNow_nextSequence current k, publishedNow_nextFill current k, sequence, page,
      publishedNow_attention current k, publishedNow_cause_iff current k, ?pages,
      placed_answer_sameBut w published fits⟩
    case pages =>
      rintro other q rfl
      obtain ⟨offered, blocks, fills⟩ := publishedNow_pages current k w other
      exact ⟨offered, fun _ => blocks, fun _ => fills⟩
  case marks => exact fun p current holds reserved => exec_publishNow_of_reserved posted current holds reserved
  case delay =>
    intro s rest stopped
    exact ⟨delayReached_iff.mp stopped.due, exec_publishDelay_of_reserved stopped,
      exec_publishDelay_of_unreserved stopped⟩
  case undue =>
    intro s h
    rw [exec_publishDelay, takeStopped_of_not h]
  case placed =>
    intro s p r w room below
    exact ⟨_, rfl, placeOn_eq s p r, placeOn_bytes w room, placeOn_pageUsed w room, placeOn_pageCount w below,
      placeOn_journal s p r, placeOn_sameBut w⟩
  case ended =>
    exact fun s p r res current reserved => ⟨placeReserved_of_current current r,
      releaseReservation_of_due current reserved, releaseReservation_of_undue current reserved⟩
  case offered =>
    intro s r
    refine ⟨record_of_holding, record_of_steady, offer_of_waiting, ?current, ?unopened,
      fun res reserved => ⟨fun p => offer_beside reserved, offer_of_reserved reserved⟩, queueRecord_of_room,
      queueRecord_of_full⟩
    case current =>
      intro p unreserved unblocked empty current
      exact ⟨offer_of_room unreserved unblocked empty current, fun full =>
        ⟨offer_of_full_blocked unreserved unblocked empty current full,
          fun q => offer_of_full unreserved unblocked empty current full⟩⟩
    case unopened =>
      intro unreserved unblocked empty unopened
      exact ⟨offer_of_unopened_blocked unreserved unblocked empty unopened,
        fun p => offer_of_unopened unreserved unblocked empty unopened⟩
  case dropped =>
    exact fun n r =>
      ⟨(drop_axleReport · n), (drop_audit · n), (drop_notice · n), (drop_visit · n), (drop_clockSet · n)⟩
  case drained =>
    intro s
    refine ⟨drain_of_idle, drain_of_waiting, ?owed, ?summary, rfl, ?outbox, ?judged⟩
    case owed =>
      exact fun unblocked unreserved owed =>
        ⟨drain_of_owed_blocked unblocked unreserved owed, drain_of_owed unblocked unreserved owed⟩
    case summary =>
      exact fun p current => ⟨placeSummary_of_room current, fun full =>
        ⟨placeSummary_of_blocked current full, fun q => placeSummary_of_moved current full⟩⟩
    case outbox =>
      exact fun p r rest current => ⟨drainOutbox_of_room current, fun full =>
        ⟨drainOutbox_of_blocked current full, fun q => drainOutbox_of_moved current full⟩⟩
    case judged =>
      exact fun p current => ⟨fun full => (judgePage_eq current).trans (if_pos full),
        fun undue => (judgePage_eq current).trans (if_neg undue)⟩

end Sys2Proof.Publishing
end

section
/-! SUPPORT. The end of a calibration session (R163, R165, R176, R177): IN_TEST deck by deck, the part with its session
shown in the header, what is logged and answered after that, and the statement about sessions that end without an
installation. -/

namespace Sys2Proof.SessionEnds

open Sys2Proof Sys2Proof.Machine Sys2Proof.Orders Sys2Proof.CaptureEnds Sys2Proof.Completions

/-! A session shown (R163). -/

/-- The decks of the monitor with IN_TEST on those that can carry it (R46). -/
def testDecks (s : State) (on : Bool) : Four DeckMonitor :=
  s.monitor.decks.map fun d x =>
    if s.metro.active.isEnabled d = true then { x with flags := { x.flags with inTest := on } } else x

theorem setInTest_eq (s : State) (on : Bool) :
    s.setInTest on = { s with monitor := { s.monitor with decks := testDecks s on } } := by
  obtain ⟨only, decks⟩ := setInTest_spec s on
  have same : (s.setInTest on).monitor.decks = testDecks s on :=
    Four.ext_get fun d => by
      rw [decks, testDecks, Four.get_map]
      rfl
  rw [← same]
  exact only

theorem testDecks_on (s : State) (d : DeckId) :
    (testDecks s true).get d =
      { s.monitor.decks.get d with
        flags := { s.flagsOf d with inTest := s.metro.active.isEnabled d || (s.flagsOf d).inTest } } := by
  rw [testDecks, Four.get_map]
  cases s.metro.active.isEnabled d <;> rfl

theorem testDecks_off (s : State) (d : DeckId) :
    (testDecks s false).get d =
      { s.monitor.decks.get d with
        flags := { s.flagsOf d with inTest := !s.metro.active.isEnabled d && (s.flagsOf d).inTest } } := by
  rw [testDecks, Four.get_map]
  cases s.metro.active.isEnabled d <;> rfl

/-- The part with a session whose state the header shows, the override of the heads that goes with it, and IN_TEST set
or cleared. -/
def inSession (s : State) (x : Session) (l : Lane) (on : Bool) : State :=
  { s with
    session := x
    lane := l
    monitor := { s.monitor with decks := testDecks s on }
    mem := s.mem.write16 hdrSession (BitVec.ofNat 16 x.state.code) }

/-- A session that is over: nothing is left of it but the count of sessions opened. -/
def ended (x : Session) : Session :=
  { x with
    state := .closed
    staged := none
    revision := 0
    tests := []
    provisional := []
    idle := 0
    commit := none
    stored := false }

/-- The part with its session over. -/
def sessionOver (s : State) : State :=
  inSession s (ended s.session) (s.lane.unmark .session) false

theorem endSession_eq (s : State) : s.endSession = sessionOver s := by
  rw [State.endSession, setInTest_eq]
  rfl

/-! The header's bytes of the session. -/

/-- The header shows the session in a word that neither the journal nor an answer nor a take writes. -/
theorem session_not_journal : ¬journalBytes hdrSession ∧ ¬journalBytes (hdrSession + 1) := by
  simp [journalBytes, hdrSession, hdrLastPage]

theorem session_not_answer (k : SlotId) : ¬answerBytes k hdrSession ∧ ¬answerBytes k (hdrSession + 1) := by
  have lower := slotBase_lower k
  have session : hdrSession = 0x16 := rfl
  have sweep : hdrSweep = 0x22 := rfl
  simp only [answerBytes]
  omega

/-- Bytes that an answer of an order in flight writes are bytes that an answer at a take writes. -/
theorem answerBytes_of_slot {k : SlotId} {x : Nat} (h : slotAnswerBytes k x) : answerBytes k x :=
  h.imp id (Or.imp id .inl)

theorem inSession_mem (s : State) (x : Session) (l : Lane) (on : Bool) :
    (inSession s x l on).mem = s.mem.write16 hdrSession (BitVec.ofNat 16 x.state.code) := rfl

theorem inSession_wf {s : State} (w : s.mem.wf = true) (x : Session) (l : Lane) (on : Bool) :
    (inSession s x l on).mem.wf = true := by
  rw [inSession_mem]
  exact Memory.write16_wf w

theorem inSession_sameBut {s : State} (w : s.mem.wf = true) (x : Session) (l : Lane) (on : Bool) :
    Memory.SameBut (bytesFrom hdrSession 2) s.mem (inSession s x l on).mem := by
  rw [inSession_mem]
  exact Memory.SameBut.write16 w ⟨by omega, by omega⟩ ⟨by omega, by omega⟩

theorem inSession_shown {s : State} (w : s.mem.wf = true) (x : Session) (l : Lane) (on : Bool) :
    (inSession s x l on).mem.read16 hdrSession = BitVec.ofNat 16 x.state.code := by
  rw [inSession_mem, Memory.read16_write16 w (by decide)]

/-! What is logged after a session is shown (R164, R176, R184). -/

/-- The logging of an opening or an end leaves the words of the journal and the log to be said of it. -/
theorem recorded_of_logged {u v : State} (w : u.mem.wf = true) (h : Logged causeJournal u v) : Recorded u v where
  intake := by rw [h.eq]
  raised := h.raised
  wf := h.wf w
  memory := h.memory w

section Logs

variable {s v : State} {x : Session} {l : Lane} {on : Bool} (h : Logged causeJournal (inSession s x l on) v)
include h

theorem logged_eq :
    v = { s with
      session := x
      lane := l
      monitor := { s.monitor with decks := testDecks s on }
      mem := v.mem
      regs := v.regs
      journal := v.journal
      audit := v.audit
      store := { s.store with waiting := v.store.waiting } } :=
  h.eq

theorem logged_shown (w : s.mem.wf = true) : v.mem.read16 hdrSession = BitVec.ofNat 16 x.state.code := by
  rw [(h.memory (inSession_wf w x l on)).read16 session_not_journal.1 session_not_journal.2, inSession_shown w]

theorem logged_sameBut (w : s.mem.wf = true) :
    Memory.SameBut (fun y => journalBytes y ∨ bytesFrom hdrSession 2 y) s.mem v.mem :=
  ((inSession_sameBut w x l on).mono fun _ => .inr).trans ((h.memory (inSession_wf w x l on)).mono fun _ => .inl)

end Logs

/-! A session that closes without an installation (R176). -/

theorem closeSession_eq (s : State) (kind : AuditKind) :
    s.closeSession kind =
      if s.store.latch = true then (sessionOver s).writeAudit kind []
      else ((sessionOver s).writeAudit kind []).requestJob .closeSession [.counters (.session false)] := by
  have latch : ((sessionOver s).writeAudit kind []).store.latch = s.store.latch := by
    rw [(writeAudit_logged _ kind []).eq]
    rfl
  simp only [State.closeSession, endSession_eq, latch]

theorem closeSession_logged (s : State) (kind : AuditKind) :
    Logged causeJournal (sessionOver s) (s.closeSession kind) := by
  have written := writeAudit_logged (sessionOver s) kind []
  rw [closeSession_eq]
  split
  · exact written
  · exact written.trans (requestJob_logged _ _ _)

theorem closeSession_audit (s : State) (kind : AuditKind) :
    (s.closeSession kind).audit = ((sessionOver s).writeAudit kind []).audit := by
  rw [closeSession_eq]
  split <;> rfl

theorem closeSession_requests {s : State} (free : s.store.latch = false) (kind : AuditKind) :
    (s.closeSession kind).store.waiting.getLast? = some ⟨.closeSession, [.counters (.session false)]⟩ := by
  rw [closeSession_eq, if_neg (by simp [free])]
  exact List.getLast?_concat

/-- What the end of a session reads of the part. -/
structure SameToSession (s u : State) : Prop where
  opens : u.session.opens = s.session.opens
  lane : u.lane = s.lane
  monitor : u.monitor = s.monitor
  metro : u.metro = s.metro
  time : u.time = s.time
  store : u.store = s.store
  audit : u.audit = s.audit

theorem ended_congr {x y : Session} (h : y.opens = x.opens) : ended y = ended x := by
  simp only [ended, h]

/-- A session closed in a part that is the same to it as another is ended there. -/
theorem closeSession_ended {s u : State} (w : u.mem.wf = true) (h : SameToSession s u) (kind : AuditKind) :
    SessionEnded kind s (u.closeSession kind) := by
  have logged := closeSession_logged u kind
  have written := writeAudit_audited (sessionOver u) kind []
  have audit := closeSession_audit u kind
  have decks : testDecks u false = testDecks s false := by
    rw [testDecks, h.monitor, h.metro]
    rfl
  constructor
  case session => rw [logged_eq logged, ended_congr h.opens]; rfl
  case shown => exact logged_shown logged w
  case lane => rw [logged_eq logged, h.lane]
  case decks =>
    intro d
    rw [logged_eq logged]
    exact (congrArg (Four.get · d) decks).trans (testDecks_off s d)
  case audited =>
    constructor
    · rw [audit, written.entries, ← h.audit, ← h.store, ← h.time]
      rfl
    · rw [audit, written.last, ← h.audit]
      rfl
  case job => exact fun free => closeSession_requests (by rw [h.store, free]) kind

/-- What the host and the blocks find of a session's end stays while the parts that show it stay. -/
theorem sessionEnded_congr {kind : AuditKind} {s t v : State} (h : SessionEnded kind s t)
    (session : v.session = t.session) (shown : v.mem.read16 hdrSession = t.mem.read16 hdrSession)
    (lane : v.lane = t.lane) (monitor : v.monitor = t.monitor) (audit : v.audit = t.audit) (store : v.store = t.store) :
    SessionEnded kind s v where
  session := session.trans h.session
  shown := shown.trans h.shown
  lane := lane.trans h.lane
  decks := by rw [monitor]; exact h.decks
  audited := ⟨by rw [audit]; exact h.audited.entries, by rw [audit]; exact h.audited.last⟩
  job := by rw [store]; exact h.job

section Answered

variable {kind : AuditKind} {s t : State} (h : SessionEnded kind s t) (w : t.mem.wf = true) (k : SlotId)
include h w

theorem sessionEnded_answer (code : AnswerCode) {body : List Byte} (fits : body.length ≤ 64) :
    SessionEnded kind s (t.answer k code body) := by
  have apart := session_not_answer k
  have shown := (answer_sameBut_slot w k code fits).read16 (x := hdrSession) (apart.1 ∘ answerBytes_of_slot)
    (apart.2 ∘ answerBytes_of_slot)
  exact sessionEnded_congr h (answer_session ..) shown (answer_lane ..) (answer_monitor ..) (answer_audit ..)
    (answer_store ..)

theorem sessionEnded_setPosition : SessionEnded kind s (t.setPosition k) := by
  have shown : (t.setPosition k).mem.read16 hdrSession = t.mem.read16 hdrSession := by
    rw [setPosition_mem, Memory.read16_write16_other w (by decide)]
  exact sessionEnded_congr h (setPosition_session ..) shown (setPosition_lane ..) (setPosition_monitor ..)
    (setPosition_audit ..) (setPosition_store ..)

end Answered

theorem closeSession_recorded {s : State} (w : s.mem.wf = true) (kind : AuditKind) :
    Recorded (sessionOver s) (s.closeSession kind) :=
  recorded_of_logged (inSession_wf w _ _ _) (closeSession_logged s kind)

/-! An order that ends a session (R173, R176). -/

/-- An order has ended the session with an audit entry, and is answered. -/
def endedBy (s : State) (k : SlotId) (kind : OrderKind) (audit : AuditKind) (code : AnswerCode) (body : List Byte) :
    State :=
  (((s.beginOrder k kind).closeSession audit).answer k code body).setPosition k

theorem endedBy_eq (s : State) (k : SlotId) (kind : OrderKind) (audit : AuditKind) (code : AnswerCode)
    (body : List Byte) :
    let t := endedBy s k kind audit code body
    t = { s with
      session := t.session
      lane := t.lane
      monitor := { s.monitor with decks := t.monitor.decks }
      mem := t.mem
      intake := t.intake
      regs := t.regs
      journal := t.journal
      audit := t.audit
      store := { s.store with waiting := t.store.waiting } } := by
  dsimp only
  rw [endedBy]
  obtain ⟨_, _, _, _, _, closed⟩ := (closeSession_logged (s.beginOrder k kind) audit).fields
  rw [closed]
  exact answer_rest _ k code body

section Ends

variable {s : State} {k : SlotId} {kind : OrderKind} {audit : AuditKind} {code : AnswerCode} {body : List Byte}
  (w : s.mem.wf = true)
include w

theorem endedBy_answered (fits : body.length ≤ 64) : Answered k code body s (endedBy s k kind audit code body) := by
  have recorded := closeSession_recorded (beginOrder_wf w k kind) audit
  obtain ⟨flight, claim⟩ := beginOrder_holds s k kind
  exact answer_answered recorded.wf fits
    ⟨by rw [recorded.intake]; exact flight, by rw [recorded.intake]; exact claim⟩

theorem endedBy_ended (fits : body.length ≤ 64) : SessionEnded audit s (endedBy s k kind audit code body) := by
  have begun := beginOrder_wf w k kind
  have closed := closeSession_ended (s := s) begun ⟨rfl, rfl, rfl, rfl, rfl, rfl, rfl⟩ audit
  have recorded := closeSession_recorded begun audit
  exact sessionEnded_setPosition (sessionEnded_answer closed recorded.wf k code fits)
    (answer_wf recorded.wf k code body) k

theorem endedBy_raised :
    Registers.Raised (causeAnswer ||| causeJournal) s.regs (endedBy s k kind audit code body).regs := by
  rw [endedBy, setPosition_regs]
  exact (closeSession_recorded (beginOrder_wf w k kind) audit).raised_answer rfl

theorem endedBy_sameBut (fits : body.length ≤ 64) :
    Memory.SameBut (fun x => answerBytes k x ∨ journalBytes x ∨ bytesFrom hdrSession 2 x) s.mem
      (endedBy s k kind audit code body).mem := by
  have begun := beginOrder_wf w k kind
  have logged := logged_sameBut (closeSession_logged (s.beginOrder k kind) audit) begun
  exact (((beginOrder_sameBut w k kind).mono fun _ => .inl).trans (logged.mono fun _ => .inr)).trans
    ((answer_sameBut (closeSession_recorded begun audit).wf fits).mono fun _ => .inl)

end Ends

/-! A job of the session that fails (R165, R176). -/

theorem isSession_iff {s : State} {n : Nat} :
    s.isSession n = true ↔ s.session.state ≠ .closed ∧ s.session.opens = n := by
  simp [State.isSession]

theorem jobFailed_of_still {s : State} {k : SlotId} {n : Nat} {kind : JobKind}
    (job : kind = .openSession k n ∨ kind = .commit k n) (still : s.session.state ≠ .closed ∧ s.session.opens = n) :
    s.jobFailed kind = (s.closeSession .sessionAborted).answer k .storeFault [] := by
  have found := isSession_iff.mpr still
  rcases job with rfl | rfl
  · simp only [State.jobFailed, State.openFailed, found, if_true]
  · simp only [State.jobFailed, State.commitFailed, found, if_true]

theorem jobFailed_of_gone {s : State} {k : SlotId} {n : Nat} {kind : JobKind}
    (job : kind = .openSession k n ∨ kind = .commit k n) (gone : ¬(s.session.state ≠ .closed ∧ s.session.opens = n)) :
    s.jobFailed kind = s.answer k .storeFault [] := by
  have found : ¬s.isSession n = true := gone ∘ isSession_iff.mp
  rcases job with rfl | rfl
  · simp only [State.jobFailed, State.openFailed, if_neg found]
  · simp only [State.jobFailed, State.commitFailed, if_neg found]

/-! The commands that end a session. -/

theorem exec_abortSession (s : State) (k : SlotId) :
    exec (.abortSession k) s = .next (s.whenOn fun u => u.takePosted k .abortSession State.abortOrder) := rfl

theorem abortOrder_of_opened {s : State} (h : s.session.state = .opened) (k : SlotId) :
    s.abortOrder k = (s.closeSession .sessionAborted).answer k .done [] :=
  if_pos h

theorem abortOrder_of_not_opened {s : State} (h : s.session.state ≠ .opened) (k : SlotId) :
    s.abortOrder k = s.answer k .sessionClosed [] :=
  if_neg h

theorem exec_sessionExpired (s : State) : exec .sessionExpired s = .next (s.takeStopped .expire) := rfl

theorem idleDue_iff {s : State} : s.idleDue = true ↔ s.session.state = .opened ∧ 360000 ≤ s.session.idle := by
  simp [State.idleDue]

/-- Settles O59: every way of ending is the closing of the session in the part that the take, the cadence event or the
job's failure leaves. -/
theorem sessionsEndWithoutInstallation : Obligations.SessionsEndWithoutInstallation := by
  refine ⟨?order, ?expired, ?undue, ?failed⟩
  case order =>
    intro s k p
    refine ⟨fun opened => ?_, fun closed => ?_⟩
    · refine ⟨endedBy s k .abortSession .sessionAborted .done [], ?run, endedBy_answered p.memory (Nat.zero_le _),
        endedBy_ended p.memory (Nat.zero_le _), endedBy_eq .., endedBy_raised p.memory,
        endedBy_sameBut p.memory (Nat.zero_le _)⟩
      case run =>
        rw [exec_abortSession, takePosted_runs p rfl rfl,
          abortOrder_of_opened (s := s.beginOrder k .abortSession) opened]
        rfl
    · exact exec_answered (exec_abortSession s k) p rfl rfl (Nat.zero_le _) rfl
        (abortOrder_of_not_opened (s := s.beginOrder k .abortSession) closed k)
  case expired =>
    intro s rest w stopped
    obtain ⟨opened, idle⟩ := idleDue_iff.mp stopped.due
    let whole : State := { s with unfinished := [] }
    have closed := closeSession_logged whole .sessionExpired
    refine ⟨opened, idle, whole.closeSession .sessionExpired, ?run,
      closeSession_ended (s := s) (u := whole) w ⟨rfl, rfl, rfl, rfl, rfl, rfl, rfl⟩ _, ?eq, closed.raised,
      logged_sameBut (s := whole) closed w⟩
    case run =>
      rw [exec_sessionExpired, takeStopped_of_stopped stopped, State.takeOwn, State.expireSession,
        if_pos (show whole.idleDue = true from stopped.due)]
    case eq =>
      obtain ⟨_, _, _, _, _, fields⟩ := closed.fields
      rw [fields]
      rfl
  case undue =>
    intro s h
    rw [exec_sessionExpired, takeStopped_of_not h]
  case failed =>
    intro s k n kind job w
    dsimp only
    by_cases still : s.session.state ≠ .closed ∧ s.session.opens = n
    · have closed := closeSession_recorded w .sessionAborted
      have logged := logged_sameBut (closeSession_logged s .sessionAborted) w
      rw [jobFailed_of_still job still]
      refine ⟨closed.answerWritten (Nat.zero_le _) rfl, fun _ => ⟨?ended, ?bytes⟩, fun gone => absurd still gone⟩
      case ended =>
        exact sessionEnded_answer (closeSession_ended w ⟨rfl, rfl, rfl, rfl, rfl, rfl, rfl⟩ _) closed.wf k _
          (Nat.zero_le _)
      case bytes =>
        exact (logged.mono fun _ => .inr).trans
          ((answer_sameBut_slot closed.wf k _ (Nat.zero_le _)).mono fun _ => .inl)
    · rw [jobFailed_of_gone job still]
      exact ⟨answer_written w (Nat.zero_le _) ⟨rfl, rfl⟩ rfl, fun h => absurd h still,
        fun _ => ⟨answer_eq .., answer_sameBut_slot w k _ (Nat.zero_le _)⟩⟩

end Sys2Proof.SessionEnds
end

section
/-! SUPPORT. OPEN_SESSION (R164): its refusals in their order, the session that it opens, what a take that stays in
flight shows beside it, and the statement about the order. -/

namespace Sys2Proof.SessionOpens

open Sys2Proof Sys2Proof.Machine Sys2Proof.Orders Sys2Proof.Captures Sys2Proof.Completions Sys2Proof.SessionEnds

/-! A take that stays in flight, and what its owner has done (R106, R107). -/

section Taken

variable {s v : State} {k : SlotId} {kind : OrderKind} {changed : Nat → Prop} (w : s.mem.wf = true)
  (wf : v.mem.wf = true) (same : Memory.SameBut changed (s.beginOrder k kind).mem v.mem)
include w wf same

/-- The order is in flight where its owner has left the slot and the intake alone. -/
theorem taken_inFlight (apart : ∀ x, slotBase k ≤ x → x < slotBase k + 2 → ¬changed x)
    (intake : v.intake = (s.beginOrder k kind).intake) : InFlight k kind s (v.setPosition k) := by
  have lower := slotBase_lower k
  have upper := slotBase_upper k
  have size : Memory.size = 0x8000 := rfl
  have sweep : hdrSweep = 0x22 := rfl
  have begun : (s.beginOrder k kind).mem.read16 (slotBase k) = slotTaken := Memory.read16_write16 w (by omega)
  refine ⟨?state, ?sweep, setPosition_intake v k ▸ rfl, ?flight⟩
  case state =>
    rw [State.slotState, setPosition_mem, Memory.read16_write16_other wf (by omega),
      same.read16 (apart _ (by omega) (by omega)) (apart _ (by omega) (by omega)), begun]
  case sweep => rw [setPosition_mem, Memory.read16_write16 wf (by omega)]
  case flight =>
    rw [setPosition_intake, intake]
    rfl

theorem taken_sameBut : Memory.SameBut (fun x => takeBytes k x ∨ changed x) s.mem (v.setPosition k).mem := by
  have begun : Memory.SameBut (takeBytes k) s.mem (s.beginOrder k kind).mem :=
    Memory.SameBut.write16 w (.inl (by omega)) (.inl (by omega))
  have swept : Memory.SameBut (takeBytes k) v.mem (v.setPosition k).mem := by
    rw [setPosition_mem]
    exact Memory.SameBut.write16 wf (.inr (by omega)) (.inr (by omega))
  exact ((begun.mono fun _ => .inl).trans (same.mono fun _ => .inr)).trans (swept.mono fun _ => .inl)

end Taken

/-- The header shows the session after the sweep position has been written. -/
theorem setPosition_session_shown {v : State} (wf : v.mem.wf = true) (k : SlotId) :
    (v.setPosition k).mem.read16 hdrSession = v.mem.read16 hdrSession := by
  rw [setPosition_mem, Memory.read16_write16_other wf (by decide)]

/-- A slot's state word is neither the session's word of the header nor the journal's. -/
theorem slot_apart (k : SlotId) {x : Nat} (lower : slotBase k ≤ x) (upper : x < slotBase k + 2) :
    ¬(journalBytes x ∨ bytesFrom hdrSession 2 x) := by
  have above := slotBase_lower k
  have below := slotBase_upper k
  have fault : hdrStoreFault = 0x30 := rfl
  have session : hdrSession = 0x16 := rfl
  simp only [journalBytes, bytesFrom]
  omega

/-! The refusals (R164, steps 1 to 4). -/

/-- An order handed to an OPEN session changes its idle count alone (R177). -/
@[simp] theorem touchIdle_sealLine (s : State) : s.touchIdle.sealLine = s.sealLine := by
  unfold State.touchIdle
  split <;> rfl

@[simp] theorem touchIdle_capture (s : State) : s.touchIdle.capture = s.capture := by
  unfold State.touchIdle
  split <;> rfl

@[simp] theorem touchIdle_store (s : State) : s.touchIdle.store = s.store := by
  unfold State.touchIdle
  split <;> rfl

section Refusals

variable {s : State} (k : SlotId)

theorem openSessionOrder_of_sealed (sealed : s.sealLine.state = .sealed) :
    s.openSessionOrder k = s.touchIdle.answer k .sealClosed [] := by
  simp [State.openSessionOrder, sealed]

variable (unsealed : s.sealLine.state = .opened)
include unsealed

theorem openSessionOrder_of_capture (busy : s.capture ≠ none) :
    s.openSessionOrder k = s.touchIdle.answer k .platformBusy [] := by
  simp [State.openSessionOrder, unsealed, Option.isSome_iff_ne_none, busy]

theorem openSessionOrder_of_session (free : s.capture = none) (busy : s.session.state ≠ .closed) :
    s.openSessionOrder k = s.touchIdle.answer k .sessionOpen [] := by
  simp [State.openSessionOrder, unsealed, free, busy]

theorem openSessionOrder_of_latched (free : s.capture = none) (closed : s.session.state = .closed)
    (latched : s.store.latch = true) : s.openSessionOrder k = s.touchIdle.answer k .storeFault [] := by
  simp [State.openSessionOrder, unsealed, free, closed, latched]

end Refusals

/-! The session that opens (R164, step 5). -/

/-- The session of an order that is not refused. -/
def openedSession (s : State) : Session :=
  { state := .opened
    staged := some s.metro.active
    revision := 0
    tests := []
    provisional := []
    idle := 0
    commit := none
    opens := s.session.opens + 1
    stored := false }

/-- The part with the session open. -/
def sessionBegun (s : State) : State :=
  inSession s (openedSession s) (s.lane.mark .session) true

/-- The part with the opening audited and its row requested. -/
def opens (s : State) (k : SlotId) : State :=
  ((sessionBegun s).writeAudit .sessionOpened (bytes32 s.activeImage.crc)).requestJob
    (.openSession k (s.session.opens + 1)) [.counters (.session true)]

/-- A set keeps no provisional mean beside itself (R166). -/
theorem refreshProvisional_self (old : List Provisional) (before m : MetroSet) :
    refreshProvisional old before m m = [] := by
  have none : ∀ c, provisionalCell m m c = false := by
    intro c
    unfold provisionalCell
    cases m.fittedTo c <;> rfl
  simp [refreshProvisional, none]

/-- An order that finds no OPEN session leaves the idle count (R177). -/
theorem touchIdle_of_closed {s : State} (closed : s.session.state = .closed) : s.touchIdle = s :=
  if_neg (by simp [closed])

theorem openSessionOrder_opens {s : State} (unsealed : s.sealLine.state = .opened) (free : s.capture = none)
    (closed : s.session.state = .closed) (unlatched : s.store.latch = false) (k : SlotId) :
    s.openSessionOrder k = opens s k := by
  have count : ((sessionBegun s).writeAudit .sessionOpened (bytes32 s.activeImage.crc)).session.opens =
      s.session.opens + 1 := by
    rw [(writeAudit_logged _ _ _).eq]
    rfl
  rw [opens, ← count, State.openSessionOrder]
  dsimp only
  rw [touchIdle_of_closed closed, if_neg (by simp [unsealed]), if_neg (by simp [free]), if_neg (by simp [closed]),
    if_neg (by simp [unlatched]), refreshProvisional_self, setInTest_eq]
  rfl

theorem opens_logged (s : State) (k : SlotId) : Logged causeJournal (sessionBegun s) (opens s k) :=
  (writeAudit_logged _ _ _).trans (requestJob_logged _ _ _)

theorem opens_audited (s : State) (k : SlotId) : Audited .sessionOpened (bytes32 s.activeImage.crc) s (opens s k) := by
  obtain ⟨entries, last⟩ := writeAudit_audited (sessionBegun s) .sessionOpened (bytes32 s.activeImage.crc)
  exact ⟨entries, last⟩

theorem opens_requests (s : State) (k : SlotId) :
    (opens s k).store.waiting.getLast? =
      some ⟨.openSession k (s.session.opens + 1), [.counters (.session true)]⟩ :=
  List.getLast?_concat

/-! The command. -/

theorem exec_openSession (s : State) (k : SlotId) :
    exec (.openSession k) s = .next (s.whenOn fun u => u.takePosted k .openSession State.openSessionOrder) := rfl

/-- The part in which an order just taken finds the session: an OPEN one has its idle count at 0 (R177). -/
theorem beginOrder_handed (s : State) (k : SlotId) (kind : OrderKind) :
    (s.beginOrder k kind).touchIdle = begunAs s (if s.session.state = .opened then idleReset s else s) k kind := by
  split
  next opened => exact if_pos opened
  next other => exact if_neg other

theorem beginOrder_touchIdle {s : State} (opened : s.session.state = .opened) (k : SlotId) (kind : OrderKind) :
    (s.beginOrder k kind).touchIdle = begunAs s (idleReset s) k kind :=
  if_pos opened

/-- The take of an order that is refused. -/
theorem exec_openSession_refused {s : State} {k : SlotId} {code : AnswerCode} (p : s.Posted k .openSession)
    (owned : (s.beginOrder k .openSession).openSessionOrder k =
      (s.beginOrder k .openSession).touchIdle.answer k code []) :
    ∃ t : State, exec (.openSession k) s = .next t
      ∧ AnsweredAs k code [] s (if s.session.state = .opened then idleReset s else s) t := by
  rw [beginOrder_handed] at owned
  exact exec_answered (exec_openSession s k) p rfl rfl (Nat.zero_le _) (by split <;> rfl) owned

/-- Settles O53: the refusals in their order, and the opened session with what is logged and requested for it. -/
theorem openSessionOpens : Obligations.OpenSessionOpens := by
  intro s k p refused
  refine ⟨fun sealed => ?_, fun unsealed busy => ?_, fun unsealed free other => ?_,
    fun unsealed free closed latched => ?_, fun unsealed free closed unlatched => ?_⟩
  · exact exec_openSession_refused p (openSessionOrder_of_sealed (s := s.beginOrder k .openSession) k sealed)
  · exact exec_openSession_refused p (openSessionOrder_of_capture (s := s.beginOrder k .openSession) k unsealed busy)
  · exact exec_openSession_refused p
      (openSessionOrder_of_session (s := s.beginOrder k .openSession) k unsealed free other)
  · have answered := exec_openSession_refused p
      (openSessionOrder_of_latched (s := s.beginOrder k .openSession) k unsealed free closed latched)
    rwa [if_neg (by simp [closed])] at answered
  · let begun := s.beginOrder k .openSession
    have wf : begun.mem.wf = true := beginOrder_wf p.memory k _
    have logged := opens_logged begun k
    have recorded := recorded_of_logged (inSession_wf wf _ _ _) logged
    have same := logged_sameBut logged wf
    obtain ⟨entries, last⟩ := opens_audited begun k
    refine ⟨(opens begun k).setPosition k, ?run, ?flight, ?eq, ?decks, ?shown, ⟨entries, last⟩,
      opens_requests begun k, ?raised, taken_sameBut p.memory recorded.wf same⟩
    case run =>
      rw [exec_openSession, takePosted_runs p rfl rfl,
        openSessionOrder_opens (s := begun) unsealed free closed unlatched]
    case flight => exact taken_inFlight p.memory recorded.wf same (fun _ => slot_apart k) recorded.intake
    case eq =>
      obtain ⟨_, _, _, _, _, fields⟩ := logged.fields
      rw [fields]
      rfl
    case decks =>
      intro d
      rw [setPosition_monitor, logged_eq logged]
      exact testDecks_on begun d
    case shown => rw [setPosition_session_shown recorded.wf, logged_shown logged wf]; rfl
    case raised => rw [setPosition_regs]; exact logged.raised

end Sys2Proof.SessionOpens
end

section
/-! SUPPORT. The seal line (R162, R177): the state that the first samples fix, the change that later samples make and
what is logged of it, the session that SEALED breaks, and the statement about the two commands. -/

namespace Sys2Proof.Sealing

open Sys2Proof Sys2Proof.Machine Sys2Proof.SessionEnds

/-! The two commands in a part that runs. -/

theorem settled_of_ready {s : State} (r : s.Ready) : s.settled = s := by
  rw [State.settled, if_pos r.power, finish_of_whole r.whole]

theorem setSealInput_ready {s : State} (r : s.Ready) (level : SealLevel) : (s.setSealInput level).Ready :=
  ⟨r.power, r.whole⟩

theorem exec_sealInitial {s : State} (r : s.Ready) (level : SealLevel) :
    exec (.sealInitial level) s = .next ((s.setSealInput level).initialSeal level) := by
  change Host.Outcome.next ((s.settled.setSealInput level).whenOn fun t => t.initialSeal level) = _
  rw [settled_of_ready r, whenOn_of_ready (setSealInput_ready r level)]

theorem exec_sealChange {s : State} (r : s.Ready) (level : SealLevel) :
    exec (.sealChange level) s = .next ((s.setSealInput level).changeSeal level) := by
  change Host.Outcome.next ((s.settled.setSealInput level).whenOn fun t => t.changeSeal level) = _
  rw [settled_of_ready r, whenOn_of_ready (setSealInput_ready r level)]

/-! The first four samples (R162). -/

/-- What an entry about the seal carries: the state of the session, and whether it is of the start-up. -/
def sealDetail (s : State) (initial : Nat) : List Byte :=
  u8 s.session.state.code ++ u8 initial ++ u8 0 ++ u8 0

/-- The part with its seal state fixed. -/
def sealFixed (s : State) (level : SealLevel) : State :=
  { s with sealLine := { state := level, settled := true } }

theorem initialSeal_of_settled {s : State} (settled : s.sealLine.settled = true) (level : SealLevel) :
    s.initialSeal level = s :=
  if_pos settled

theorem initialSeal_sealed {s : State} (unsettled : s.sealLine.settled = false) :
    s.initialSeal .sealed = sealFixed s .sealed :=
  if_neg (by simp [unsettled])

theorem initialSeal_opened {s : State} (unsettled : s.sealLine.settled = false) :
    s.initialSeal .opened = (sealFixed s .opened).writeAudit .sealOpened (sealDetail s 1) :=
  if_neg (by simp [unsettled])

/-! Later samples (R162). -/

/-- The audit kind of a change to a level. -/
def sealKind (level : SealLevel) : AuditKind :=
  if level = .opened then .sealOpened else .sealClosed

/-- The part with its seal state changed. -/
def sealChanged (s : State) (level : SealLevel) : State :=
  { s with sealLine := { s.sealLine with state := level } }

/-- The change audited and noticed. -/
def sealNoticed (s : State) (level : SealLevel) : State :=
  ((sealChanged s level).writeAudit (sealKind level) (sealDetail s 0)).notice .sealLine 0 (sealCode level) 0 []

theorem sealNoticed_logged (s : State) (level : SealLevel) :
    Logged recordCauses (sealChanged s level) (sealNoticed s level) :=
  ((writeAudit_logged _ _ _).mono (by decide)).trans (notice_journaled _ _ _ _ _ _).logged

/-- A notice leaves the log. -/
theorem sealNoticed_audited (s : State) (level : SealLevel) :
    Audited (sealKind level) (sealDetail s 0) s (sealNoticed s level) := by
  obtain ⟨entries, last⟩ := writeAudit_audited (sealChanged s level) (sealKind level) (sealDetail s 0)
  rw [sealNoticed, (notice_journaled _ _ _ _ _ _).eq]
  exact ⟨entries, last⟩

theorem changeSeal_of_kept {s : State} {level : SealLevel}
    (h : s.sealLine.settled = false ∨ s.sealLine.state = level) : s.changeSeal level = s :=
  if_neg (by rcases h with unsettled | same <;> simp [*])

section Change

variable {s : State} {level : SealLevel} (settled : s.sealLine.settled = true) (other : s.sealLine.state ≠ level)
include settled other

theorem changeSeal_eq :
    s.changeSeal level =
      if level = .sealed ∧ s.session.state = .opened then (sealNoticed s level).closeSession .sessionBroken
      else sealNoticed s level := by
  have session : (sealNoticed s level).session = s.session := by
    rw [(sealNoticed_logged s level).eq]
    rfl
  rw [← session]
  exact if_pos (by simp [settled, other])

theorem changeSeal_unbroken (h : level = .opened ∨ s.session.state ≠ .opened) :
    s.changeSeal level = sealNoticed s level := by
  rw [changeSeal_eq settled other, if_neg]
  rintro ⟨rfl, opened⟩
  exact h.elim (by decide) fun closed => closed opened

end Change

theorem changeSeal_breaks {s : State} (settled : s.sealLine.settled = true) (state : s.sealLine.state = .opened)
    (opened : s.session.state = .opened) :
    s.changeSeal .sealed = (sealNoticed s .sealed).closeSession .sessionBroken := by
  rw [changeSeal_eq settled (by simp [state]), if_pos ⟨rfl, opened⟩]

/-- The newest entry of the log is the one that has joined it (R184). -/
theorem audited_newest {kind : AuditKind} {detail : List Byte} {s t : State} (h : Audited kind detail s t) :
    (t.audit.entries.getLast?.map fun e => (e.serial, e.kind)) = some (nextSerial s.audit.last, kind) := by
  rw [h.entries, joinEntries, List.getLast?_concat]
  rfl

/-- Settles O34: the samples fix or change the seal state, the log and the journal follow, and a broken session is
one that closes after that. -/
theorem sealSamplesFixAndChangeTheSeal : Obligations.SealSamplesFixAndChangeTheSeal := by
  refine ⟨?fixed, ?changed, ?broken, ?settled, ?kept⟩
  case fixed =>
    intro s level w r unsettled detail fixed
    have unfixed : (s.setSealInput level).sealLine.settled = false := unsettled
    refine ⟨?_, ?_⟩
    · rintro rfl
      rw [exec_sealInitial r, initialSeal_sealed unfixed]
      rfl
    · rintro rfl
      have logged := writeAudit_logged fixed .sealOpened detail
      obtain ⟨entries, last⟩ := writeAudit_audited fixed .sealOpened detail
      refine ⟨fixed.writeAudit .sealOpened detail, ?run, rfl, logged.eq, ⟨entries, last⟩, logged.raised,
        logged.memory w⟩
      case run =>
        rw [exec_sealInitial r, initialSeal_opened unfixed]
        rfl
  case changed =>
    intro s level w r settled other unbroken kind detail changed
    let input := s.setSealInput level
    have logged := sealNoticed_logged input level
    obtain ⟨entries, last⟩ := sealNoticed_audited input level
    refine ⟨sealNoticed input level, ?run, rfl, logged.eq, ⟨entries, last⟩, notice_condition .., logged.raised,
      logged.memory w⟩
    case run => rw [exec_sealChange r, changeSeal_unbroken (s := input) settled other unbroken]
  case broken =>
    intro s w r settled state opened
    let input := s.setSealInput .sealed
    let noticed := sealNoticed input .sealed
    have logged := sealNoticed_logged input .sealed
    have wf : noticed.mem.wf = true := logged.wf w
    have closed := closeSession_logged noticed .sessionBroken
    have ended : SessionEnded .sessionBroken noticed (noticed.closeSession .sessionBroken) :=
      closeSession_ended wf ⟨rfl, rfl, rfl, rfl, rfl, rfl, rfl⟩ .sessionBroken
    refine ⟨noticed.closeSession .sessionBroken, ?run, ?level, ?state, ?lane, ended.shown, ?newest⟩
    case run => rw [exec_sealChange r, changeSeal_breaks (s := input) settled state opened]
    case level =>
      rw [logged_eq closed]
      change (sealNoticed input .sealed).sealLine = _
      rw [logged.eq]
      rfl
    case state => rw [ended.session]
    case lane => rw [ended.lane]; rfl
    case newest =>
      rw [audited_newest ended.audited, (sealNoticed_audited input .sealed).last]
      rfl
  case settled =>
    intro s level r settled
    rw [exec_sealInitial r, initialSeal_of_settled (s := s.setSealInput level) settled]
    rfl
  case kept =>
    intro s level r h
    rw [exec_sealChange r, changeSeal_of_kept (s := s.setSealInput level) h]
    rfl

end Sys2Proof.Sealing
end

section
/-! SUPPORT. COMMIT_SESSION (R173, R174): its checks in their order, the commit without a change, the session that is
COMMITTING with its job, and the statement about the order. -/

namespace Sys2Proof.Commits

open Sys2Proof Sys2Proof.Machine Sys2Proof.Orders Sys2Proof.Captures Sys2Proof.Completions Sys2Proof.SessionEnds
  Sys2Proof.SessionOpens

/-! The checks (R173). -/

theorem commitOrder_of_not_opened {s : State} (h : s.session.state ≠ .opened) (k : SlotId) :
    s.commitOrder k = s.answer k .sessionClosed [] := by
  unfold State.commitOrder
  split
  next opened _ => exact absurd opened h
  next => rfl

/-- The first enabled deck that a set changes and that no passing test at a revision covers (R173, step 3). -/
def untestedDeck (m active : MetroSet) (revision : Nat) (tests : List TestEntry) : Option DeckId :=
  allDecks.find? fun d => deckChanged m active d && m.isEnabled d && !deckTested revision tests d

section Checks

variable {s u : State} {m : MetroSet} (opened : s.session.state = .opened) (staged : s.session.staged = some m)
  (handed : s.touchIdle = u) (k : SlotId)
include opened staged handed

/-- In an OPEN session the order goes by its checks. -/
theorem commitOrder_of_opened :
    s.commitOrder k =
      match failedTest u.session.revision 0 u.session.tests with
      | some place => u.answer k .unverified (u16 0 ++ u16 place)
      | none =>
        match untestedDeck m u.metro.active u.session.revision u.session.tests with
        | some d => u.answer k .unverified (u16 1 ++ u16 d.val)
        | none =>
          if (changedParams m u.metro.active).isEmpty then
            (u.closeSession .sessionClosed).answer k .done (bytes32 u.metro.epoch ++ u16 0 ++ u16 1)
          else if u.store.latch then u.answer k .storeFault []
          else u.beginCommit k m (changedParams m u.metro.active) := by
  subst handed
  unfold State.commitOrder
  rw [opened, staged]
  rfl

theorem commitOrder_of_failed {i : Nat} (failed : failedTest u.session.revision 0 u.session.tests = some i) :
    s.commitOrder k = u.answer k .unverified (u16 0 ++ u16 i) := by
  rw [commitOrder_of_opened opened staged handed, failed]

variable (passed : failedTest u.session.revision 0 u.session.tests = none)
include passed

theorem commitOrder_of_untested {d : DeckId}
    (untested : untestedDeck m u.metro.active u.session.revision u.session.tests = some d) :
    s.commitOrder k = u.answer k .unverified (u16 1 ++ u16 d.val) := by
  rw [commitOrder_of_opened opened staged handed, passed, untested]

variable (tested : untestedDeck m u.metro.active u.session.revision u.session.tests = none)
include tested

theorem commitOrder_of_unchanged (unchanged : changedParams m u.metro.active = []) :
    s.commitOrder k = (u.closeSession .sessionClosed).answer k .done (bytes32 u.metro.epoch ++ u16 0 ++ u16 1) := by
  rw [commitOrder_of_opened opened staged handed, passed, tested]
  exact if_pos (by simp [unchanged])

variable (changed : changedParams m u.metro.active ≠ [])
include changed

theorem commitOrder_of_latched (latched : u.store.latch = true) : s.commitOrder k = u.answer k .storeFault [] := by
  rw [commitOrder_of_opened opened staged handed, passed, tested]
  exact (if_neg (by simp [changed])).trans (if_pos latched)

theorem commitOrder_begins (unlatched : u.store.latch = false) :
    s.commitOrder k = u.beginCommit k m (changedParams m u.metro.active) := by
  rw [commitOrder_of_opened opened staged handed, passed, tested]
  exact (if_neg (by simp [changed])).trans (if_neg (by simp [unlatched]))

end Checks

/-! The command. -/

theorem exec_commitSession (s : State) (k : SlotId) :
    exec (.commitSession k) s = .next (s.whenOn fun u => u.takePosted k .commitSession State.commitOrder) := rfl

theorem unverified_fits (a b : Int) : (u16 a ++ u16 b).length ≤ 64 :=
  Nat.le_of_ble_eq_true rfl

theorem unchanged_fits (epoch : W32) : (bytes32 epoch ++ u16 0 ++ u16 1).length ≤ 64 :=
  Nat.le_of_ble_eq_true rfl

/-- The idle count that the order has set to 0 is 0 in the end of the session either way (R177). -/
theorem closeSession_idle (s : State) (k : SlotId) (kind : OrderKind) (audit : AuditKind) :
    (begunAs s (idleReset s) k kind).closeSession audit = (s.beginOrder k kind).closeSession audit := by
  rw [closeSession_eq, closeSession_eq]
  rfl

/-- The session with its commit record (R173, step 6). -/
def committing (s : State) (k : SlotId) (m : MetroSet) (params : List Nat) : Session :=
  { s.session with
    state := .committing
    commit :=
      some
        { slot := k
          changedDecks := allDecks.filter (deckChanged m s.metro.active)
          changedCount := params.length
          listed := params.take 40
          oldCrc := s.activeImage.crc
          newCrc := (⟨m, s.metro.epoch + 1⟩ : MetroImage).crc
          epoch := s.metro.epoch + 1 } }

theorem beginCommit_eq (s : State) (k : SlotId) (m : MetroSet) (params : List Nat) :
    ∃ memory store,
      s.beginCommit k m params =
        { s with session := committing s k m params, mem := memory, store := store } :=
  ⟨_, _, rfl⟩

theorem beginCommit_mem (s : State) (k : SlotId) (m : MetroSet) (params : List Nat) :
    (s.beginCommit k m params).mem =
      s.mem.write16 hdrSession (BitVec.ofNat 16 SessionState.committing.code) := rfl

theorem beginCommit_wf {s : State} (w : s.mem.wf = true) (k : SlotId) (m : MetroSet) (params : List Nat) :
    (s.beginCommit k m params).mem.wf = true := by
  rw [beginCommit_mem]
  exact Memory.write16_wf w

theorem beginCommit_shown {s : State} (w : s.mem.wf = true) (k : SlotId) (m : MetroSet) (params : List Nat) :
    (s.beginCommit k m params).mem.read16 hdrSession = BitVec.ofNat 16 SessionState.committing.code := by
  rw [beginCommit_mem, Memory.read16_write16 w (by decide)]

theorem beginCommit_sameBut {s : State} (w : s.mem.wf = true) (k : SlotId) (m : MetroSet) (params : List Nat) :
    Memory.SameBut (bytesFrom hdrSession 2) s.mem (s.beginCommit k m params).mem := by
  rw [beginCommit_mem]
  exact Memory.SameBut.write16 w ⟨by omega, by omega⟩ ⟨by omega, by omega⟩

/-- Settles O57: the checks in their order, each with its answer; without a change the session ends as any other does,
and with one the commit record stands and the job waits. -/
theorem commitSession : Obligations.CommitSession := by
  intro s k p
  refine ⟨fun closed => ?closed, ?opened⟩
  case closed =>
    exact exec_answered (exec_commitSession s k) p rfl rfl (Nat.zero_le _) rfl
      (commitOrder_of_not_opened (s := s.beginOrder k .commitSession) closed k)
  intro m opened staged changed failed untested
  have handed := beginOrder_touchIdle opened k .commitSession
  refine ⟨fun i fails => ?failed, fun d passes untests => ?untested, fun passes tests unchanged => ?unchanged,
    fun passes tests changes latched => ?latched, fun passes tests changes unlatched => ?begins⟩
  case failed =>
    exact exec_answered (exec_commitSession s k) p rfl rfl (unverified_fits ..) rfl
      (commitOrder_of_failed (s := s.beginOrder k .commitSession) opened staged handed k fails)
  case untested =>
    exact exec_answered (exec_commitSession s k) p rfl rfl (unverified_fits ..) rfl
      (commitOrder_of_untested (s := s.beginOrder k .commitSession) opened staged handed k passes untests)
  case latched =>
    exact exec_answered (exec_commitSession s k) p rfl rfl (Nat.zero_le _) rfl
      (commitOrder_of_latched (s := s.beginOrder k .commitSession) opened staged handed k passes tests changes latched)
  case unchanged =>
    refine ⟨endedBy s k .commitSession .sessionClosed .done (bytes32 s.metro.epoch ++ u16 0 ++ u16 1), ?run,
      endedBy_answered p.memory (unchanged_fits _), endedBy_ended p.memory (unchanged_fits _), endedBy_eq ..,
      endedBy_raised p.memory, endedBy_sameBut p.memory (unchanged_fits _)⟩
    case run =>
      rw [exec_commitSession, takePosted_runs p rfl rfl,
        commitOrder_of_unchanged (s := s.beginOrder k .commitSession) opened staged handed k passes tests unchanged,
        closeSession_idle]
      rfl
  case begins =>
    intro epoch
    let begun := begunAs s (idleReset s) k .commitSession
    have begunWf : begun.mem.wf = true := beginOrder_wf p.memory k .commitSession
    have wf := beginCommit_wf begunWf k m changed
    have same := beginCommit_sameBut begunWf k m changed
    refine ⟨(begun.beginCommit k m changed).setPosition k, ?run,
      taken_inFlight p.memory wf same (fun _ lower upper => slot_apart k lower upper ∘ .inr) rfl, ?eq, rfl, ?shown,
      taken_sameBut (kind := .commitSession) p.memory wf same⟩
    case run =>
      rw [exec_commitSession, takePosted_runs p rfl rfl,
        commitOrder_begins (s := s.beginOrder k .commitSession) opened staged handed k passes tests changes unlatched]
      rfl
    case eq =>
      obtain ⟨_, _, eq⟩ := beginCommit_eq begun k m changed
      rw [eq]
      rfl
    case shown => rw [setPosition_session_shown wf, beginCommit_shown begunWf]

end Sys2Proof.Commits
end

section
/-! SUPPORT. STAGE_PARAMS (R166, R167): the entries of an image and their ranges, the constraints in their order and the
fields that take part in them, the order by its three passes, and the statement about it. -/

namespace Sys2Proof.Staging

open Sys2Proof Sys2Proof.Machine Sys2Proof.Orders

/-! Entries (R167, pass 2). -/

/-- An index below the count of an id, and a value between two ends. -/
def Among (p : ParamEntry) (id count : Nat) (low high : Int) : Prop :=
  p.id = id ∧ p.index < count ∧ low ≤ p.value ∧ p.value ≤ high

/-- The table of R166: each id with its indices and its values. -/
def InTable (p : ParamEntry) : Prop :=
  Among p 1 24 0 4 ∨ Among p 2 24 (-8388608) 8388607 ∨ Among p 3 24 32768 98304 ∨ Among p 4 4 0 1
    ∨ Among p 5 4 1 4294967295 ∨ Among p 6 4 1000000 200000000 ∨ Among p 7 4 0 4 ∨ Among p 8 16 1 200000000
    ∨ Among p 9 16 (-2000000) 2000000
    ∨ (Among p 10 4 1 128 ∧ p.value ∈ [(1 : Int), 2, 4, 8, 16, 32, 64, 128])
    ∨ Among p 11 4 20 400 ∨ Among p 12 4 0 1 ∨ Among p 13 4 (-20000000) 20000000
    ∨ (Among p 14 1 5000 100000 ∧ p.value ∈ [(5000 : Int), 10000, 20000, 50000, 100000])

/-- An id outside the table has no index. -/
theorem paramCount_unknown {id : Nat} (h : id < 1 ∨ 14 < id) : paramCount id = 0 := by
  unfold paramCount
  split <;> omega

theorem inTable_id {p : ParamEntry} (h : InTable p) : 1 ≤ p.id ∧ p.id ≤ 14 := by
  simp only [InTable, Among] at h
  omega

/-- A filter length lies between the ends of its list, and a scale interval too. -/
theorem listed_bounds {v : Int} :
    (v ∈ [(1 : Int), 2, 4, 8, 16, 32, 64, 128] → 1 ≤ v ∧ v ≤ 128)
      ∧ (v ∈ [(5000 : Int), 10000, 20000, 50000, 100000] → 5000 ≤ v ∧ v ≤ 100000) := by
  simp only [List.mem_cons, List.not_mem_nil, or_false]
  omega

theorem ok_iff (p : ParamEntry) : p.ok = true ↔ InTable p := by
  obtain ⟨id, index, v⟩ := p
  obtain ⟨lengths, scales⟩ := @listed_bounds v
  by_cases known : 1 ≤ id ∧ id ≤ 14
  · obtain ⟨low, high⟩ := known
    interval_cases id <;>
      simp [ParamEntry.ok, paramCount, paramInRange, InTable, Among] <;> simp at lengths scales <;> omega
  · have none := paramCount_unknown (id := id) (by omega)
    refine ⟨fun ok => ?_, fun table => absurd (inTable_id table) known⟩
    simp [ParamEntry.ok, none] at ok

/-- The first entry that a test finds in a list of entries, counted from 0 (R167). -/
theorem firstEntry_eq (p : ParamEntry → Bool) (n : Nat) (es : List ParamEntry) :
    firstEntry p n es = (es.findIdx? p).map (n + ·) := by
  induction es generalizing n with
  | nil => rfl
  | cons e es ih =>
    rw [firstEntry, List.findIdx?_cons]
    split
    · rfl
    · rw [ih, Option.map_map]
      congr 1
      funext i
      simp only [Function.comp]
      omega

section Entries

variable {f : Nat → ParamEntry} {p : ParamEntry → Bool} {n i : Nat}

theorem firstEntry_range (inside : i < n) (hit : p (f i) = true) (before : ∀ j, j < i → p (f j) = false) :
    firstEntry p 0 ((List.range n).map f) = some i := by
  have found : ((List.range n).map f).findIdx? p = some i := by
    rw [List.findIdx?_eq_some_iff_getElem]
    exact ⟨by simpa using inside, by simpa using hit, fun j less => by simpa using before j less⟩
  rw [firstEntry_eq, found]
  simp

theorem firstEntry_range_none (h : ∀ i, i < n → p (f i) = false) :
    firstEntry p 0 ((List.range n).map f) = none := by
  have found : ((List.range n).map f).findIdx? p = none := by
    rw [List.findIdx?_eq_none_iff]
    intro e member
    obtain ⟨i, inside, rfl⟩ := List.mem_map.mp member
    exact h i (List.mem_range.mp inside)
  rw [firstEntry_eq, found]
  rfl

theorem firstEntry_of_sound (sound : ∀ i, i < n → (f i).ok = true) :
    firstEntry (fun e => !e.ok) 0 ((List.range n).map f) = none :=
  firstEntry_range_none (by simpa using sound)

end Entries

/-! The image in the staging area (12.8). -/

/-- An image's value is signed for three ids. -/
theorem imageEntry_signed {s : State} {k : Nat}
    (h : (s.imageEntry k).id = 2 ∨ (s.imageEntry k).id = 9 ∨ (s.imageEntry k).id = 13) :
    (s.imageEntry k).value = (s.staging32 (4 + 8 * k + 4)).toInt :=
  if_pos (by
    change paramSigned (s.imageEntry k).id = true
    simpa [paramSigned, or_assoc] using h)

theorem imageEntry_unsigned {s : State} {k : Nat} (two : (s.imageEntry k).id ≠ 2) (nine : (s.imageEntry k).id ≠ 9)
    (thirteen : (s.imageEntry k).id ≠ 13) :
    (s.imageEntry k).value = ((s.staging32 (4 + 8 * k + 4)).toNat : Int) :=
  if_neg (by
    change ¬paramSigned (s.imageEntry k).id = true
    simp [paramSigned, two, nine, thirteen])

/-- The staging area is read as the host left it. -/
theorem staging_kept {s u : State} {k : SlotId} (same : Memory.SameBut (answerBytes k) s.mem u.mem) :
    (∀ x, u.staging16 x = s.staging16 x) ∧ u.imageEntry = s.imageEntry := by
  have outside := fun {x : Nat} (h : stagingBase ≤ x) => Intake.not_answerBytes_staging k h
  have words : ∀ x, u.staging16 x = s.staging16 x := fun x =>
    same.read16 (outside (by omega)) (outside (by omega))
  have longs : ∀ x, u.staging32 x = s.staging32 x := fun x =>
    same.read32 (outside (by omega)) (outside (by omega)) (outside (by omega)) (outside (by omega))
  refine ⟨words, funext fun i => ?_⟩
  simp only [State.imageEntry, words, longs]

/-! The constraints (R166). -/

theorem pointsOf_length (m : MetroSet) (d : DeckId) : (m.pointsOf d).length = (m.get 7 d.val).toNat := by
  simp [MetroSet.pointsOf]

theorem pointsOf_get {m : MetroSet} {d : DeckId} {j : Nat} (h : (j : Int) < m.get 7 d.val) :
    (m.pointsOf d)[j]? = some (m.get 8 (d.val * 4 + j), m.get 9 (d.val * 4 + j)) := by
  have inside : j < (m.get 7 d.val).toNat := by omega
  simp [MetroSet.pointsOf, inside]

theorem ascendingFrom_iff (lo : Int) (xs : List Int) :
    ascendingFrom lo xs = true ↔ (lo :: xs).Pairwise (· < ·) := by
  rw [← List.isChain_iff_pairwise]
  induction xs generalizing lo with
  | nil => simp [ascendingFrom]
  | cons x xs ih => simp [ascendingFrom, ih]

/-- What a constraint that concerns a deck demands of it (R166). -/
def Demand (m : MetroSet) (n : Nat) (d : DeckId) : Prop :=
  if n = 2 then
    ((0, 0) :: m.pointsOf d).Pairwise (fun a b => a.1 < b.1)
      ∧ ∀ p, ((0, 0) :: m.pointsOf d).getLast? = some p → p.1 ≤ m.maxOf d
  else if n = 3 then ∀ p ∈ m.pointsOf d, (p.2.natAbs : Int) * 100 ≤ m.maxOf d
  else ((m.zcalOf d).natAbs : Int) * 10 ≤ m.maxOf d

theorem constraint_ascending (m : MetroSet) (d : DeckId) : m.constraint 2 d = true ↔ Demand m 2 d := by
  have last : ((m.pointsOf d).map Prod.fst).getLastD 0 = ((m.pointsOf d).getLast?.getD (0, 0)).1 := by
    rw [List.getLastD_eq_getLast?, List.getLast?_map]
    cases (m.pointsOf d).getLast? <;> rfl
  have ascending : ascendingFrom 0 ((m.pointsOf d).map Prod.fst) = true ↔
      ((0, 0) :: m.pointsOf d).Pairwise fun a b => a.1 < b.1 := by
    rw [ascendingFrom_iff, ← List.pairwise_map (f := Prod.fst) (R := (· < ·))]
    rfl
  have largest : decide (((m.pointsOf d).map Prod.fst).getLastD 0 ≤ m.maxOf d) = true ↔
      ∀ p, ((0, 0) :: m.pointsOf d).getLast? = some p → p.1 ≤ m.maxOf d := by
    rw [last, List.getLast?_cons]
    simp
  rw [Demand, if_pos rfl, ← ascending, ← largest, ← Bool.and_eq_true]
  rfl

theorem constraint_iff {m : MetroSet} {n : Nat} (deck : 2 ≤ n) (d : DeckId) :
    m.constraint n d = true ↔ Demand m n d := by
  match n, deck with
  | 2, _ => exact constraint_ascending m d
  | 3, _ => simp [MetroSet.constraint, Demand]
  | n + 4, _ => simp [MetroSet.constraint, Demand]

/-- A deck is enabled in the set. -/
def AnyEnabled (m : MetroSet) : Prop :=
  ∃ d, m.isEnabled d = true

theorem mem_allDecks (d : DeckId) : d ∈ allDecks := by
  fin_cases d <;> decide

theorem constraint_enabled (m : MetroSet) (d : DeckId) : m.constraint 1 d = true ↔ AnyEnabled m := by
  simp [MetroSet.constraint, MetroSet.decks, AnyEnabled, List.filter_eq_nil_iff, mem_allDecks]

/-- One constraint is judged before another: by its number, and then by its deck. -/
def JudgedBefore (x y : Nat × DeckId) : Prop :=
  x.1 < y.1 ∨ (x.1 = y.1 ∧ x.2 < y.2)

theorem constraintOrder_ascending : constraintOrder.Pairwise JudgedBefore := by
  unfold JudgedBefore
  decide

theorem mem_constraintOrder {n : Nat} {d : DeckId} :
    (n, d) ∈ constraintOrder ↔ (n = 1 ∧ d = 0) ∨ (2 ≤ n ∧ n ≤ 4) := by
  have numbers : (2 = n ∨ 3 = n ∨ 4 = n) ↔ 2 ≤ n ∧ n ≤ 4 := by omega
  simp [constraintOrder, mem_allDecks, numbers]

/-- In a list in ascending order, the first element that a test finds is the least that it holds for. -/
theorem find?_eq_some_of_pairwise {α : Type} {before : α → α → Prop} (asymm : ∀ a b, before a b → ¬before b a)
    {test : α → Bool} {l : List α} (ascending : l.Pairwise before) (a : α) :
    l.find? test = some a ↔ a ∈ l ∧ test a = true ∧ ∀ b ∈ l, before b a → test b = false := by
  induction l with
  | nil => simp
  | cons x l ih =>
    obtain ⟨least, rest⟩ := List.pairwise_cons.mp ascending
    rw [List.find?_cons]
    cases hit : test x with
    | true =>
      simp only [Option.some.injEq]
      constructor
      · rintro rfl
        refine ⟨List.mem_cons_self, hit, fun b member less => ?_⟩
        rcases List.mem_cons.mp member with rfl | later
        · exact absurd less (asymm _ _ less)
        · exact absurd less (asymm _ _ (least b later))
      · rintro ⟨member, -, none⟩
        rcases List.mem_cons.mp member with rfl | later
        · rfl
        · simp [hit] at none
          exact absurd (least a later) none.1
    | false =>
      rw [ih rest]
      have other : test a = true → a ≠ x := by
        rintro found rfl
        simp [hit] at found
      simp only [List.mem_cons, forall_eq_or_imp, hit, implies_true, true_and]
      constructor
      · rintro ⟨member, found, none⟩
        exact ⟨.inr member, found, none⟩
      · rintro ⟨member, found, none⟩
        exact ⟨member.resolve_left (other found), found, none⟩

theorem firstFailure_eq_some_iff (m : MetroSet) (c : Nat) (d : DeckId) :
    m.firstFailure = some (c, d) ↔
      (c, d) ∈ constraintOrder ∧ m.constraint c d = false
        ∧ ∀ n e, (n, e) ∈ constraintOrder → JudgedBefore (n, e) (c, d) → m.constraint n e = true := by
  have asymm : ∀ x y : Nat × DeckId, JudgedBefore x y → ¬JudgedBefore y x := by
    intro x y
    simp only [JudgedBefore, Fin.lt_def]
    omega
  rw [MetroSet.firstFailure, find?_eq_some_of_pairwise asymm constraintOrder_ascending]
  simp

theorem firstFailure_eq_none_iff (m : MetroSet) :
    m.firstFailure = none ↔ AnyEnabled m ∧ ∀ d, Demand m 2 d ∧ Demand m 3 d ∧ Demand m 4 d := by
  have all : m.firstFailure = none ↔ ∀ n d, (n, d) ∈ constraintOrder → m.constraint n d = true := by
    simp [MetroSet.firstFailure]
  rw [all, ← constraint_enabled m 0]
  constructor
  · intro h
    have deck : ∀ n d, 2 ≤ n → n ≤ 4 → Demand m n d := fun n d low high =>
      (constraint_iff low d).mp (h n d (mem_constraintOrder.mpr (.inr ⟨low, high⟩)))
    exact ⟨h 1 0 (mem_constraintOrder.mpr (.inl ⟨rfl, rfl⟩)), fun d =>
      ⟨deck 2 d (by omega) (by omega), deck 3 d (by omega) (by omega), deck 4 d (by omega) (by omega)⟩⟩
  · rintro ⟨enabled, deck⟩ n d member
    obtain ⟨two, three, four⟩ := deck d
    rcases mem_constraintOrder.mp member with ⟨rfl, rfl⟩ | ⟨low, high⟩
    · exact enabled
    · rw [constraint_iff low d]
      interval_cases n <;> assumption

theorem firstFailure_enabled_iff (m : MetroSet) : m.firstFailure = some (1, 0) ↔ ¬AnyEnabled m := by
  rw [firstFailure_eq_some_iff, ← constraint_enabled m 0, Bool.not_eq_true]
  constructor
  · exact fun h => h.2.1
  · intro failed
    refine ⟨mem_constraintOrder.mpr (.inl ⟨rfl, rfl⟩), failed, fun n e member before => ?_⟩
    simp only [JudgedBefore, Fin.lt_def] at before
    rcases mem_constraintOrder.mp member with ⟨rfl, rfl⟩ | between <;> omega

theorem firstFailure_deck_iff {m : MetroSet} {c : Nat} (other : c ≠ 1) (d : DeckId) :
    m.firstFailure = some (c, d) ↔
      AnyEnabled m ∧ (2 ≤ c ∧ c ≤ 4) ∧ ¬Demand m c d
        ∧ ∀ (n : Nat) (e : DeckId), 2 ≤ n → n < c ∨ (n = c ∧ e < d) → Demand m n e := by
  rw [firstFailure_eq_some_iff, mem_constraintOrder]
  constructor
  · rintro ⟨inOrder, failed, before⟩
    have between : 2 ≤ c ∧ c ≤ 4 := inOrder.resolve_left fun first => other first.1
    refine ⟨?enabled, between, ?fails, fun n e low less => ?demands⟩
    case enabled =>
      exact (constraint_enabled m 0).mp
        (before 1 0 (mem_constraintOrder.mpr (.inl ⟨rfl, rfl⟩)) (.inl between.1))
    case fails => rw [← constraint_iff between.1, failed]; simp
    case demands =>
      have high : n ≤ 4 := by omega
      exact (constraint_iff low e).mp (before n e (mem_constraintOrder.mpr (.inr ⟨low, high⟩)) less)
  · rintro ⟨enabled, between, fails, before⟩
    refine ⟨.inr between, ?_, fun n e member less => ?_⟩
    · rwa [← constraint_iff between.1, Bool.not_eq_true] at fails
    · rcases mem_constraintOrder.mp member with ⟨rfl, rfl⟩ | ⟨low, -⟩
      · exact (constraint_enabled m 0).mpr enabled
      · exact (constraint_iff low e).mpr (before n e low less)

/-! The fields that take part (R167, pass 3). -/

/-- An index is that of a point that counts for a deck. -/
def Counted (m : MetroSet) (index : Nat) (d : DeckId) : Prop :=
  ∃ j : Nat, j < 4 ∧ (j : Int) < m.get 7 d.val ∧ index = d.val * 4 + j

theorem counted_iff (m : MetroSet) (index : Nat) (d : DeckId) :
    (index / 4 = d.val ∧ index % 4 < (m.get 7 d.val).toNat) ↔ Counted m index d := by
  constructor
  · rintro ⟨deck, point⟩
    exact ⟨index % 4, by omega, by omega, by omega⟩
  · rintro ⟨j, below, counts, rfl⟩
    omega

theorem takesPart_iff (m : MetroSet) (id index : Nat) (d : DeckId) :
    (takesPart m id index 1 d = true ↔ id = 4) ∧
    (takesPart m id index 2 d = true ↔ (index = d.val ∧ (id = 6 ∨ id = 7)) ∨ (Counted m index d ∧ id = 8)) ∧
    (takesPart m id index 3 d = true ↔ (index = d.val ∧ (id = 6 ∨ id = 7)) ∨ (Counted m index d ∧ id = 9)) ∧
    (takesPart m id index 4 d = true ↔ index = d.val ∧ (id = 6 ∨ id = 13)) := by
  refine ⟨?_, ?_, ?_, ?_⟩ <;>
    simp only [takesPart, Bool.or_eq_true, Bool.and_eq_true, beq_iff_eq, decide_eq_true_eq, counted_iff] <;>
    tauto

/-! An order that claims the staging area and is answered at its take (R107, R108, R110). -/

/-- A state with the slot TAKEN, its order in flight and the staging area claimed by it. -/
def claimedAs (s v : State) (k : SlotId) (kind : OrderKind) : State :=
  (begunAs s v k kind).claimStaging k

theorem exec_claimed {c : Instr} {s v : State} {k : SlotId} {kind : OrderKind} {code : AnswerCode}
    {body : List Byte} {owner : State → SlotId → State}
    (taken : exec c s = .next (s.whenOn fun u => u.takePosted k kind owner)) (p : s.Posted k kind)
    (inRange : s.badOrderParam k kind = none) (claims : kind.claimsStaging = true) (free : s.intake.claim = none)
    (fits : body.length ≤ 64) (regs : v.regs = s.regs)
    (owned : owner (claimedAs s s k kind) k = (claimedAs s v k kind).answer k code body) :
    ∃ t : State, exec c s = .next t ∧ AnsweredAs k code body s v t := by
  have wf := beginOrder_wf p.memory k kind
  obtain ⟨flight, claim⟩ := claimStaging_holds free k kind
  refine ⟨((claimedAs s v k kind).answer k code body).setPosition k, ?run, ?answered, ?rest, ?memory⟩
  case run =>
    rw [taken, takePosted_claims p inRange claims free, ← owned]
    rfl
  case answered => exact answer_answered (u := claimedAs s v k kind) wf fits ⟨flight, claim⟩
  case rest =>
    rw [← regs]
    exact answer_rest (claimedAs s v k kind) k code body
  case memory =>
    exact (beginOrder_sameBut p.memory k kind).trans (answer_sameBut (u := claimedAs s v k kind) wf fits)

/-- The claim leaves the staging area and the session as the host and the part have them. -/
theorem claimedAs_touchIdle {s : State} (opened : s.session.state = .opened) (k : SlotId) (kind : OrderKind) :
    (claimedAs s s k kind).touchIdle = claimedAs s (idleReset s) k kind :=
  if_pos opened

theorem claimedAs_sameBut {s : State} (w : s.mem.wf = true) (v : State) (k : SlotId) (kind : OrderKind) :
    Memory.SameBut (answerBytes k) s.mem (claimedAs s v k kind).mem :=
  beginOrder_sameBut w k kind

/-! A set staged (R167, R169, R170). -/

/-- The part of an OPEN session with another set staged, under the next revision. -/
def restaged (s : State) (before copy : MetroSet) : State :=
  { s with
    session :=
      { s.session with
        idle := 0
        staged := some copy
        revision := if s.session.revision = 65535 then 1 else s.session.revision + 1
        provisional := refreshProvisional s.session.provisional before copy s.metro.active } }

theorem restage_eq {s : State} {m : MetroSet} (staged : s.session.staged = some m) (idle : s.session.idle = 0)
    (copy : MetroSet) : s.restage copy = restaged s m copy := by
  unfold State.restage restaged
  rw [staged, ← idle]

/-! The order by its passes (R167). -/

theorem stageOrder_of_not_opened {s : State} (h : s.session.state ≠ .opened) (k : SlotId) :
    s.stageOrder k = s.answer k .sessionClosed [] := by
  unfold State.stageOrder
  split
  next opened _ => exact absurd opened h
  next => rfl

section Passes

variable {s u : State} {m : MetroSet} {n : Nat} {f : Nat → ParamEntry} (opened : s.session.state = .opened)
  (staged : s.session.staged = some m) (handed : s.touchIdle = u) (counted : (u.staging16 0).toNat = n)
  (read : u.imageEntry = f) (k : SlotId)
include opened staged handed counted read

/-- In an OPEN session the order goes by its three passes. -/
theorem stageOrder_of_opened :
    s.stageOrder k =
      if n < 1 ∨ 128 < n then u.badParam k 65535
      else
        match firstEntry (fun e => !e.ok) 0 ((List.range n).map f) with
        | some i => u.badParam k i
        | none =>
          let copy := applyParams m ((List.range n).map f)
          match copy.firstFailure with
          | some (c, d) =>
            u.badParam k
              ((firstEntry (fun e => takesPart copy e.id e.index c d) 0 ((List.range n).map f)).getD 0)
          | none => (u.restage copy).answer k .done (u16 (u.restage copy).session.revision) := by
  subst handed counted read
  unfold State.stageOrder
  rw [opened, staged] <;> rfl

theorem stageOrder_of_count (h : n < 1 ∨ 128 < n) : s.stageOrder k = u.badParam k 65535 := by
  rw [stageOrder_of_opened opened staged handed counted read, if_pos h]

variable (low : 1 ≤ n) (high : n ≤ 128)
include low high

theorem stageOrder_of_entry {i : Nat} (inside : i < n) (fails : (f i).ok = false)
    (before : ∀ j, j < i → (f j).ok = true) : s.stageOrder k = u.badParam k i := by
  have first : firstEntry (fun e => !e.ok) 0 ((List.range n).map f) = some i :=
    firstEntry_range inside (by simp [fails]) (by simpa using before)
  rw [stageOrder_of_opened opened staged handed counted read, if_neg (by omega), first]

variable (sound : ∀ i, i < n → (f i).ok = true)
include sound

theorem stageOrder_of_failure {c : Nat} {d : DeckId} {i : Nat} {copy : MetroSet}
    (applied : applyParams m ((List.range n).map f) = copy) (failure : copy.firstFailure = some (c, d)) (inside : i < n)
    (part : takesPart copy (f i).id (f i).index c d = true)
    (before : ∀ j, j < i → takesPart copy (f j).id (f j).index c d = false) :
    s.stageOrder k = u.badParam k i := by
  have first : firstEntry (fun e => takesPart copy e.id e.index c d) 0 ((List.range n).map f) = some i :=
    firstEntry_range (p := fun e => takesPart copy e.id e.index c d) inside part before
  rw [stageOrder_of_opened opened staged handed counted read, if_neg (by omega), firstEntry_of_sound sound]
  simp only [applied, failure, first, Option.getD_some]

theorem stageOrder_stages {copy : MetroSet} (applied : applyParams m ((List.range n).map f) = copy)
    (passes : copy.firstFailure = none) :
    s.stageOrder k = (u.restage copy).answer k .done (u16 (u.restage copy).session.revision) := by
  rw [stageOrder_of_opened opened staged handed counted read, if_neg (by omega), firstEntry_of_sound sound]
  simp only [applied, passes]

end Passes

/-! The command. -/

theorem exec_stageParams (s : State) (k : SlotId) :
    exec (.stageParams k) s = .next (s.whenOn fun u => u.takePosted k .stageParams State.stageOrder) := rfl

theorem u16_fits (n : Int) : (u16 n).length ≤ 64 :=
  Nat.le_of_ble_eq_true rfl

theorem claimedAs_restage {s : State} {m : MetroSet} (staged : s.session.staged = some m) (copy : MetroSet)
    (k : SlotId) (kind : OrderKind) :
    (claimedAs s (idleReset s) k kind).restage copy = claimedAs s (restaged s m copy) k kind :=
  restage_eq (s := claimedAs s (idleReset s) k kind) staged rfl copy

/-- Settles O54: the order by its passes on the image as the host left it, and what an entry, a constraint and a part in
a constraint are. -/
theorem stageParamsJudgesAndStages : Obligations.StageParamsJudgesAndStages := by
  refine ⟨?judged, fun p => ok_iff p, ?value, fun m d j => pointsOf_get, pointsOf_length, fun m =>
    ⟨firstFailure_eq_none_iff m, firstFailure_enabled_iff m, fun c d other => firstFailure_deck_iff other d⟩,
    takesPart_iff⟩
  case value =>
    intro s k
    exact ⟨rfl, rfl, imageEntry_signed, imageEntry_unsigned⟩
  case judged =>
    intro s k p free n image
    have run := exec_stageParams s k
    refine ⟨fun closed => ?closed, ?opened⟩
    case closed =>
      exact exec_claimed run p rfl rfl free (Nat.zero_le _) rfl
        (stageOrder_of_not_opened (s := claimedAs s s k .stageParams) closed k)
    intro m opened staged copy revision
    have handed := claimedAs_touchIdle opened k .stageParams
    obtain ⟨words, read⟩ := staging_kept (claimedAs_sameBut p.memory (idleReset s) k .stageParams)
    have counted : ((claimedAs s (idleReset s) k .stageParams).staging16 0).toNat = n := by rw [words]
    refine ⟨fun count => ?count, fun i low high inside fails before => ?entry,
      fun c d i low high sound failure inside part before => ?failure, fun low high sound passes => ?stages⟩
    case count =>
      exact exec_claimed run p rfl rfl free (u16_fits _) rfl
        (stageOrder_of_count (s := claimedAs s s k .stageParams) opened staged handed counted read k count)
    case entry =>
      exact exec_claimed run p rfl rfl free (u16_fits _) rfl
        (stageOrder_of_entry (s := claimedAs s s k .stageParams) opened staged handed counted read k low high inside
          fails before)
    case failure =>
      exact exec_claimed run p rfl rfl free (u16_fits _) rfl
        (stageOrder_of_failure (s := claimedAs s s k .stageParams) opened staged handed counted read k low high sound
          rfl failure inside part before)
    case stages =>
      have stages := stageOrder_stages (s := claimedAs s s k .stageParams) opened staged handed counted read k low high
        sound rfl passes
      rw [claimedAs_restage staged] at stages
      exact exec_claimed run p rfl rfl free (u16_fits _) rfl stages

end Sys2Proof.Staging
end

section
/-! SUPPORT. The means of a session and the measurements on them (R166, R168 to R172): provisional histories, the checks
that every measurement makes first, what each order does once they pass, and the two statements about them. -/

namespace Sys2Proof.Measurements

open Sys2Proof Sys2Proof.Machine Sys2Proof.Orders Sys2Proof.SessionOpens Sys2Proof.Staging

/-! Provisional means (R166). -/

/-- The provisional history of a cell under a new staged set: the old one, or an empty one. -/
def refreshedCell (old : List Provisional) (before after : MetroSet) (c : CellId) : Provisional :=
  match old.find? fun p => p.cell == c with
  | some p =>
    if before.deckOf c = after.deckOf c ∧ stagedLength before c = stagedLength after c then p else ⟨c, [], 0⟩
  | none => ⟨c, [], 0⟩

theorem refreshProvisional_eq (old : List Provisional) (before after active : MetroSet) :
    refreshProvisional old before after active =
      (allCells.filter (provisionalCell after active)).map (refreshedCell old before after) :=
  rfl

section Refreshed

variable {old : List Provisional} {before after : MetroSet} {c : CellId}

theorem refreshedCell_cell : (refreshedCell old before after c).cell = c := by
  unfold refreshedCell
  split
  next p found =>
    split
    · simpa using List.find?_some found
    · rfl
  next => rfl

theorem refreshedCell_kept {q : Provisional} (found : old.find? (fun x => x.cell == c) = some q)
    (deck : before.deckOf c = after.deckOf c) (length : stagedLength before c = stagedLength after c) :
    refreshedCell old before after c = q := by
  simp only [refreshedCell, found, deck, length, and_self, if_true]

theorem refreshedCell_emptied
    (h : old.find? (fun x => x.cell == c) = none ∨ before.deckOf c ≠ after.deckOf c
      ∨ stagedLength before c ≠ stagedLength after c) :
    refreshedCell old before after c = ⟨c, [], 0⟩ := by
  unfold refreshedCell
  split
  next p found =>
    refine if_neg fun same => ?_
    rcases h with absent | deck | length
    · simp [found] at absent
    · exact deck same.1
    · exact length same.2
  next => rfl

end Refreshed

theorem stagedLength_of_fitted {m : MetroSet} {c : CellId} {d : DeckId} (fitted : m.fittedTo c = some d) :
    stagedLength m c = (m.get 10 d.val).toNat := by
  rw [stagedLength, fitted]
  rfl

theorem stagedLength_of_unfitted {m : MetroSet} {c : CellId} (unfitted : m.fittedTo c = none) :
    stagedLength m c = 0 := by
  rw [stagedLength, unfitted]

theorem take_of_bad {status : CellStatus} (bad : status ≠ .good) (p : Provisional) (m : MetroSet) (count : Int) :
    p.take m count status = { p with history := [], sum := 0 } :=
  if_neg bad

/-- A GOOD count enters as into any history of a length: the latest counts are kept, with their sum. -/
theorem take_of_good {p : Provisional} {m : MetroSet} (pos : 0 < stagedLength m p.cell)
    (short : p.history.length ≤ stagedLength m p.cell) (sum : p.sum = p.history.sum) (count : Int) :
    let latest := (p.history ++ [count]).drop (p.history.length + 1 - stagedLength m p.cell)
    p.take m count .good = { p with history := latest, sum := latest.sum } := by
  intro latest
  have whole : p.history.drop (p.history.length - stagedLength m p.cell) = p.history := by
    rw [show p.history.length - stagedLength m p.cell = 0 by omega, List.drop_zero]
  have entered : enterHistory (stagedLength m p.cell) p.history count = latest := by
    have h := Weighing.enterHistory_latest pos p.history count
    rwa [whole, List.length_append, List.length_singleton] at h
  have total : enterSum (stagedLength m p.cell) p.history p.sum count = latest.sum := by
    rw [sum, Weighing.enterSum_eq_sum pos, entered]
  simp only [Provisional.take, if_true, entered, total]

theorem mean_of_full {p : Provisional} {m : MetroSet} (pos : 0 < stagedLength m p.cell)
    (full : p.history.length = stagedLength m p.cell) :
    p.mean m = some (roundDiv p.sum (stagedLength m p.cell)) :=
  if_pos ⟨full, pos⟩

theorem mean_of_short {p : Provisional} {m : MetroSet} (short : p.history.length < stagedLength m p.cell) :
    p.mean m = none :=
  if_neg fun full => by omega

theorem feedProvisional_of_frame {s : State} {f : Frame} {m : MetroSet} (frame : s.link.lastFrame = some f)
    (staged : s.session.staged = some m) :
    s.feedProvisional.session.provisional =
      s.session.provisional.map fun p =>
        p.take m (f.cells.getD p.cell.val (0, .notFitted)).1 (f.cells.getD p.cell.val (0, .notFitted)).2 := by
  simp only [State.feedProvisional, frame, State.takeProvisional, staged]

theorem feedProvisional_of_none {s : State} (h : s.link.lastFrame = none ∨ s.session.staged = none) :
    s.feedProvisional = s := by
  unfold State.feedProvisional
  split
  next f frame =>
    have unstaged : s.session.staged = none := h.resolve_left (by simp [frame])
    simp only [State.takeProvisional, unstaged]
  next => rfl

theorem meanOf_provisional {s : State} {c : CellId} {p : Provisional}
    (found : s.session.provisional.find? (fun x => x.cell == c) = some p) (m : MetroSet) :
    s.meanOf m c = p.mean m := by
  simp only [State.meanOf, found]

theorem meanOf_raw {s : State} {c : CellId} (absent : s.session.provisional.find? (fun x => x.cell == c) = none)
    (m : MetroSet) : s.meanOf m c = (s.chain.cells.getD c.val CellChain.start).mean := by
  simp only [State.meanOf, absent]

theorem mem_workPieces_iff (frame : Bool) (w : Work) :
    Piece.provisional ∈ workPieces frame [] w ↔ frame = true ∧ w = .compute := by
  cases w
  case compute =>
    cases frame <;> simp [workPieces]
  all_goals simp [workPieces]

/-! The checks that measurements share (R168). -/

theorem measure_of_not_opened {s : State} (h : s.session.state ≠ .opened) (k : SlotId) (ds : List DeckId)
    (f : State → MetroSet → State) : s.measure k ds f = s.answer k .sessionClosed [] := by
  unfold State.measure
  split
  next opened _ => exact absurd opened h
  next => rfl

section Opened

variable {s u : State} {m : MetroSet} (opened : s.session.state = .opened) (staged : s.session.staged = some m)
  (handed : s.touchIdle = u) (k : SlotId) {ds : List DeckId}
include opened staged handed

theorem measure_of_refused {code : AnswerCode} {n : Nat} (refused : u.measureRefusal m ds = some (code, n))
    (f : State → MetroSet → State) : s.measure k ds f = u.answer k code (u16 n) := by
  simp only [State.measure, opened, staged, handed, refused]

theorem measure_of_passed (passed : u.measureRefusal m ds = none) (f : State → MetroSet → State) :
    s.measure k ds f = f u m := by
  simp only [State.measure, opened, staged, handed, passed]

end Opened

section Refusals

variable {s : State} {m : MetroSet} {ds : List DeckId}

theorem measureRefusal_of_disabled (h : ∃ d ∈ ds, m.isEnabled d = false) :
    s.measureRefusal m ds = some (.badParam, 0) :=
  if_pos (by simpa using h)

variable (enabled : ∀ d ∈ ds, m.isEnabled d = true)
include enabled

theorem measureRefusal_of_notReady {d : DeckId} (found : ds.find? (s.measureNotReady m) = some d) :
    s.measureRefusal m ds = some (.notReady, d.val) := by
  rw [State.measureRefusal, if_neg (by simpa using enabled), found]

theorem measureRefusal_of_notStill (ready : ∀ d ∈ ds, s.measureNotReady m d = false) {d : DeckId}
    (found : ds.find? s.measureNotStill = some d) : s.measureRefusal m ds = some (.notStill, d.val) := by
  have none : ds.find? (s.measureNotReady m) = none := List.find?_eq_none.mpr (by simpa using ready)
  rw [State.measureRefusal, if_neg (by simpa using enabled), none, found]

end Refusals

section Saturation

variable {s f : State} {k : SlotId} {m : MetroSet} {ds : List DeckId}

theorem unlessSaturated_of_some {c : CellId} (h : evaluateSaturated m (s.meansFor m) ds = some c) :
    s.unlessSaturated k m ds f = s.answer k .cellSaturated (u16 c.val) := by
  simp only [State.unlessSaturated, h]

theorem unlessSaturated_of_none (h : evaluateSaturated m (s.meansFor m) ds = none) :
    s.unlessSaturated k m ds f = f := by
  simp only [State.unlessSaturated, h]

end Saturation

/-! The four orders at their take (R169 to R172). -/

/-- The decks that a measurement names. -/
def namedDecks (s : State) (k : SlotId) (kind : OrderKind) : List DeckId :=
  if kind = .zeroCal ∨ kind = .testLoad then maskDecks (s.order16 k 0) else [Fin.ofNat 4 (s.order16 k 0).toNat]

/-- The kinds of a measurement. -/
def IsMeasurement (kind : OrderKind) : Prop :=
  kind = .zeroCal ∨ kind = .spanCal ∨ kind = .cornerRead ∨ kind = .testLoad

theorem claims_of_measurement {kind : OrderKind} (h : IsMeasurement kind) : kind.claimsStaging = false := by
  rcases h with rfl | rfl | rfl | rfl <;> rfl

theorem spanCalOrder_of_unknown {s : State} {k : SlotId} (unknown : 3 < (s.order16 k 0).toNat) :
    s.spanCalOrder k = s.measure k [] fun t _ => t.badParam k 0 :=
  if_pos unknown

/-- Every measurement of decks that there are makes the shared checks on those it names. -/
theorem ownerOf_measures {kind : OrderKind} (h : IsMeasurement kind) {s : State} {k : SlotId}
    (known : kind = .spanCal → (s.order16 k 0).toNat ≤ 3) :
    ∃ f, ownerOf kind s k = s.measure k (namedDecks s k kind) f := by
  rcases h with rfl | rfl | rfl | rfl
  · unfold ownerOf State.zeroCalOrder
    exact ⟨_, rfl⟩
  · exact ⟨_, if_neg (by simpa using known rfl)⟩
  · unfold ownerOf State.cornerReadOrder
    exact ⟨_, rfl⟩
  · unfold ownerOf State.testLoadOrder
    exact ⟨_, rfl⟩

/-- The take reads the order as the host posted it. -/
theorem beginOrder_namedDecks {s : State} (w : s.mem.wf = true) (k : SlotId) (kind : OrderKind) :
    namedDecks (s.beginOrder k kind) k kind = namedDecks s k kind := by
  simp only [namedDecks, beginOrder_order16 w]

theorem begunAs_restage {s : State} {m : MetroSet} (staged : s.session.staged = some m) (copy : MetroSet) (k : SlotId)
    (kind : OrderKind) :
    (begunAs s (idleReset s) k kind).restage copy = begunAs s (restaged s m copy) k kind :=
  restage_eq (s := begunAs s (idleReset s) k kind) staged rfl copy

/-- The cells that a CORNER_READ lists, from its first cell on. -/
def cornerCells (s : State) (k : SlotId) (m : MetroSet) (d : DeckId) : List CellId :=
  ((m.cellsOf d).filter fun c => decide ((s.order16 k 2).toNat ≤ c.val)).take 10

/-- The body of its answer. -/
def cornerBody (s : State) (k : SlotId) (m : MetroSet) (d : DeckId) : List Byte :=
  u16 (m.cellsOf d).length ++ u16 s.session.revision
    ++ (cornerCells s k m d).flatMap (cornerEntry m (s.meansFor m))

/-- The entry that a TEST_LOAD makes. -/
def testMade (s : State) (k : SlotId) (m : MetroSet) : TestEntry :=
  makeTest m (s.meansFor m) s.session.revision (s.order16 k 0).toNat (maskDecks (s.order16 k 0))
    (TestKind.ofCode (s.order16 k 6).toNat) (s.order32 k 2).toInt

/-- The part with that entry at the end of the test list. -/
def tested (s : State) (k : SlotId) (m : MetroSet) : State :=
  { s with session := { s.session with idle := 0, tests := s.session.tests ++ [testMade s k m] } }

section Taken

variable {s : State} {k : SlotId} {m : MetroSet} (w : s.mem.wf = true) (opened : s.session.state = .opened)
  (staged : s.session.staged = some m)
include opened staged

theorem measure_taken {kind : OrderKind} {ds : List DeckId} (passed : s.measureRefusal m ds = none)
    (f : State → MetroSet → State) :
    (s.beginOrder k kind).measure k ds f = f (begunAs s (idleReset s) k kind) m :=
  measure_of_passed (s := s.beginOrder k kind) opened staged (beginOrder_touchIdle opened k kind) k passed f

include w

theorem zeroCal_evaluates (passed : s.measureRefusal m (maskDecks (s.order16 k 0)) = none) :
    let copy := zeroCalSet m (s.meansFor m) (maskDecks (s.order16 k 0))
    (s.beginOrder k .zeroCal).zeroCalOrder k =
      (begunAs s (idleReset s) k .zeroCal).unlessSaturated k m (maskDecks (s.order16 k 0))
        ((begunAs s (restaged s m copy) k .zeroCal).answer k .done (u16 (restaged s m copy).session.revision)) := by
  intro copy
  rw [State.zeroCalOrder, beginOrder_order16 w]
  dsimp only
  rw [measure_taken opened staged passed, begunAs_restage staged]
  rfl

theorem spanCal_judges {d : DeckId} (known : (s.order16 k 0).toNat ≤ 3)
    (named : Fin.ofNat 4 (s.order16 k 0).toNat = d) (passed : s.measureRefusal m [d] = none) :
    let total := evaluateSum m (s.meansFor m) d
    let gain := spanGain (s.order32 k 2).toInt total
    let copy := m.put 5 d.val gain
    let begun := begunAs s (idleReset s) k .spanCal
    (s.beginOrder k .spanCal).spanCalOrder k =
      if m.maxOf d < (s.order32 k 2).toInt then begun.badParam k 1
      else
        begun.unlessSaturated k m [d]
          (if total < 1000 then begun.badParam k 1
          else
            (begunAs s (restaged s m copy) k .spanCal).answer k .done
              (s32 total ++ u32 gain ++ u16 (restaged s m copy).session.revision)) := by
  intro total gain copy begun
  subst named
  rw [State.spanCalOrder, beginOrder_order16 w, beginOrder_order32 w]
  dsimp only
  rw [if_neg (by omega), measure_taken opened staged passed, begunAs_restage staged]
  rfl

theorem cornerRead_evaluates {d : DeckId} (named : Fin.ofNat 4 (s.order16 k 0).toNat = d)
    (passed : s.measureRefusal m [d] = none) :
    let begun := begunAs s (idleReset s) k .cornerRead
    (s.beginOrder k .cornerRead).cornerReadOrder k =
      begun.unlessSaturated k m [d] (begun.answer k .done (cornerBody s k m d)) := by
  intro begun
  subst named
  rw [State.cornerReadOrder, beginOrder_order16 w, beginOrder_order16 w]
  dsimp only
  rw [measure_taken opened staged passed]
  rfl

theorem testLoad_judges (passed : s.measureRefusal m (maskDecks (s.order16 k 0)) = none) :
    let begun := begunAs s (idleReset s) k .testLoad
    (s.beginOrder k .testLoad).testLoadOrder k =
      if 32 ≤ s.session.tests.length then begun.answer k .listFull []
      else
        begun.unlessSaturated k m (maskDecks (s.order16 k 0))
          ((begunAs s (tested s k m) k .testLoad).answer k .done
            (u16 s.session.tests.length ++ (testMade s k m).body)) := by
  intro begun
  rw [State.testLoadOrder, beginOrder_order16 w, beginOrder_order16 w, beginOrder_order32 w]
  dsimp only
  rw [measure_taken opened staged passed]
  rfl

/-- An evaluation that saturates a cell ends each of the four (R168, assumption 21). -/
theorem ownerOf_saturated {kind : OrderKind} (h : IsMeasurement kind)
    (known : kind = .spanCal → (s.order16 k 0).toNat ≤ 3) (passed : s.measureRefusal m (namedDecks s k kind) = none)
    (room : kind = .testLoad → s.session.tests.length < 32)
    (within : kind = .spanCal → (s.order32 k 2).toInt ≤ m.maxOf (Fin.ofNat 4 (s.order16 k 0).toNat)) {c : CellId}
    (saturated : evaluateSaturated m (s.meansFor m) (namedDecks s k kind) = some c) :
    ownerOf kind (s.beginOrder k kind) k =
      (begunAs s (idleReset s) k kind).answer k .cellSaturated (u16 c.val) := by
  have ends : ∀ f, (begunAs s (idleReset s) k kind).unlessSaturated k m (namedDecks s k kind) f = _ := fun f =>
    unlessSaturated_of_some (s := begunAs s (idleReset s) k kind) (k := k) saturated
  rcases h with rfl | rfl | rfl | rfl
  · exact (zeroCal_evaluates w opened staged passed).trans (ends _)
  · exact (spanCal_judges w opened staged (known rfl) rfl passed).trans
      ((if_neg (by simpa using within rfl)).trans (ends _))
  · exact (cornerRead_evaluates w opened staged rfl passed).trans (ends _)
  · exact (testLoad_judges w opened staged passed).trans ((if_neg (by simpa using room rfl)).trans (ends _))

end Taken

/-! The commands. -/

/-- The take of a measurement that is answered at once. -/
theorem exec_measurement {s v : State} {k : SlotId} {kind : OrderKind} {code : AnswerCode} {body : List Byte}
    (h : IsMeasurement kind) (p : s.Posted k kind) (inRange : s.badOrderParam k kind = none) (fits : body.length ≤ 64)
    (regs : v.regs = s.regs)
    (owned : ownerOf kind (s.beginOrder k kind) k = (begunAs s v k kind).answer k code body) :
    ∃ t : State, exec (orderCommand k kind) s = .next t ∧ AnsweredAs k code body s v t :=
  exec_answered (Intake.exec_orderCommand s k kind) p inRange (claims_of_measurement h) fits regs owned

/-- A measurement that a shared check refuses. -/
theorem exec_measurement_refused {s : State} {k : SlotId} {kind : OrderKind} {m : MetroSet} {code : AnswerCode}
    {n : Nat} (h : IsMeasurement kind) (p : s.Posted k kind) (inRange : s.badOrderParam k kind = none)
    (opened : s.session.state = .opened) (staged : s.session.staged = some m)
    (known : kind = .spanCal → (s.order16 k 0).toNat ≤ 3)
    (refused : s.measureRefusal m (namedDecks s k kind) = some (code, n)) :
    ∃ t : State, exec (orderCommand k kind) s = .next t ∧ AnsweredAs k code (u16 n) s (idleReset s) t := by
  have same := beginOrder_order16 p.memory k kind 0
  obtain ⟨f, measures⟩ := ownerOf_measures h (s := s.beginOrder k kind) (k := k) (by rwa [same])
  refine exec_measurement h p inRange (u16_fits n) rfl ?_
  rw [measures, beginOrder_namedDecks p.memory]
  exact measure_of_refused (s := s.beginOrder k kind) opened staged (beginOrder_touchIdle opened k kind) k refused f

/-- Settles O55: the shared checks one after another, and the evaluation that follows them. -/
theorem measurementsAreJudgedAlike : Obligations.MeasurementsAreJudgedAlike := by
  intro s k kind four p inRange ds
  have same := beginOrder_order16 p.memory k kind 0
  refine ⟨fun closed => ?closed, ?unknown, ?checks⟩
  case closed =>
    refine exec_measurement four p inRange (Nat.zero_le _) rfl ?_
    by_cases known : kind = .spanCal → (s.order16 k 0).toNat ≤ 3
    · obtain ⟨f, measures⟩ := ownerOf_measures four (s := s.beginOrder k kind) (k := k) (by rwa [same])
      rw [measures]
      exact measure_of_not_opened (s := s.beginOrder k kind) closed k _ f
    · obtain ⟨rfl, unknown⟩ := Classical.not_imp.mp known
      refine (spanCalOrder_of_unknown (s := s.beginOrder k .spanCal) (by rw [same]; omega)).trans ?_
      exact measure_of_not_opened (s := s.beginOrder k .spanCal) closed k _ _
  case unknown =>
    rintro m opened staged rfl unknown
    refine exec_measurement four p inRange (u16_fits _) rfl ?_
    refine (spanCalOrder_of_unknown (s := s.beginOrder k .spanCal) (by rwa [same])).trans ?_
    exact measure_taken opened staged rfl _
  case checks =>
    intro m opened staged known
    refine ⟨fun disabled => ?disabled, fun enabled d found => ?notReady, fun enabled ready d found => ?notStill,
      fun passed room within c saturated => ?saturated⟩
    case disabled =>
      exact exec_measurement_refused four p inRange opened staged known (measureRefusal_of_disabled disabled)
    case notReady =>
      exact exec_measurement_refused four p inRange opened staged known (measureRefusal_of_notReady enabled found)
    case notStill =>
      exact exec_measurement_refused four p inRange opened staged known (measureRefusal_of_notStill enabled ready found)
    case saturated =>
      exact exec_measurement four p inRange (u16_fits _) rfl
        (ownerOf_saturated p.memory opened staged four known passed room within saturated)

/-! What the answers carry. -/

theorem spanBody_fits (total gain revision : Int) : (s32 total ++ u32 gain ++ u16 revision).length ≤ 64 :=
  Nat.le_of_ble_eq_true rfl

theorem testBody_fits (n : Int) (entry : TestEntry) : (u16 n ++ entry.body).length ≤ 64 :=
  Nat.le_of_ble_eq_true rfl

/-- Ten cells are as many as the body of a CORNER_READ has room for. -/
theorem cornerBody_fits (s : State) (k : SlotId) (m : MetroSet) (d : DeckId) : (cornerBody s k m d).length ≤ 64 := by
  have entry : ∀ c, (cornerEntry m (s.meansFor m) c).length = 6 := fun _ => rfl
  have few : (cornerCells s k m d).length ≤ 10 := List.length_take_le _ _
  have listed : ((cornerCells s k m d).flatMap (cornerEntry m (s.meansFor m))).length =
      (cornerCells s k m d).length * 6 := by
    simp [List.length_flatMap, entry]
  have head : ∀ a b : Int, (u16 a ++ u16 b).length = 4 := fun _ _ => rfl
  rw [cornerBody, List.length_append, head, listed]
  omega

/-- Settles O56: the provisional means by what enters and empties them, and each order by what follows its checks. -/
theorem measurementsDoTheirWork : Obligations.MeasurementsDoTheirWork := by
  refine ⟨?refreshed, fun m c => ⟨fun d => stagedLength_of_fitted, stagedLength_of_unfitted⟩, ?entered, ?pieces, ?fed,
    ?means, ?orders⟩
  case refreshed =>
    intro old before after active fresh
    have eq := refreshProvisional_eq old before after active
    refine ⟨?cells, fun p member => ?histories⟩
    case cells =>
      rw [show fresh = _ from eq, List.map_map]
      refine (List.map_congr_left fun c _ => refreshedCell_cell).trans (List.map_id' _)
    case histories =>
      rw [show fresh = _ from eq] at member
      obtain ⟨c, -, rfl⟩ := List.mem_map.mp member
      rw [refreshedCell_cell]
      refine ⟨fun q => refreshedCell_kept, fun h => ?_⟩
      rw [refreshedCell_emptied h]
      exact ⟨rfl, rfl⟩
  case entered =>
    intro p m count status n
    refine ⟨fun bad => take_of_bad bad p m count, ?_, mean_of_full, mean_of_short⟩
    rintro rfl pos short sum
    exact take_of_good pos short sum count
  case pieces =>
    intro change frame w
    refine ⟨mem_workPieces_iff frame w, ?_⟩
    rintro rfl
    exact ⟨_, _, rfl⟩
  case fed =>
    intro s
    refine ⟨fun f m => feedProvisional_of_frame, fun h => ?_⟩
    exact congrArg (·.session.provisional) (feedProvisional_of_none h)
  case means =>
    intro s m c
    refine ⟨fun p found => meanOf_provisional found m, fun absent => meanOf_raw absent m, fun v found => ?_⟩
    rw [State.meansFor, found, Option.getD_some]
  case orders =>
    intro s k m opened staged means revision copied
    refine ⟨?zeroCal, ?spanCal, ?cornerRead, ?testLoad⟩
    case zeroCal =>
      intro p inRange ds passed clear
      exact exec_measurement (.inl rfl) p inRange (u16_fits _) rfl
        ((zeroCal_evaluates p.memory opened staged passed).trans
          (unlessSaturated_of_none (s := begunAs s (idleReset s) k .zeroCal) clear))
    case spanCal =>
      intro p inRange known d reference total gain
      have judges := @spanCal_judges s k m p.memory opened staged d known rfl
      refine ⟨fun passed above => ?above, fun passed within clear => ⟨fun loaded => ?gained, fun light => ?light⟩⟩
      case above =>
        exact exec_measurement (.inr (.inl rfl)) p inRange (u16_fits _) rfl ((judges passed).trans (if_pos above))
      all_goals
        have evaluated := ((judges passed).trans (if_neg (by omega))).trans
          (unlessSaturated_of_none (s := begunAs s (idleReset s) k .spanCal) clear)
      case gained =>
        exact exec_measurement (.inr (.inl rfl)) p inRange (spanBody_fits ..) rfl
          (evaluated.trans (if_neg (Int.not_lt.mpr loaded)))
      case light =>
        exact exec_measurement (.inr (.inl rfl)) p inRange (u16_fits _) rfl (evaluated.trans (if_pos light))
    case cornerRead =>
      intro p inRange d listed passed clear
      exact exec_measurement (.inr (.inr (.inl rfl))) p inRange (cornerBody_fits s k m d) rfl
        ((cornerRead_evaluates p.memory opened staged rfl passed).trans
          (unlessSaturated_of_none (s := begunAs s (idleReset s) k .cornerRead) clear))
    case testLoad =>
      intro p inRange ds passed
      have judges := testLoad_judges p.memory opened staged passed
      refine ⟨?listed, fun full => ?full⟩
      case listed =>
        intro room clear reference shown mpe entry
        exact exec_measurement (.inr (.inr (.inr rfl))) p inRange (testBody_fits ..) rfl
          ((judges.trans (if_neg (by omega))).trans
            (unlessSaturated_of_none (s := begunAs s (idleReset s) k .testLoad) clear))
      case full =>
        exact exec_measurement (.inr (.inr (.inr rfl))) p inRange (Nat.zero_le _) rfl (judges.trans (if_pos full))

end Sys2Proof.Measurements
end

section
/-! SUPPORT. READ_METROLOGY (R182): an order that writes a run of bytes into the staging area under its claim and is
answered at its take, the size of a metrology image, and the statement about the order. -/

namespace Sys2Proof.MetrologyReads

open Sys2Proof Sys2Proof.Machine Sys2Proof.Orders Sys2Proof.Staging

/-! An order that writes into the staging area it has claimed (R107, R108, R110). -/

/-- A state with the order of a slot in flight and the staging area claimed by it, and with a run of bytes written there
from its beginning on. -/
def shownAs (s v : State) (k : SlotId) (kind : OrderKind) (bs : List Byte) : State :=
  (claimedAs s v k kind).writeRun stagingBase bs

/-- The part when that order has been answered. -/
def shownAnswered (s v : State) (k : SlotId) (kind : OrderKind) (bs : List Byte) (code : AnswerCode)
    (body : List Byte) : State :=
  ((shownAs s v k kind bs).answer k code body).setPosition k

section Shown

variable {s : State} (v : State) (k : SlotId) (kind : OrderKind) (bs : List Byte) (code : AnswerCode)
  {body : List Byte}

theorem shownAs_wf (w : s.mem.wf = true) : (shownAs s v k kind bs).mem.wf = true :=
  Memory.writeBytes_wf (beginOrder_wf w k kind)

theorem shownAs_holds (free : s.intake.claim = none) : Holds k s (shownAs s v k kind bs) := by
  obtain ⟨flight, claim⟩ := claimStaging_holds free k kind
  exact ⟨flight, claim⟩

/-- The take and the bytes written change nothing beside the slot, the sweep position and those bytes. -/
theorem shownAs_sameBut (w : s.mem.wf = true) :
    Memory.SameBut (fun x => answerBytes k x ∨ bytesFrom stagingBase bs.length x) s.mem (shownAs s v k kind bs).mem :=
  ((claimedAs_sameBut w v k kind).mono fun _ => .inl).trans
    (Memory.SameBut.writeBytes (beginOrder_wf w k kind) fun _ lower upper => .inr ⟨lower, upper⟩)

theorem shownAs_readBytes (w : s.mem.wf = true) (room : stagingBase + bs.length ≤ Memory.size) :
    (shownAs s v k kind bs).mem.readBytes stagingBase bs.length = bs :=
  Memory.readBytes_writeBytes (beginOrder_wf w k kind) room

theorem shownAnswered_answered (w : s.mem.wf = true) (free : s.intake.claim = none) (fits : body.length ≤ 64) :
    Answered k code body s (shownAnswered s v k kind bs code body) :=
  answer_answered (shownAs_wf v k kind bs w) fits (shownAs_holds v k kind bs free)

/-- The answer releases the claim (R108). -/
theorem shownAnswered_claim (w : s.mem.wf = true) (free : s.intake.claim = none) (fits : body.length ≤ 64) :
    (shownAnswered s v k kind bs code body).intake.claim = none := by
  rw [(shownAnswered_answered v k kind bs code w free fits).intake, free]
  rfl

/-- The answer itself is written outside the staging area. -/
theorem shownAnswered_answer_sameBut (w : s.mem.wf = true) (fits : body.length ≤ 64) :
    Memory.SameBut (answerBytes k) (shownAs s v k kind bs).mem (shownAnswered s v k kind bs code body).mem :=
  answer_sameBut (shownAs_wf v k kind bs w) fits

theorem shownAnswered_readBytes (w : s.mem.wf = true) (room : stagingBase + bs.length ≤ Memory.size)
    (fits : body.length ≤ 64) :
    (shownAnswered s v k kind bs code body).mem.readBytes stagingBase bs.length = bs := by
  rw [(shownAnswered_answer_sameBut v k kind bs code w fits).readBytes fun _ lower _ =>
    Intake.not_answerBytes_staging k lower]
  exact shownAs_readBytes v k kind bs w room

theorem shownAnswered_sameBut (w : s.mem.wf = true) (fits : body.length ≤ 64) :
    Memory.SameBut (fun x => answerBytes k x ∨ bytesFrom stagingBase bs.length x) s.mem
      (shownAnswered s v k kind bs code body).mem :=
  (shownAs_sameBut v k kind bs w).trans
    ((shownAnswered_answer_sameBut v k kind bs code w fits).mono fun _ => .inl)

/-- Beside memory and intake the answered part is `v` with the ANSWER cause. -/
theorem shownAnswered_rest (s : State) (body : List Byte) :
    shownAnswered s v k kind bs code body =
      { v with
        mem := (shownAnswered s v k kind bs code body).mem
        intake := (shownAnswered s v k kind bs code body).intake
        regs := { v.regs with cause := v.regs.cause ||| causeAnswer } } :=
  answer_rest (shownAs s v k kind bs) k code body

end Shown

/-! The image (12.8). -/

theorem values_length (m : MetroSet) : m.values.length = 137 := by
  simp [MetroSet.values, paramIds, paramCount]

/-- 137 values and the epoch, of four bytes each. -/
theorem imageBytes_length (i : MetroImage) : i.bytes.length = 552 := by
  have four : ∀ v, (imageValue v).length = 4 := fun _ => rfl
  have epoch : (bytes32 i.epoch).length = 4 := rfl
  simp [MetroImage.bytes, List.length_flatMap, four, epoch, values_length]

/-! The order. -/

/-- The part to which a session order is handed: the idle count of an OPEN session is 0 (R177). -/
def handedTo (s : State) : State :=
  { s with session := { s.session with idle := if s.session.state = .opened then 0 else s.session.idle } }

theorem claimedAs_handedTo (s : State) (k : SlotId) (kind : OrderKind) :
    (claimedAs s s k kind).touchIdle = claimedAs s (handedTo s) k kind := by
  unfold handedTo
  split
  next opened => exact if_pos opened
  next other => exact if_neg other

/-- What READ_METROLOGY answers (12.6). -/
def metrologyBody (s : State) : List Byte :=
  bytes32 s.metro.epoch ++ bytes32 s.activeImage.crc ++ u16 (bit s.metro.standIn)

theorem metrologyBody_fits (s : State) : (metrologyBody s).length ≤ 64 :=
  Nat.le_of_ble_eq_true rfl

/-- The part when READ_METROLOGY has been answered. -/
def metrologyAnswered (s : State) (k : SlotId) : State :=
  shownAnswered s (handedTo s) k .readMetrology s.activeImage.bytes .done (metrologyBody s)

theorem exec_readMetrology {s : State} {k : SlotId} (p : s.Posted k .readMetrology) (free : s.intake.claim = none) :
    exec (.readMetrology k) s = .next (metrologyAnswered s k) := by
  have owned : (claimedAs s s k .readMetrology).readMetrologyOrder k =
      (shownAs s (handedTo s) k .readMetrology s.activeImage.bytes).answer k .done (metrologyBody s) := by
    rw [State.readMetrologyOrder, claimedAs_handedTo]
    rfl
  rw [metrologyAnswered, shownAnswered, ← owned]
  exact congrArg Host.Outcome.next (takePosted_claims p rfl rfl free State.readMetrologyOrder)

/-- Settles O42: the image is written under the claim, and the answer, which releases it, leaves the image alone. -/
theorem readMetrologyCopiesTheActiveSet : Obligations.ReadMetrologyCopiesTheActiveSet := by
  intro s k p free image
  have size : image.bytes.length = 552 := imageBytes_length image
  have room : stagingBase + image.bytes.length ≤ Memory.size := by
    rw [size]
    decide
  have fits := metrologyBody_fits s
  refine ⟨metrologyAnswered s k, exec_readMetrology p free,
    shownAnswered_answered _ k _ _ _ p.memory free fits, shownAnswered_claim _ k _ _ _ p.memory free fits, ?image,
    shownAnswered_rest (handedTo s) k .readMetrology image.bytes .done s (metrologyBody s), ?memory⟩
  case image =>
    rw [← size]
    exact shownAnswered_readBytes _ k _ _ _ p.memory room fits
  case memory =>
    rw [← size]
    exact shownAnswered_sameBut _ k _ _ _ p.memory fits

end Sys2Proof.MetrologyReads
end

section
/-! SUPPORT. The queue and every command: a step takes the front command, every command answers a next state that keeps
the queue and each invariant, and the part after reset has the invariants. -/

namespace Sys2Proof.Commands

open Sys2Proof Sys2Proof.Machine

/-! A step. -/

theorem step_cons (c : Instr) (rest : List Instr) (s : State) :
    step { s with pending := c :: rest } = exec c { s with pending := rest } := rfl

theorem step_nil {s : State} (h : s.pending = []) : step s = .next s := by
  simp only [step, h]

/-- Settles O1: the two cases of the queue. -/
theorem stepRunsTheFrontCommand : Obligations.StepRunsTheFrontCommand :=
  ⟨step_cons, fun _ => step_nil⟩

/-! The part after reset. -/

/-- A command taken in a part that has the invariants leaves one that has them. -/
theorem inv_of_taken {o s : State} (i : o.Inv) (h : Taken o s) : s.Inv :=
  h.keeps.inv i h.stops

/-- Settles O3: the part after reset is a new part at the end of its start-up, which keeps the invariants of a part
cleared. -/
theorem resetHasTheInvariant : Obligations.ResetHasTheInvariant := by
  have started : (StartUps.newPart.startPart .powerOn).Inv :=
    inv_of_taken (cleared_inv State.reset .off) (startPart_taken rfl .powerOn)
  rwa [StartUps.startPart_newPart] at started

/-! What the frames of the commands keep, whatever the state: also where a cadence event stands stopped at an event
that is not due. -/

theorem whenOn_keeps {o s : State} (h : Keeps o s) {f : State → State}
    (x : ∀ t, t.power = .on → t.unfinished = [] → Keeps t (f t)) : Keeps o (s.whenOn f) := by
  unfold State.whenOn
  split
  next on => exact (finish_keeps h).trans (x _ ((finish_power s).trans on) (finish_unfinished s))
  next => exact h

theorem operation_keeps {o s : State} (h : Keeps o s) {f : State → State} (x : ∀ t, Kept t (f t)) :
    Keeps o (s.whenOn f) :=
  whenOn_keeps h fun t _ _ => (x t).keeps

theorem stamped_keeps (s : State) (dt : W32) {f : State → State}
    (x : ∀ t, t.power = .on → t.unfinished = [] → Keeps t (f t)) : Keeps s (s.stamped dt f) :=
  whenOn_keeps (Kept.refl s).keeps fun t on whole =>
    have later := advance_kept (Kept.refl t) dt
    later.keeps.trans (x _ (later.power.trans on) (later.unfinished.trans whole))

theorem settled_keeps (s : State) : Keeps s s.settled := by
  unfold State.settled
  split
  next => exact finish_keeps (Kept.refl s).keeps
  next => exact (Kept.refl s).keeps

theorem onOwn_keeps (s : State) (e : Own) (rest : List Piece → List Piece) (apart : Bool) :
    Keeps s (s.onOwn e rest apart) := by
  have same := (Kept.refl s).keeps
  unfold State.onOwn
  split
  next ps _ =>
    split
    next =>
      have taken := takeOwn_kept (Kept.refl ({ s with unfinished := [] } : State)) e
      exact run_keeps apart ((keeps_unfinished same []).trans taken.keeps) (rest ps)
    next => exact same
  next => exact same

theorem takeStopped_keeps (s : State) (e : Own) : Keeps s (s.takeStopped e) := by
  unfold State.takeStopped
  split
  next => exact onOwn_keeps s e id true
  next => exact (Kept.refl s).keeps

theorem takeChange_keeps (s : State) (e : Own) (st : LinkState) (plan : Plan) :
    Keeps s (s.takeChange e st plan) := by
  unfold State.takeChange
  split
  next => exact onOwn_keeps s e _ plan.apart
  next => exact (Kept.refl s).keeps

/-- The reset input of a part without power, held in a reset, or running (assumption 7). -/
theorem resetPin_keeps (s : State) (hold : Bool) (left : Residue) : Keeps s (s.resetPin hold left) := by
  have same := (Kept.refl s).keeps
  have cut := (cutStore_kept (Kept.refl s) left).pending
  unfold State.resetPin
  split
  next => exact same
  next cause _ =>
    split
    next => exact same
    next => exact (startPart_taken rfl cause).keeps
  next =>
    dsimp only
    split
    next => exact (cleared_taken cut (.held .pin)).keeps
    next => exact (startPart_taken cut .pin).keeps

/-- RESTART is ignored while it reads 1 (R119). -/
theorem restart_kept (t : State) (finish : RowFinish) :
    Kept t (if t.regs.restart then t else t.restartEngine finish) := by
  split
  next => exact Kept.refl t
  next => exact restartEngine_kept (Kept.refl t) finish

/-! Every command. -/

/-- The command answers a next state, in which the queue and each invariant are kept. -/
def Answers (c : Instr) (s : State) : Prop :=
  ∃ t : State, exec c s = .next t ∧ Keeps s t

/-- A command that one operation of a running part gives its meaning. -/
theorem answers_of_kept {c : Instr} {s : State} {f : State → State} (e : exec c s = .next (s.whenOn f))
    (x : ∀ t, Kept t (f t)) : Answers c s :=
  ⟨_, e, operation_keeps (Kept.refl s).keeps x⟩

/-- A stamped command. -/
theorem answers_of_stamped {c : Instr} {s : State} {dt : W32} {f : State → State}
    (e : exec c s = .next (s.stamped dt f))
    (x : ∀ t, t.power = .on → t.unfinished = [] → Keeps t (f t)) : Answers c s :=
  ⟨_, e, stamped_keeps s dt x⟩

/-- The row of an event at which a cadence event can stop (assumption 4). -/
theorem answers_ownCommand (plan : Plan) (e : Own) (s : State) : Answers (ownCommand plan e) s := by
  by_cases warmUp : e = .warmUp
  · subst warmUp
    exact ⟨_, rfl, takeChange_keeps s .warmUp .live plan⟩
  · by_cases resumed : e = .resumed
    · subst resumed
      exact ⟨_, rfl, takeChange_keeps s .resumed .resumed plan⟩
    · exact ⟨_, exec_ownCommand plan s warmUp resumed, takeStopped_keeps s e⟩

/-- The take of an order (assumption 5). -/
theorem answers_orderCommand (k : SlotId) (kind : OrderKind) (s : State) : Answers (orderCommand k kind) s :=
  answers_of_kept (Intake.exec_orderCommand s k kind) fun t =>
    takePosted_kept (Kept.refl t) k kind fun _ h => ownerOf_kept h kind k

/-- A write of the exchange memory by the host. -/
theorem answers_hostWrite {c : Instr} {s : State} {a : WordAddr} {v : W16}
    (e : exec c s = .next (s.whenOn fun t => t.hostWrite a v)) : Answers c s :=
  answers_of_kept e fun t => hostWrite_kept (Kept.refl t) a v

/-- The clearing of an attention cause (R112). -/
theorem answers_clearCause {c : Instr} {s : State} {cause : W16}
    (e : exec c s = .next (s.whenOn fun t => t.clearCause cause)) : Answers c s :=
  answers_of_kept e fun t => clearCause_kept (Kept.refl t) cause

theorem answers_stripEdge (dt : W32) (line : Line) (pressed : Bool) (s : State) :
    Answers (.stripEdge dt line pressed) s := by
  have moved : Keeps s ((s.stamped dt fun t => t).setStrip line pressed) :=
    (stamped_keeps s dt fun t _ _ => (Kept.refl t).keeps).trans (kept_pins (Kept.refl _)).keeps
  exact ⟨_, rfl, operation_keeps moved fun t => stripChanged_kept (Kept.refl t) line pressed⟩

/-- A change of the seal loop, which the pin follows in any part (R162). -/
theorem answers_sealInput {c : Instr} {s : State} {level : SealLevel} {f : State → State}
    (e : exec c s = .next ((s.settled.setSealInput level).whenOn f)) (x : ∀ t, Kept t (f t)) : Answers c s :=
  ⟨_, e, operation_keeps ((settled_keeps s).trans (kept_pins (Kept.refl _)).keeps) x⟩

/-- The mask lets through the enables of the five causes alone (assumption 16). -/
theorem inFive_enableMask (v : W16) : InFive (v &&& enableMask) := by
  rw [BitVec.and_comm]
  exact inFive_and (by unfold InFive; decide)

theorem enableWrite_kept (t : State) (v : W16) :
    Kept t { t with regs := { t.regs with enable := v &&& enableMask } } :=
  kept_regs (Kept.refl t) fun five => ⟨five.1, inFive_enableMask v⟩

/-- RUN is ignored while RESTART reads 1 (R111). -/
theorem runWrite_kept (t : State) (v : Bool) :
    Kept t (if t.regs.restart then t else { t with regs := { t.regs with run := v } }) := by
  split
  next => exact Kept.refl t
  next => exact kept_regs (Kept.refl t) id

/-- Every command answers a next state in every state, and keeps the queue and each invariant. -/
theorem exec_answers (c : Instr) (s : State) : Answers c s := by
  cases c with
  | powerOn hold left => exact ⟨_, rfl, (settled_keeps s).trans (applyPower_taken rfl hold left).keeps⟩
  | pinReset hold left => exact ⟨_, rfl, (settled_keeps s).trans (resetPin_keeps s.settled hold left)⟩
  | restart finish => exact answers_of_kept rfl fun t => restart_kept t finish
  | powerLoss left => exact ⟨_, rfl, (settled_keeps s).trans (losePower_taken rfl left).keeps⟩
  | frameReceived dt bytes plan =>
    exact answers_of_stamped rfl fun t on whole => (receiveFrame_taken (Kept.refl t).keeps on whole bytes plan).keeps
  | frameAbandoned dt bytes => exact answers_of_stamped rfl fun t _ _ => (Kept.refl t).keeps
  | tickTimerEvent dt plan =>
    exact answers_of_stamped rfl fun t on whole => (tick_taken (Kept.refl t).keeps on whole plan).keeps
  | frameTimerExpiry dt plan =>
    exact answers_of_stamped rfl fun t on whole => (frameTimerExpires_taken (Kept.refl t).keeps on whole plan).keeps
  | debounceHoldEnd dt line => exact answers_of_stamped rfl fun t _ _ => (holdEnds_kept (Kept.refl t) line).keeps
  | stripEdge dt line pressed => exact answers_stripEdge dt line pressed s
  | sealChange level => exact answers_sealInput rfl fun t => changeSeal_kept (Kept.refl t) level
  | sealInitial level => exact answers_sealInput rfl fun t => initialSeal_kept (Kept.refl t) level
  | channelRestart => exact answers_of_kept rfl fun t => sendRestart_kept (Kept.refl t)
  | backChannelSendEnd => exact answers_of_kept rfl fun t => endSend_kept (Kept.refl t)
  | storeJobEnter => exact answers_of_kept rfl fun t => enterOne_kept (Kept.refl t)
  | storeRowWritten matched left => exact answers_of_kept rfl fun t => rowWritten_kept (Kept.refl t) matched left
  | slotPosted slot => exact answers_hostWrite rfl
  | slotWithdraw slot => exact answers_hostWrite rfl
  | slotEmptied slot => exact answers_hostWrite rfl
  | pageReturn page => exact answers_hostWrite rfl
  | hostMemoryWrite addr value => exact answers_hostWrite rfl
  | clearAnswer => exact answers_clearCause rfl
  | clearCondition => exact answers_clearCause rfl
  | clearStore => exact answers_clearCause rfl
  | clearJournal =>
    exact answers_of_kept rfl fun t => kept_journal (clearCause_kept (Kept.refl t) causeJournal) id id
  | clearProtocol =>
    refine answers_of_kept rfl fun t => writeWord_kept ?_ hdrRefused 0xFFFF
    exact kept_regs (clearCause_kept (Kept.refl t) causeProtocol) id
  | attnEnableWrite value => exact answers_of_kept rfl fun t => enableWrite_kept t value
  | run value => exact answers_of_kept rfl fun t => runWrite_kept t value
  | registerWrite high value => exact ⟨_, rfl, settled_keeps s⟩
  | linkNoStart => exact answers_ownCommand plainPlan .noStart s
  | warmUpComplete plan => exact answers_ownCommand plan .warmUp s
  | linkResumed plan => exact answers_ownCommand plan .resumed s
  | cellFault cell => exact answers_ownCommand plainPlan (.cellFault cell) s
  | cellRecovered cell => exact answers_ownCommand plainPlan (.cellRecovered cell) s
  | restartDue cell => exact answers_ownCommand plainPlan (.restartDue cell) s
  | filterFilled deck => exact answers_ownCommand plainPlan (.filterFilled deck) s
  | zeroWatchExpired deck => exact answers_ownCommand plainPlan (.watchExpired deck) s
  | trackingExamination => exact answers_ownCommand plainPlan .tracking s
  | settleWindowEnd => exact answers_ownCommand plainPlan .windowEnd s
  | crossingAbandoned bridgeEnd => exact answers_ownCommand plainPlan (.crossing bridgeEnd) s
  | stripStuck line => exact answers_ownCommand plainPlan (.stuck line) s
  | closingTimeout => exact answers_ownCommand plainPlan .closing s
  | hornToggle => exact answers_ownCommand plainPlan .toggle s
  | burstEnd => exact answers_ownCommand plainPlan .burstEnd s
  | engineTimeAdvance => exact answers_ownCommand plainPlan .time s
  | captureDeadline => exact answers_ownCommand plainPlan .deadline s
  | sessionInstall => exact answers_ownCommand plainPlan .install s
  | sessionExpired => exact answers_ownCommand plainPlan .expire s
  | publishDelay => exact answers_ownCommand plainPlan .publishDelay s
  | clearLink slot => exact answers_orderCommand slot .clearLink s
  | clearCell slot => exact answers_orderCommand slot .clearCell s
  | zero slot => exact answers_orderCommand slot .zero s
  | armClass slot => exact answers_orderCommand slot .armClass s
  | loadClasses slot => exact answers_orderCommand slot .loadClasses s
  | setSignals slot => exact answers_orderCommand slot .setSignals s
  | setSite slot => exact answers_orderCommand slot .setSite s
  | readSite slot => exact answers_orderCommand slot .readSite s
  | setClock slot => exact answers_orderCommand slot .setClock s
  | firstWeigh slot => exact answers_orderCommand slot .firstWeigh s
  | secondWeigh slot => exact answers_orderCommand slot .secondWeigh s
  | voidVisit slot => exact answers_orderCommand slot .voidVisit s
  | findVisit slot => exact answers_orderCommand slot .findVisit s
  | recallTicket slot => exact answers_orderCommand slot .recallTicket s
  | publishNow slot => exact answers_orderCommand slot .publishNow s
  | openSession slot => exact answers_orderCommand slot .openSession s
  | stageParams slot => exact answers_orderCommand slot .stageParams s
  | zeroCal slot => exact answers_orderCommand slot .zeroCal s
  | spanCal slot => exact answers_orderCommand slot .spanCal s
  | cornerRead slot => exact answers_orderCommand slot .cornerRead s
  | testLoad slot => exact answers_orderCommand slot .testLoad s
  | commitSession slot => exact answers_orderCommand slot .commitSession s
  | abortSession slot => exact answers_orderCommand slot .abortSession s
  | readMetrology slot => exact answers_orderCommand slot .readMetrology s
  | readAudit slot => exact answers_orderCommand slot .readAudit s

/-- Settles O2: what a command keeps of every state holds the queue. -/
theorem everyCommandAnswersANextState : Obligations.EveryCommandAnswersANextState := by
  intro c s
  obtain ⟨t, answered, kept⟩ := exec_answers c s
  exact ⟨t, answered, kept.pending⟩

end Sys2Proof.Commands
end

section
/-! SUPPORT. The quotient rounded half away from zero (conventions, "Rounding"): its distance from the exact one, by the
sign of the dividend. -/

namespace Sys2Proof.Rounding

open Sys2Proof Sys2Proof.Machine

/-- The quotient of a number below 0 mirrors the one above it. -/
theorem roundDiv_of_neg {a : Int} (h : a < 0) (b : Int) : roundDiv a b = -roundDiv (-a) b := by
  unfold roundDiv
  rw [if_neg (by omega), if_pos (by omega)]

/-- Above 0 the multiple of the divisor is less than half of it below, and at most half of it above. -/
theorem roundDiv_mul_bounds {a b : Int} (h : 0 ≤ a) (pos : 0 < b) :
    2 * a - b < 2 * (roundDiv a b * b) ∧ 2 * (roundDiv a b * b) ≤ 2 * a + b := by
  have twice : (2 * a + b) / (2 * b) * (2 * b) = 2 * ((2 * a + b) / (2 * b) * b) := by ring
  have above := Int.ediv_mul_le (2 * a + b) (show 2 * b ≠ 0 by omega)
  have below := Int.lt_ediv_add_one_mul_self (2 * a + b) (show 0 < 2 * b by omega)
  rw [Int.add_mul, twice] at below
  rw [twice] at above
  rw [roundDiv, if_pos h]
  omega

/-- Settles O19: above 0 by the bounds, and below 0 by the mirror image. -/
theorem quotientsRoundHalfAwayFromZero : Obligations.QuotientsRoundHalfAwayFromZero := by
  intro a b pos
  by_cases h : 0 ≤ a
  case pos =>
    have bounds := roundDiv_mul_bounds h pos
    omega
  case neg =>
    have bounds := roundDiv_mul_bounds (show 0 ≤ -a by omega) pos
    rw [roundDiv_of_neg (by omega), Int.neg_mul]
    omega

end Sys2Proof.Rounding
end

section
/-! SUPPORT. The invariants of the part at every moment: where a cadence event that has stopped stands at an event that
is due, every command leaves such a state again, beside what `Commands.exec_answers` says of every state. -/

namespace Sys2Proof.Steps

open Sys2Proof Sys2Proof.Machine

/-! Whether an event is due does not hang on the pins or on the commands that wait. -/

theorem ownDue_pins (s : State) (p : Pins) (e : Own) : ({ s with pins := p } : State).ownDue e = s.ownDue e := by
  cases e <;> rfl

theorem ownDue_pending (s : State) (cs : List Instr) (e : Own) :
    ({ s with pending := cs } : State).ownDue e = s.ownDue e := by
  cases e <;> rfl

theorem stopsAtDue_pins {s : State} (z : s.stopsAtDue) (p : Pins) : ({ s with pins := p } : State).stopsAtDue := by
  intro q qs stopped
  obtain ⟨on, e, first, due⟩ := z q qs stopped
  exact ⟨on, e, first, (ownDue_pins s p e).trans due⟩

theorem inv_pending {s : State} (i : s.Inv) (cs : List Instr) : ({ s with pending := cs } : State).Inv := by
  refine ⟨i.memory, i.red, i.exclusive, ⟨i.bounded.edges, i.bounded.outbox, i.bounded.entries, i.bounded.rows⟩, i.bits,
    i.steady, ?_⟩
  intro q qs stopped
  obtain ⟨on, e, first, due⟩ := i.stops q qs stopped
  exact ⟨on, e, first, (ownDue_pending s cs e).trans due⟩

/-- A change of the pins leaves a command as well taken as it was. -/
theorem taken_pins {o s : State} (h : Taken o s) (p : Pins) : Taken o { s with pins := p } :=
  ⟨h.keeps.trans (kept_pins (Kept.refl s)).keeps, stopsAtDue_pins h.stops p⟩

/-! Every command. -/

/-- The command answers a next state, in which the queue, each invariant and the stop at a due event are kept. -/
def Settles (c : Instr) (s : State) : Prop :=
  ∃ t : State, exec c s = .next t ∧ Taken s t

/-- A command that changes a pin in any part, and then is one operation of a part that runs. -/
theorem settles_of_pins {c : Instr} {s u : State} {p : Pins} {f : State → State} (h : Taken s u)
    (e : exec c s = .next (({ u with pins := p } : State).whenOn f)) (x : ∀ t, Kept t (f t)) : Settles c s := by
  obtain ⟨keeps, stops⟩ := taken_pins h p
  exact ⟨_, e, whenOn_of_kept keeps stops x⟩

section Commands

variable {c : Instr} {s : State} (z : s.stopsAtDue)

include z

/-- A command that one operation of a running part gives its meaning. -/
theorem settles_of_kept {f : State → State} (e : exec c s = .next (s.whenOn f)) (x : ∀ t, Kept t (f t)) : Settles c s :=
  ⟨_, e, whenOn_of_kept (Kept.refl s).keeps z x⟩

/-- A stamped command. -/
theorem settles_of_stamped {dt : W32} {f : State → State} (e : exec c s = .next (s.stamped dt f))
    (x : ∀ t, t.power = .on → t.unfinished = [] → Taken t (f t)) : Settles c s :=
  ⟨_, e, stamped_taken (Kept.refl s).keeps z dt fun t on whole k =>
    have taken := x t on whole
    ⟨k.trans taken.keeps, taken.stops⟩⟩

/-- The row of an event at which a cadence event can stop (assumption 4). -/
theorem settles_ownCommand (plan : Plan) (e : Own) : Settles (ownCommand plan e) s := by
  have same := (Kept.refl s).keeps
  by_cases warmUp : e = .warmUp
  · subst warmUp
    exact ⟨_, rfl, takeChange_taken same z .warmUp .live plan⟩
  · by_cases resumed : e = .resumed
    · subst resumed
      exact ⟨_, rfl, takeChange_taken same z .resumed .resumed plan⟩
    · exact ⟨_, exec_ownCommand plan s warmUp resumed, takeStopped_taken same z e⟩

/-- The take of an order (assumption 5). -/
theorem settles_orderCommand (k : SlotId) (kind : OrderKind) : Settles (orderCommand k kind) s :=
  settles_of_kept z (Intake.exec_orderCommand s k kind) fun t =>
    takePosted_kept (Kept.refl t) k kind fun _ h => ownerOf_kept h kind k

/-- A write of the exchange memory by the host. -/
theorem settles_hostWrite {a : WordAddr} {v : W16} (e : exec c s = .next (s.whenOn fun t => t.hostWrite a v)) :
    Settles c s :=
  settles_of_kept z e fun t => hostWrite_kept (Kept.refl t) a v

/-- The clearing of an attention cause (R112). -/
theorem settles_clearCause {cause : W16} (e : exec c s = .next (s.whenOn fun t => t.clearCause cause)) : Settles c s :=
  settles_of_kept z e fun t => clearCause_kept (Kept.refl t) cause

/-- Every command, given to a part whose cadence event has stopped, if at all, at an event that is due. -/
theorem exec_settles (c : Instr) : Settles c s := by
  have same := (Kept.refl s).keeps
  have settled := settled_taken same z
  cases c with
  | powerOn hold left =>
    exact ⟨_, rfl, applyPower_taken settled.keeps.pending hold left⟩
  | pinReset hold left => exact ⟨_, rfl, resetPin_taken settled.keeps settled.stops hold left⟩
  | powerLoss left => exact ⟨_, rfl, losePower_taken settled.keeps.pending left⟩
  | restart finish => exact settles_of_kept z rfl fun t => Commands.restart_kept t finish
  | registerWrite high value => exact ⟨_, rfl, settled⟩
  | frameReceived dt bytes plan =>
    exact settles_of_stamped z rfl fun t on whole => receiveFrame_taken (Kept.refl t).keeps on whole bytes plan
  | frameAbandoned dt bytes =>
    exact settles_of_stamped z rfl fun t _ whole => ⟨(Kept.refl t).keeps, stops_nil whole⟩
  | tickTimerEvent dt plan =>
    exact settles_of_stamped z rfl fun t on whole => tick_taken (Kept.refl t).keeps on whole plan
  | frameTimerExpiry dt plan =>
    exact settles_of_stamped z rfl fun t on whole => frameTimerExpires_taken (Kept.refl t).keeps on whole plan
  | debounceHoldEnd dt line =>
    exact settles_of_stamped z rfl fun t _ whole =>
      Kept.taken (Kept.refl t).keeps whole (holdEnds_kept (Kept.refl t) line)
  | stripEdge dt line pressed =>
    have moved : Taken s (s.stamped dt fun t => t) := stamped_taken same z dt fun t _ whole k => ⟨k, stops_nil whole⟩
    exact settles_of_pins moved rfl fun t => stripChanged_kept (Kept.refl t) line pressed
  | sealChange level => exact settles_of_pins settled rfl fun t => changeSeal_kept (Kept.refl t) level
  | sealInitial level => exact settles_of_pins settled rfl fun t => initialSeal_kept (Kept.refl t) level
  | channelRestart => exact settles_of_kept z rfl fun t => sendRestart_kept (Kept.refl t)
  | backChannelSendEnd => exact settles_of_kept z rfl fun t => endSend_kept (Kept.refl t)
  | storeJobEnter => exact settles_of_kept z rfl fun t => enterOne_kept (Kept.refl t)
  | storeRowWritten matched left => exact settles_of_kept z rfl fun t => rowWritten_kept (Kept.refl t) matched left
  | slotPosted slot => exact settles_hostWrite z rfl
  | slotWithdraw slot => exact settles_hostWrite z rfl
  | slotEmptied slot => exact settles_hostWrite z rfl
  | pageReturn page => exact settles_hostWrite z rfl
  | hostMemoryWrite addr value => exact settles_hostWrite z rfl
  | clearAnswer => exact settles_clearCause z rfl
  | clearCondition => exact settles_clearCause z rfl
  | clearStore => exact settles_clearCause z rfl
  | clearJournal =>
    exact settles_of_kept z rfl fun t => kept_journal (clearCause_kept (Kept.refl t) causeJournal) id id
  | clearProtocol =>
    refine settles_of_kept z rfl fun t => writeWord_kept ?_ hdrRefused 0xFFFF
    exact kept_regs (clearCause_kept (Kept.refl t) causeProtocol) id
  | attnEnableWrite value => exact settles_of_kept z rfl fun t => Commands.enableWrite_kept t value
  | run value => exact settles_of_kept z rfl fun t => Commands.runWrite_kept t value
  | linkNoStart => exact settles_ownCommand z plainPlan .noStart
  | warmUpComplete plan => exact settles_ownCommand z plan .warmUp
  | linkResumed plan => exact settles_ownCommand z plan .resumed
  | cellFault cell => exact settles_ownCommand z plainPlan (.cellFault cell)
  | cellRecovered cell => exact settles_ownCommand z plainPlan (.cellRecovered cell)
  | restartDue cell => exact settles_ownCommand z plainPlan (.restartDue cell)
  | filterFilled deck => exact settles_ownCommand z plainPlan (.filterFilled deck)
  | zeroWatchExpired deck => exact settles_ownCommand z plainPlan (.watchExpired deck)
  | trackingExamination => exact settles_ownCommand z plainPlan .tracking
  | settleWindowEnd => exact settles_ownCommand z plainPlan .windowEnd
  | crossingAbandoned bridgeEnd => exact settles_ownCommand z plainPlan (.crossing bridgeEnd)
  | stripStuck line => exact settles_ownCommand z plainPlan (.stuck line)
  | closingTimeout => exact settles_ownCommand z plainPlan .closing
  | hornToggle => exact settles_ownCommand z plainPlan .toggle
  | burstEnd => exact settles_ownCommand z plainPlan .burstEnd
  | engineTimeAdvance => exact settles_ownCommand z plainPlan .time
  | captureDeadline => exact settles_ownCommand z plainPlan .deadline
  | sessionInstall => exact settles_ownCommand z plainPlan .install
  | sessionExpired => exact settles_ownCommand z plainPlan .expire
  | publishDelay => exact settles_ownCommand z plainPlan .publishDelay
  | clearLink slot => exact settles_orderCommand z slot .clearLink
  | clearCell slot => exact settles_orderCommand z slot .clearCell
  | zero slot => exact settles_orderCommand z slot .zero
  | armClass slot => exact settles_orderCommand z slot .armClass
  | loadClasses slot => exact settles_orderCommand z slot .loadClasses
  | setSignals slot => exact settles_orderCommand z slot .setSignals
  | setSite slot => exact settles_orderCommand z slot .setSite
  | readSite slot => exact settles_orderCommand z slot .readSite
  | setClock slot => exact settles_orderCommand z slot .setClock
  | firstWeigh slot => exact settles_orderCommand z slot .firstWeigh
  | secondWeigh slot => exact settles_orderCommand z slot .secondWeigh
  | voidVisit slot => exact settles_orderCommand z slot .voidVisit
  | findVisit slot => exact settles_orderCommand z slot .findVisit
  | recallTicket slot => exact settles_orderCommand z slot .recallTicket
  | publishNow slot => exact settles_orderCommand z slot .publishNow
  | openSession slot => exact settles_orderCommand z slot .openSession
  | stageParams slot => exact settles_orderCommand z slot .stageParams
  | zeroCal slot => exact settles_orderCommand z slot .zeroCal
  | spanCal slot => exact settles_orderCommand z slot .spanCal
  | cornerRead slot => exact settles_orderCommand z slot .cornerRead
  | testLoad slot => exact settles_orderCommand z slot .testLoad
  | commitSession slot => exact settles_orderCommand z slot .commitSession
  | abortSession slot => exact settles_orderCommand z slot .abortSession
  | readMetrology slot => exact settles_orderCommand z slot .readMetrology
  | readAudit slot => exact settles_orderCommand z slot .readAudit

end Commands

/-- Settles O4: the command at the front of the queue finds the invariants, and leaves a state that has them. -/
theorem stepKeepsTheInvariant : Obligations.StepKeepsTheInvariant := by
  intro s t i stepped
  unfold step at stepped
  split at stepped
  next => cases stepped; exact i
  next c rest _ =>
    have found := inv_pending i rest
    obtain ⟨u, answered, taken⟩ := exec_settles found.stops c
    rw [answered] at stepped
    cases stepped
    exact Commands.inv_of_taken found taken

end Sys2Proof.Steps
end

section
/-! SUPPORT. A part without power or held in a reset (assumption 7): what is left of the commands' shared frames. -/

namespace Sys2Proof.Dark

open Sys2Proof Sys2Proof.Machine

theorem whenOn_dark {s : State} (dark : s.power ≠ .on) (f : State → State) : s.whenOn f = s :=
  if_neg dark

theorem settled_dark {s : State} (dark : s.power ≠ .on) : s.settled = s :=
  if_neg dark

/-- A strip's input is all that its change reaches (R61). -/
theorem exec_stripEdge_dark {s : State} (dark : s.power ≠ .on) (dt : W32) (l : Line) (pressed : Bool) :
    exec (.stripEdge dt l pressed) s
      = .next { s with pins := { s.pins with strips := s.pins.strips.set l pressed } } := by
  have still : s.stamped dt (fun t => t) = s := whenOn_dark dark _
  have moved : (s.setStrip l pressed).whenOn (fun t => t.stripChanged l pressed) = s.setStrip l pressed :=
    whenOn_dark (s := s.setStrip l pressed) dark _
  show Host.Outcome.next (((s.stamped dt fun t => t).setStrip l pressed).whenOn fun t => t.stripChanged l pressed) = _
  rw [still, moved]
  rfl

/-- The seal input is all that a change of the seal loop reaches (R162). -/
theorem sealInput_dark {s : State} (dark : s.power ≠ .on) (level : SealLevel) (f : State → State) :
    (s.settled.setSealInput level).whenOn f = { s with pins := { s.pins with sealInput := level } } := by
  rw [settled_dark dark]
  exact whenOn_dark (s := s.setSealInput level) dark f

/-- Settles O5: every command but the power events and the changes of the pins is given to a part that runs only. -/
theorem unpoweredPartTakesNoCommand : Obligations.UnpoweredPartTakesNoCommand := by
  intro c s dark
  cases c with
  | powerOn | pinReset | powerLoss => trivial
  | stripEdge dt l pressed => exact exec_stripEdge_dark dark dt l pressed
  | sealChange level => exact congrArg Host.Outcome.next (sealInput_dark dark level _)
  | sealInitial level => exact congrArg Host.Outcome.next (sealInput_dark dark level _)
  | _ => exact congrArg Host.Outcome.next (if_neg dark)

end Sys2Proof.Dark
end

section
/-! SUPPORT. The passing of time while no debounce hold runs, and the states of the converter link: the tick timer, the
frame timer, frames, and the link's changes of state (sections 1.1 and 1.2). -/

namespace Sys2Proof.Links

open Sys2Proof Sys2Proof.Machine Sys2Proof.Weighing

/-! Time (assumption 6). -/

theorem holdOverdue_of_idle {s : State} {l : Line} (idle : (s.tracker.lines.get l).hold = none) :
    s.holdOverdue l = none := by
  rw [State.holdOverdue, idle]

theorem firstOverdue_of_none {s : State} (h : ∀ l, s.holdOverdue l = none) : s.firstOverdue = none := by
  simp only [State.firstOverdue, allLines, List.foldl_cons, List.foldl_nil, h]

theorem catchUpHolds_of_none {s : State} (h : s.firstOverdue = none) (n : Nat) : s.catchUpHolds n = s := by
  cases n with
  | zero => rfl
  | succ n => rw [State.catchUpHolds, h]

/-- While no hold runs, only the clock moves. -/
theorem advance_of_noHolds {s : State} (none : s.noHolds) (dt : W32) : s.advance dt = s.later dt := by
  have idle : ∀ l, (s.later dt).holdOverdue l = Option.none := fun l => holdOverdue_of_idle (none l)
  exact catchUpHolds_of_none (firstOverdue_of_none idle) 8

/-- A stamped command in a part that is ready, while no hold runs. -/
theorem stamped_of_ready {s : State} (r : s.Ready) (none : s.noHolds) (dt : W32) (f : State → State) :
    s.stamped dt f = f (s.later dt) := by
  rw [State.stamped, whenOn_of_ready r, advance_of_noHolds none]

/-! The two timers (R3, R4). -/

theorem tick_of_due {s : State} (waits : s.link.state = .waiting ∨ s.link.state = .lost)
    (expired : 50 ≤ ticksFrom s.link.tickBase s.clock) (plan : Plan) :
    s.tick plan = ({ s with link := { s.link with tickBase := s.clock } } : State).cadenceEvent false [.own .noStart] plan :=
  if_pos ⟨waits, expired⟩

theorem tick_of_undue {s : State}
    (h : ¬(s.link.state = .waiting ∨ s.link.state = .lost) ∨ ticksFrom s.link.tickBase s.clock < 50) (plan : Plan) :
    s.tick plan = s :=
  if_neg fun due => h.elim (fun other => other due.1) fun early => absurd due.2 (by omega)

/-- Settles O12: the tick timer at the moment some ticks later. -/
theorem tickTimerGivesCadenceEvents : Obligations.TickTimerGivesCadenceEvents := by
  intro s dt plan r none
  have timed : exec (.tickTimerEvent dt plan) s = .next ((s.later dt).tick plan) :=
    congrArg Host.Outcome.next (stamped_of_ready r none dt _)
  rw [timed]
  exact ⟨fun waits expired => congrArg Host.Outcome.next (tick_of_due (s := s.later dt) waits expired plan),
    fun undue => congrArg Host.Outcome.next (tick_of_undue (s := s.later dt) undue plan)⟩

/-- The state after the frame timer has run out (R4). -/
def timerStopped (s : State) : State :=
  { s with link := { s.link with runCount := 0, timer := false } }

theorem expireTimer_of_lost {s : State} (lost : s.link.state = .lost) (plan : Plan) :
    s.expireTimer plan = timerStopped s :=
  if_pos lost

theorem expireTimer_of_other {s : State} (other : s.link.state ≠ .lost) (plan : Plan) :
    s.expireTimer plan =
      ({ timerStopped s with link := { (timerStopped s).link with tickBase := s.clock } } : State).cadenceEvent false
        [.enter .lost] plan :=
  if_neg other

theorem exec_frameTimerExpiry {s : State} (r : s.Ready) (none : s.noHolds) (dt : W32) (plan : Plan) :
    exec (.frameTimerExpiry dt plan) s = .next ((s.later dt).frameTimerExpires plan) :=
  congrArg Host.Outcome.next (stamped_of_ready r none dt _)

theorem frameTimerExpires_of_over {s : State} (expired : s.timerOver 150 = true) (plan : Plan) :
    s.frameTimerExpires plan = s.expireTimer plan :=
  if_pos expired

/-- Settles O13: the frame timer at the moment some ticks later. -/
theorem frameTimerExpiryLosesTheLink : Obligations.FrameTimerExpiryLosesTheLink := by
  intro s dt plan r none
  rw [exec_frameTimerExpiry r none]
  refine ⟨fun running => ?running, fun expired lost => ?lost, fun expired other => ?other⟩
  case running =>
    rw [State.frameTimerExpires, if_neg (Bool.eq_false_iff.mp running)]
  case lost =>
    rw [frameTimerExpires_of_over expired, expireTimer_of_lost (s := s.later dt) lost]
    rfl
  case other =>
    rw [frameTimerExpires_of_over expired, expireTimer_of_other (s := s.later dt) other]
    rfl

/-! Frames (R1, R2). -/

theorem exec_frameReceived {s : State} (r : s.Ready) (none : s.noHolds) (dt : W32) (bytes : List Byte) (plan : Plan) :
    exec (.frameReceived dt bytes plan) s = .next ((s.later dt).receiveFrame bytes plan) :=
  congrArg Host.Outcome.next (stamped_of_ready r none dt _)

theorem receiveFrame_of_bad {s : State} {bytes : List Byte}
    (bad : (isFrame bytes && frameCrcOk bytes && s.spacedOk) = false) (plan : Plan) : s.receiveFrame bytes plan = s :=
  if_neg (Bool.eq_false_iff.mp bad)

/-- The frame passes its three checks (R1, R2). -/
structure Acceptable (s : State) (bytes : List Byte) : Prop where
  whole : isFrame bytes = true
  crc : frameCrcOk bytes = true
  spaced : s.spacedOk = true

theorem receiveFrame_of_acceptable {s : State} {bytes : List Byte} (h : Acceptable s bytes) (plan : Plan) :
    s.receiveFrame bytes plan =
      ((if s.timerOver 151 then s.expireTimer plainPlan else s).acceptFrame (parseFrame bytes)).useFrame plan := by
  have passes : (isFrame bytes && frameCrcOk bytes && s.spacedOk) = true := by
    rw [h.whole, h.crc, h.spaced]
    rfl
  exact if_pos passes

theorem receiveFrame_in_time {s : State} {bytes : List Byte} (h : Acceptable s bytes) (running : s.timerOver 151 = false)
    (plan : Plan) : s.receiveFrame bytes plan = (s.acceptFrame (parseFrame bytes)).useFrame plan := by
  rw [receiveFrame_of_acceptable h, if_neg (Bool.eq_false_iff.mp running)]

theorem receiveFrame_late {s : State} {bytes : List Byte} (h : Acceptable s bytes) (expired : s.timerOver 151 = true)
    (plan : Plan) :
    s.receiveFrame bytes plan = ((s.expireTimer plainPlan).acceptFrame (parseFrame bytes)).useFrame plan := by
  rw [receiveFrame_of_acceptable h, if_pos expired]

theorem timerOver_mono {s : State} {m n : Nat} (le : n ≤ m) (h : s.timerOver m = true) : s.timerOver n = true := by
  unfold State.timerOver at h ⊢
  split
  next t arrival =>
    simp only [arrival, Bool.and_eq_true, decide_eq_true_eq] at h ⊢
    exact ⟨h.1, le.trans h.2⟩
  next none => simp [none] at h

/-! What an accepted frame does (R5, R6, R8, R9). -/

theorem useFrame_of_running {s : State} (h : s.link.state = .live ∨ s.link.state = .resumed) (plan : Plan) :
    s.useFrame plan = s.cadenceEvent true [] plan := by
  obtain live | resumed := h
  · rw [State.useFrame, live]
  · rw [State.useFrame, resumed]

theorem warmUpDue_iff {s : State} : s.warmUpDue = true ↔ s.link.state = .waiting ∧ 400 ≤ s.link.runCount := by
  simp only [State.warmUpDue, Bool.and_eq_true, beq_iff_eq, decide_eq_true_eq]

theorem resumeDue_iff {s : State} : s.resumeDue = true ↔ s.link.state = .lost ∧ 200 ≤ s.link.runCount := by
  simp only [State.resumeDue, Bool.and_eq_true, beq_iff_eq, decide_eq_true_eq]

theorem useFrame_waiting {s : State} (waiting : s.link.state = .waiting) (short : s.link.runCount < 400) (plan : Plan) :
    s.useFrame plan = s := by
  have undue : ¬s.warmUpDue = true := fun due => absurd (warmUpDue_iff.mp due).2 (by omega)
  rw [State.useFrame, waiting]
  exact if_neg undue

theorem useFrame_lost {s : State} (lost : s.link.state = .lost) (short : s.link.runCount < 200) (plan : Plan) :
    s.useFrame plan = s := by
  have undue : ¬s.resumeDue = true := fun due => absurd (resumeDue_iff.mp due).2 (by omega)
  rw [State.useFrame, lost]
  exact if_neg undue

/-- The cadence event with which the link changes: the plan stops it before that change, or takes it whole. -/
theorem run_own_first {s : State} {e : Own} (due : s.ownDue e = true) (count : s.takeOwn e = s.countCadence) (plan : Plan)
    (change : List Piece) :
    s.run plan.apart (.own e :: eventPieces true change plan) =
      if plan.apart then { s with unfinished := .own e :: eventPieces true change plan }
      else s.cadenceEvent true change plan := by
  unfold State.cadenceEvent
  cases plan.apart with
  | true => rw [run_stop due, if_pos rfl]
  | false => rw [run_take due, count, if_neg Bool.false_ne_true]

theorem useFrame_completes_warmUp {s : State} (waiting : s.link.state = .waiting) (full : 400 ≤ s.link.runCount)
    (plan : Plan) :
    s.useFrame plan =
      if plan.apart then { s with unfinished := .own .warmUp :: eventPieces true [.enter .live] plan }
      else s.cadenceEvent true [.enter .live] plan := by
  have due : s.warmUpDue = true := warmUpDue_iff.mpr ⟨waiting, full⟩
  have runs : s.useFrame plan = s.run plan.apart (.own .warmUp :: eventPieces true [.enter .live] plan) := by
    rw [State.useFrame, waiting]
    exact if_pos due
  rw [runs, run_own_first (e := .warmUp) due rfl]

theorem useFrame_completes_resumption {s : State} (lost : s.link.state = .lost) (full : 200 ≤ s.link.runCount)
    (plan : Plan) :
    s.useFrame plan =
      if plan.apart then { s with unfinished := .own .resumed :: eventPieces true [.enter .resumed] plan }
      else s.cadenceEvent true [.enter .resumed] plan := by
  have due : s.resumeDue = true := resumeDue_iff.mpr ⟨lost, full⟩
  have runs : s.useFrame plan = s.run plan.apart (.own .resumed :: eventPieces true [.enter .resumed] plan) := by
    rw [State.useFrame, lost]
    exact if_pos due
  rw [runs, run_own_first (e := .resumed) due rfl]

/-- A frame with which a new run begins, in LOST. -/
theorem acceptFrame_begins_run {s : State} (f : Frame) (plan : Plan) (lost : s.link.state = .lost)
    (stopped : s.link.timer = false) :
    (s.acceptFrame f).useFrame plan =
      { s with
        link := { s.link with runCount := 1, timer := true, lastArrival := some s.clock, lastFrame := some f } } := by
  have accepted : s.acceptFrame f =
      { s with
        link := { s.link with runCount := 1, timer := true, lastArrival := some s.clock, lastFrame := some f } } := by
    simp only [State.acceptFrame, stopped, Bool.false_eq_true, if_false]
  rw [accepted]
  exact useFrame_lost (s := { s with link := { s.link with
    runCount := 1, timer := true, lastArrival := some s.clock, lastFrame := some f } }) lost (show 1 < 200 by decide) plan

/-- A frame that comes after its timer has run out (assumption 6). -/
theorem exec_lateFrame {s : State} {dt : W32} {bytes : List Byte} (r : s.Ready) (none : s.noHolds) (plan : Plan)
    (h : Acceptable (s.later dt) bytes) (expired : (s.later dt).timerOver 151 = true) :
    exec (.frameReceived dt bytes plan) s =
      .next ((((s.later dt).expireTimer plainPlan).acceptFrame (parseFrame bytes)).useFrame plan) := by
  rw [exec_frameReceived r none, receiveFrame_late h expired]

/-- A frame in time. -/
theorem exec_timelyFrame {s : State} {dt : W32} {bytes : List Byte} (r : s.Ready) (none : s.noHolds) (plan : Plan)
    (h : Acceptable (s.later dt) bytes) (running : (s.later dt).timerOver 151 = false) :
    exec (.frameReceived dt bytes plan) s = .next (((s.later dt).acceptFrame (parseFrame bytes)).useFrame plan) := by
  rw [exec_frameReceived r none, receiveFrame_in_time h running]

/-- Settles O10: bytes that are no acceptable frame, a frame after the expiry of its timer, and a frame in time by the
state of the link and its run count. -/
theorem framesFeedTheLink : Obligations.FramesFeedTheLink := by
  refine ⟨?abandoned, ?bad, ?late, fun s f plan => acceptFrame_begins_run f plan, ?timely⟩
  case abandoned =>
    intro s dt bytes r none
    exact congrArg Host.Outcome.next (stamped_of_ready r none dt _)
  case bad =>
    intro s dt bytes plan r none bad
    rw [exec_frameReceived r none, receiveFrame_of_bad bad]
  case late =>
    intro s dt bytes plan r none whole crc spaced expired
    have taken := exec_lateFrame r none plan ⟨whole, crc, spaced⟩ expired
    refine ⟨fun lost => ?lost, fun other => ⟨?expiry, ?frame⟩⟩
    case lost =>
      rw [taken, expireTimer_of_lost (s := s.later dt) lost]
      exact congrArg Host.Outcome.next (acceptFrame_begins_run (s := timerStopped (s.later dt)) _ plan lost rfl)
    case expiry =>
      rw [exec_frameTimerExpiry r none, frameTimerExpires_of_over (timerOver_mono (by decide) expired),
        expireTimer_of_other (s := s.later dt) other]
      rfl
    case frame =>
      rw [taken, expireTimer_of_other (s := s.later dt) other]
      rfl
  case timely =>
    intro s dt bytes plan r none whole crc spaced running
    have taken := exec_timelyFrame r none plan ⟨whole, crc, spaced⟩ running
    have link : ∀ x, s.link.state = x → ((s.later dt).acceptFrame (parseFrame bytes)).link.state = x := fun _ h => h
    dsimp only
    rw [taken]
    refine ⟨fun waiting short => ?_, fun lost short => ?_, fun running => ?_, fun waiting full => ?_, fun lost full => ?_⟩
    · exact congrArg Host.Outcome.next (useFrame_waiting (link _ waiting) short plan)
    · exact congrArg Host.Outcome.next (useFrame_lost (link _ lost) short plan)
    · exact congrArg Host.Outcome.next (useFrame_of_running (running.imp (link _) (link _)) plan)
    · exact congrArg Host.Outcome.next (useFrame_completes_warmUp (link _ waiting) full plan)
    · exact congrArg Host.Outcome.next (useFrame_completes_resumption (link _ lost) full plan)

end Sys2Proof.Links
end

section
/-! SUPPORT. The changes of the link's state (R5, R7, R8, R10): the state shown in the header, LINK_FAULT on the enabled
decks, the restarts of filters, and what is audited and noticed after each. -/

namespace Sys2Proof.LinkStates

open Sys2Proof Sys2Proof.Machine Sys2Proof.Weighing

/-! LINK_FAULT on the enabled decks (R11). -/

/-- The decks of the monitor with LINK_FAULT set or cleared on those that can carry it. -/
def faultDecks (s : State) (on : Bool) : Four DeckMonitor :=
  s.monitor.decks.map fun d x =>
    if s.metro.active.isEnabled d = true then { x with flags := { x.flags with linkFault := on } } else x

theorem setLinkFault_eq (s : State) (on : Bool) :
    s.setLinkFault on = { s with monitor := { s.monitor with decks := faultDecks s on } } := by
  obtain ⟨only, decks⟩ := setLinkFault_spec s on
  have same : (s.setLinkFault on).monitor.decks = faultDecks s on :=
    Four.ext_get fun d => by
      rw [decks, faultDecks, Four.get_map]
      rfl
  rw [← same]
  exact only

theorem faultDecks_on (s : State) (d : DeckId) :
    (faultDecks s true).get d =
      { s.monitor.decks.get d with
        flags := { s.flagsOf d with linkFault := s.metro.active.isEnabled d || (s.flagsOf d).linkFault } } := by
  rw [faultDecks, Four.get_map]
  cases s.metro.active.isEnabled d <;> rfl

theorem faultDecks_off (s : State) (d : DeckId) :
    (faultDecks s false).get d =
      { s.monitor.decks.get d with
        flags := { s.flagsOf d with linkFault := !s.metro.active.isEnabled d && (s.flagsOf d).linkFault } } := by
  rw [faultDecks, Four.get_map]
  cases s.metro.active.isEnabled d <;> rfl

/-! The state of the link, shown in the header (R100). -/

theorem link_not_journal : ¬journalBytes hdrLink ∧ ¬journalBytes (hdrLink + 1) := by
  simp [journalBytes, hdrLink, hdrLastPage]

/-- The header shows a state of the link in the second memory, and records have been placed at most. -/
structure ShowsLink (st : LinkState) (s t : State) : Prop where
  shown : t.mem.read16 hdrLink = BitVec.ofNat 16 st.code
  raised : Registers.Raised recordCauses s.regs t.regs
  memory : Memory.SameBut (fun x => journalBytes x ∨ bytesFrom hdrLink 2 x) s.mem t.mem
  wf : t.mem.wf = true

/-- What is logged after the link's new state has been written leaves the state shown. -/
theorem showsLink_of_logged {st : LinkState} {s u t : State} (h : Logged recordCauses u t) (w : s.mem.wf = true)
    (written : u.mem = s.mem.write16 hdrLink (BitVec.ofNat 16 st.code)) (regs : u.regs = s.regs) :
    ShowsLink st s t := by
  have uw : u.mem.wf = true := written ▸ Memory.write16_wf w
  have first : Memory.SameBut (bytesFrom hdrLink 2) s.mem u.mem := by
    rw [written]
    exact Memory.SameBut.write16 w ⟨by omega, by omega⟩ ⟨by omega, by omega⟩
  constructor
  case shown =>
    rw [(h.memory uw).read16 link_not_journal.1 link_not_journal.2, written, Memory.read16_write16 w (by decide)]
  case raised => exact regs ▸ h.raised
  case memory => exact (first.mono fun _ => .inr).trans ((h.memory uw).mono fun _ => .inl)
  case wf => exact h.wf uw

theorem linkNotice_journaled (s : State) : Journaled recordCauses s s.linkNotice :=
  notice_journaled ..

theorem linkNotice_condition (s : State) : s.linkNotice.regs.cause &&& causeCondition = causeCondition :=
  notice_condition ..

/-- A change of the link audited and noticed. -/
theorem auditLinkNotice_logged (s : State) (kind : AuditKind) (detail : List Byte) :
    Logged recordCauses s (s.writeAudit kind detail).linkNotice :=
  auditNotice_logged ..

theorem auditLinkNotice_audited (s : State) (kind : AuditKind) (detail : List Byte) :
    Audited kind detail s (s.writeAudit kind detail).linkNotice :=
  auditNotice_audited ..

/-! LOST (R7). -/

/-- The part with its link LOST, before that is audited and noticed. -/
def lostLink (s : State) : State :=
  { s with
    link := { s.link with state := .lost }
    cells := s.cells.map fun c => { c with faultRun := 0, recovery := 0 }
    monitor := { s.monitor with decks := faultDecks s true }
    mem := s.mem.write16 hdrLink (BitVec.ofNat 16 LinkState.lost.code) }

theorem enterLost_eq (s : State) :
    s.enterLost = ((lostLink s).writeAudit .linkLost (u16 s.link.state.code ++ u16 s.frameNumber)).linkNotice := by
  have lost : ((s.setLink .lost).setLinkFault true).clearRuns = lostLink s := by
    rw [setLinkFault_eq]
    rfl
  unfold State.enterLost State.frameNumber
  dsimp only
  rw [lost]
  cases s.link.lastFrame with
  | none => rfl
  | some f => rfl

/-- Settles O14: the entry into LOST, and the row of LINK_NO_START. -/
theorem linkNoStartLosesTheLink : Obligations.LinkNoStartLosesTheLink := by
  refine ⟨?entry, ?stopped, fun s h => exec_ownCommand_of_not h nofun nofun⟩
  case entry =>
    intro s w
    rw [enterLost_eq]
    have logged := auditLinkNotice_logged (lostLink s) .linkLost (u16 s.link.state.code ++ u16 s.frameNumber)
    have audited := auditLinkNotice_audited (lostLink s) .linkLost (u16 s.link.state.code ++ u16 s.frameNumber)
    have shows : ShowsLink .lost s _ := showsLink_of_logged logged w rfl rfl
    have monitor := congrArg State.monitor logged.eq
    refine ⟨_, rfl, ?_, fun d => ?_, shows.shown, ⟨audited.entries, audited.last⟩, linkNotice_condition _,
      shows.raised, shows.memory⟩
    · rw [monitor]
      exact logged.eq
    · rw [monitor]
      exact faultDecks_on s d
  case stopped =>
    intro s rest stopped
    have due : s.noStartDue = true := stopped.due
    simp only [State.noStartDue, Bool.and_eq_true, beq_iff_eq, Option.isNone_iff_eq_none, decide_eq_true_eq] at due
    obtain ⟨⟨waiting, unframed⟩, count⟩ := due
    exact ⟨waiting, unframed, count, exec_ownCommand_of_stopped stopped nofun nofun⟩

/-! LIVE (R5). -/

/-- The part with its link LIVE, before that is noticed. -/
def liveLink (s : State) : State :=
  { s with
    link := { s.link with state := .live }
    monitor := { s.monitor with decks := faultDecks s false }
    mem := s.mem.write16 hdrLink (BitVec.ofNat 16 LinkState.live.code) }

theorem setLink_live_eq (s : State) : (s.setLink .live).setLinkFault false = liveLink s := by
  rw [setLinkFault_eq]
  rfl

theorem enterLive_eq (s : State) : s.enterLive = (liveLink s).linkNotice := by
  rw [State.enterLive, setLink_live_eq]

/-- Settles O15: the entry into LIVE, and the row of WARM_UP_COMPLETE. -/
theorem warmUpCompleteMakesTheLinkLive : Obligations.WarmUpCompleteMakesTheLinkLive := by
  refine ⟨?entry, ?stopped, fun s plan h => congrArg Host.Outcome.next (takeChange_of_not h .live plan)⟩
  case entry =>
    intro s w
    rw [enterLive_eq]
    have placed := linkNotice_journaled (liveLink s)
    have shows : ShowsLink .live s _ := showsLink_of_logged placed.logged w rfl rfl
    have monitor := congrArg State.monitor placed.eq
    refine ⟨_, rfl, ?_, fun d => ?_, shows.shown, linkNotice_condition _, shows.raised, shows.memory⟩
    · rw [monitor]
      exact placed.eq
    · rw [monitor]
      exact faultDecks_off s d
  case stopped =>
    intro s rest plan stopped
    obtain ⟨waiting, count⟩ : s.link.state = .waiting ∧ 400 ≤ s.link.runCount := by
      simpa [State.ownDue, State.warmUpDue] using stopped.due
    exact ⟨waiting, count, congrArg Host.Outcome.next (takeChange_of_stopped stopped .live plan)⟩

/-! The restart of filters and windows (R32, R48). -/

/-- The chain of a deck with an empty filter. -/
def emptiedDeck (x : DeckChain) : DeckChain :=
  { x with history := [], fill := 0, running := 0 }

/-- The chain of a cell with no raw count in its history. -/
def emptiedCell (x : CellChain) : CellChain :=
  { x with history := [], sum := 0 }

/-- A deck's monitor with an empty window, FILLING and MOTION. -/
def restartedMonitor (x : DeckMonitor) : DeckMonitor :=
  { x with window := [], fill := 0, flags := { x.flags with filling := true, motion := true } }

/-- The filters and windows of some decks have been restarted. -/
structure Restarted (l : List DeckId) (s t : State) : Prop where
  fields :
    ∃ a b c, t = { s with
      chain := { s.chain with decks := a, cells := b }
      monitor := { s.monitor with decks := c } }
  decks : ∀ d, t.chain.decks.get d = if d ∈ l then emptiedDeck (s.chain.decks.get d) else s.chain.decks.get d
  monitors :
    ∀ d, t.monitor.decks.get d = if d ∈ l then restartedMonitor (s.monitor.decks.get d) else s.monitor.decks.get d
  cells : ∀ c : CellId, t.chain.cells.getD c.val CellChain.start =
    if ∃ d ∈ l, s.metro.active.deckOf c = some d then emptiedCell (s.chain.cells.getD c.val CellChain.start)
    else s.chain.cells.getD c.val CellChain.start

theorem Restarted.metro {l : List DeckId} {s t : State} (h : Restarted l s t) : t.metro = s.metro := by
  obtain ⟨_, _, _, rfl⟩ := h.fields
  rfl

theorem Restarted.refl (s : State) : Restarted [] s s where
  fields := ⟨_, _, _, rfl⟩
  decks _ := rfl
  monitors _ := rfl
  cells c := (if_neg (by simp)).symm

/-- The restart of one enabled deck. -/
theorem restartFilter_restarted {s : State} {d : DeckId} (en : s.metro.active.isEnabled d = true) :
    Restarted [d] s (s.restartFilter d) := by
  have written : s.restartFilter d =
      { s with
        chain :=
          { s.chain with
            decks := s.chain.decks.set d (emptiedDeck (s.chain.decks.get d))
            cells := mapCells s.chain.cells CellChain.start fun c x =>
              if s.metro.active.deckOf c = some d then emptiedCell x else x }
        monitor :=
          { s.monitor with decks := s.monitor.decks.set d (restartedMonitor (s.monitor.decks.get d)) } } := by
    unfold State.restartFilter
    dsimp only
    rw [State.mapFlags, if_pos en]
    simp only [Four.get_set, Four.set_set, if_true]
    rfl
  rw [written]
  refine ⟨⟨_, _, _, rfl⟩, fun e => ?_, fun e => ?_, fun c => ?_⟩
  · rw [Four.get_set]
    by_cases same : e = d
    · simp [same]
    · simp [same]
  · rw [Four.get_set]
    by_cases same : e = d
    · simp [same]
    · simp [same]
  · rw [mapCells_getD]
    simp

/-- A deck restarted twice is one restarted. -/
theorem Restarted.trans {l m : List DeckId} {s t u : State} (h : Restarted l s t) (k : Restarted m t u) :
    Restarted (l ++ m) s u := by
  refine ⟨?_, fun d => ?_, fun d => ?_, fun c => ?_⟩
  · obtain ⟨_, _, _, rfl⟩ := h.fields
    obtain ⟨_, _, _, rfl⟩ := k.fields
    exact ⟨_, _, _, rfl⟩
  · rw [k.decks, h.decks]
    by_cases a : d ∈ l <;> by_cases b : d ∈ m <;> simp [a, b, emptiedDeck]
  · rw [k.monitors, h.monitors]
    by_cases a : d ∈ l <;> by_cases b : d ∈ m <;> simp [a, b, restartedMonitor]
  · rw [k.cells, h.cells, h.metro]
    have split : (∃ d ∈ l ++ m, s.metro.active.deckOf c = some d) ↔
        (∃ d ∈ l, s.metro.active.deckOf c = some d) ∨ ∃ d ∈ m, s.metro.active.deckOf c = some d := by
      simp only [List.mem_append, or_and_right, exists_or]
    simp only [split]
    by_cases a : ∃ d ∈ l, s.metro.active.deckOf c = some d <;>
      by_cases b : ∃ d ∈ m, s.metro.active.deckOf c = some d <;> simp only [a, b, or_true, or_false,
        if_true, if_false, emptiedCell]

theorem foldl_restartFilter_restarted (l : List DeckId) {s : State} (en : ∀ d ∈ l, s.metro.active.isEnabled d = true) :
    Restarted l s (l.foldl State.restartFilter s) := by
  induction l generalizing s with
  | nil => exact Restarted.refl s
  | cons d l ih =>
    obtain ⟨first, others⟩ := List.forall_mem_cons.mp en
    have head := restartFilter_restarted first
    exact head.trans (ih fun e member => head.metro ▸ others e member)

theorem mem_decks {m : MetroSet} {d : DeckId} : d ∈ m.decks ↔ m.isEnabled d = true := by
  simp [MetroSet.decks, mem_allDecks]

theorem restartFilters_restarted (s : State) : Restarted s.metro.active.decks s s.restartFilters :=
  foldl_restartFilter_restarted _ fun _ => mem_decks.mp

theorem fittedTo_eq_some_iff {m : MetroSet} {c : CellId} {d : DeckId} :
    m.fittedTo c = some d ↔ m.deckOf c = some d ∧ m.isEnabled d = true := by
  unfold MetroSet.fittedTo
  cases m.deckOf c with
  | none => simp
  | some e =>
    cases en : m.isEnabled e with
    | false =>
      simp only [en, Bool.false_eq_true, if_false, reduceCtorEq, Option.some.injEq, false_iff, not_and]
      rintro rfl
      simp [en]
    | true =>
      simp only [en, if_true, Option.some.injEq]
      exact ⟨fun same => ⟨same, same ▸ en⟩, fun h => h.1⟩

/-- A cell is fitted where one of the enabled decks has it. -/
theorem fittedTo_isSome_iff {m : MetroSet} {c : CellId} :
    (m.fittedTo c).isSome = true ↔ ∃ d ∈ m.decks, m.deckOf c = some d := by
  simp only [Option.isSome_iff_exists, fittedTo_eq_some_iff, mem_decks, and_comm]

/-! RESUMED (R8). -/

/-- Settles O16: the entry into RESUMED, and the row of LINK_RESUMED. -/
theorem linkResumedRestartsTheFilters : Obligations.LinkResumedRestartsTheFilters := by
  refine ⟨?entry, ?stopped, fun s plan h => congrArg Host.Outcome.next (takeChange_of_not h .resumed plan)⟩
  case entry =>
    intro s w
    have restarted : Restarted s.metro.active.decks (s.setLink .resumed) (s.setLink .resumed).restartFilters :=
      restartFilters_restarted (s.setLink .resumed)
    have entered : s.enterResumed = (s.setLink .resumed).restartFilters.linkNotice := rfl
    generalize (s.setLink .resumed).restartFilters = u at restarted entered
    obtain ⟨fields, decks, monitors, cells⟩ := restarted
    obtain ⟨a, b, c, rfl⟩ := fields
    have placed := linkNotice_journaled
      { s.setLink .resumed with
        chain := { (s.setLink .resumed).chain with decks := a, cells := b }
        monitor := { (s.setLink .resumed).monitor with decks := c } }
    have shows : ShowsLink .resumed s _ := showsLink_of_logged placed.logged w rfl rfl
    have monitor := congrArg State.monitor placed.eq
    have chain := congrArg State.chain placed.eq
    refine ⟨_, entered, ?_, fun d en => ?_, fun d off => ?_, fun c => ?_, shows.shown, linkNotice_condition _,
      shows.raised, shows.memory⟩
    · rw [monitor, chain]
      exact placed.eq
    · rw [monitor, chain, decks, monitors, if_pos (mem_decks.mpr en), if_pos (mem_decks.mpr en)]
      exact ⟨rfl, rfl⟩
    · have absent : d ∉ s.metro.active.decks := by simp [mem_decks, off]
      rw [monitor, chain, decks, monitors, if_neg absent, if_neg absent]
      exact ⟨rfl, rfl⟩
    · rw [chain, cells]
      exact if_congr fittedTo_isSome_iff.symm rfl rfl
  case stopped =>
    intro s rest plan stopped
    obtain ⟨lost, count⟩ : s.link.state = .lost ∧ 200 ≤ s.link.runCount := by
      simpa [State.ownDue, State.resumeDue] using stopped.due
    exact ⟨lost, count, congrArg Host.Outcome.next (takeChange_of_stopped stopped .resumed plan)⟩

end Sys2Proof.LinkStates
end

section
/-! SUPPORT. The cell supervisor (R12 to R19) and the back-channel (R15): the examination of a status, faults and
recoveries, restart requests and the command they lead to. -/

namespace Sys2Proof.Cells

open Sys2Proof Sys2Proof.Machine Sys2Proof.Weighing Sys2Proof.LinkStates

/-! The cells. -/

theorem setCell_self (s : State) (c : CellId) : s.setCell c (s.cell c) = s := by
  have same : s.cells.set c.val (s.cells.getD c.val Cell.start) = s.cells := by
    obtain inside | beyond := Nat.lt_or_ge c.val s.cells.length
    · rw [List.getD_eq_getElem _ _ inside, List.set_getElem_self]
    · exact List.set_eq_of_length_le beyond
  rw [State.setCell, State.cell, same]

theorem cell_setCell {s : State} {c : CellId} (inside : c.val < s.cells.length) (x : Cell) :
    (s.setCell c x).cell c = x := by
  simp [State.setCell, State.cell, inside]

/-! When the events of a cell are due (R14 to R17). -/

theorem faultDue_iff {s : State} {c : CellId} :
    s.faultDue c = true ↔ (s.cell c).state = .active ∧ 20 ≤ (s.cell c).faultRun
      ∨ (s.cell c).state = .recovered ∧ 1 ≤ (s.cell c).faultRun := by
  simp [State.faultDue]

theorem recoveryDue_iff {s : State} {c : CellId} :
    s.recoveryDue c = true ↔ (s.cell c).state = .faulted ∧ 400 ≤ (s.cell c).recovery := by
  simp [State.recoveryDue]

theorem restartDue_iff {s : State} {c : CellId} :
    s.restartDue c = true ↔ (s.cell c).state = .faulted ∧ (s.cell c).restarts < 3
      ∧ (∃ n, (s.cell c).lastRestart = some n ∧ s.link.cadence = n + 400) ∧ c ∉ s.back.queue := by
  unfold State.restartDue
  dsimp only
  cases (s.cell c).lastRestart with
  | none => simp
  | some n => simp [and_assoc]

/-! The back-channel (R15). -/

theorem requestRestart_of_queued {s : State} {c : CellId} (queued : c ∈ s.back.queue) : s.requestRestart c = s :=
  if_pos (List.contains_iff_mem.mpr queued)

theorem requestRestart_of_new {s : State} {c : CellId} (new : c ∉ s.back.queue) :
    s.requestRestart c = { s with back := { s.back with queue := s.back.queue ++ [c] } } :=
  if_neg (mt List.contains_iff_mem.mp new)

theorem requestRestart_nodup {s : State} (c : CellId) (once : s.back.queue.Nodup) :
    (s.requestRestart c).back.queue.Nodup := by
  by_cases queued : c ∈ s.back.queue
  · rwa [requestRestart_of_queued queued]
  · rw [requestRestart_of_new queued]
    exact List.nodup_append.mpr ⟨once, List.nodup_singleton c, fun a member b single => by
      rw [List.mem_singleton.mp single]
      exact ne_of_mem_of_not_mem member queued⟩

theorem exec_channelRestart {s : State} (r : s.Ready) : exec .channelRestart s = .next s.sendRestart :=
  congrArg Host.Outcome.next (whenOn_of_ready r State.sendRestart)

section Idle

variable {s : State} {c : CellId} {rest : List CellId} (idle : s.back.sending = []) (head : s.back.queue = c :: rest)
include idle head

theorem sendRestart_of_faulted (faulted : (s.cell c).state = .faulted) :
    s.sendRestart =
      { s with
        back := { queue := rest, sending := restartBytes c }
        cells :=
          s.cells.set c.val
            { s.cell c with restarts := (s.cell c).restarts + 1, lastRestart := some s.link.cadence } } := by
  simp only [State.sendRestart, idle, head, faulted, List.isEmpty_nil, if_true]
  rfl

/-- A queued cell that is no longer FAULTED is dropped. -/
theorem sendRestart_of_other (other : (s.cell c).state ≠ .faulted) :
    s.sendRestart = { s with back := { s.back with queue := rest } } := by
  simp only [State.sendRestart, idle, head, other, List.isEmpty_nil, if_true, if_false]

end Idle

theorem sendRestart_of_nothing {s : State} (h : s.back.sending ≠ [] ∨ s.back.queue = []) : s.sendRestart = s := by
  unfold State.sendRestart
  split
  next idle =>
    have empty : s.back.queue = [] := h.resolve_left fun sending => sending (List.isEmpty_iff.mp idle)
    rw [empty]
  next => rfl

/-- Settles O18: requests, RESTART_DUE, CHANNEL_RESTART and the end of a sending. -/
theorem backChannelSendsRestarts : Obligations.BackChannelSendsRestarts := by
  refine ⟨fun s c => restartDue_iff, fun s c => ⟨requestRestart_of_queued, requestRestart_of_new, requestRestart_nodup c⟩,
    ?stopped, fun c => rfl, fun s c h => exec_ownCommand_of_not h nofun nofun, ?faulted, ?other, ?nothing, ?sent⟩
  case stopped =>
    intro s c rest stopped x
    obtain ⟨faulted, few, count, new⟩ := restartDue_iff.mp stopped.due
    refine ⟨⟨faulted, few, count, new⟩, (exec_ownCommand_of_stopped stopped nofun nofun).trans ?_⟩
    exact congrArg (fun t : State => Host.Outcome.next (t.run true rest))
      (requestRestart_of_new (s := { s with unfinished := [] }) new)
  case faulted =>
    intro s c rest r idle head faulted
    rw [exec_channelRestart r, sendRestart_of_faulted idle head faulted]
  case other =>
    intro s c rest r idle head other
    rw [exec_channelRestart r, sendRestart_of_other idle head other]
  case nothing =>
    intro s r h
    rw [exec_channelRestart r, sendRestart_of_nothing h]
  case sent => exact fun s r => congrArg Host.Outcome.next (whenOn_of_ready r State.endSend)

/-! The examination of a status (R13, R16, R17). -/

theorem examineCell_of_frame {s : State} {f : Frame} (frame : s.link.lastFrame = some f) (c : CellId) :
    s.examineCell c =
      s.setCell c
        (examineStatus (s.cell c) (f.cells.getD c.val (0, .notFitted)).1 (f.cells.getD c.val (0, .notFitted)).2) := by
  rw [State.examineCell, State.frameCount, State.frameStatus, frame]

section Examined

variable {x : Cell} {count : Int} {status : CellStatus}

theorem examineStatus_unfitted (h : x.state = .unfitted) : examineStatus x count status = x := by
  simp [examineStatus, h]

theorem examineStatus_active_good (h : x.state = .active) (good : status = .good) :
    examineStatus x count status = { x with faultRun := 0, lastGood := some count } := by
  simp [examineStatus, h, good]

theorem examineStatus_active_bad (h : x.state = .active) (bad : ¬status = .good) :
    examineStatus x count status = { x with faultRun := x.faultRun + 1 } := by
  simp [examineStatus, h, bad]

theorem examineStatus_faulted_good (h : x.state = .faulted) (good : status = .good) :
    examineStatus x count status = { x with recovery := x.recovery + 1, lastGood := some count } := by
  simp [examineStatus, h, good]

theorem examineStatus_faulted_bad (h : x.state = .faulted) (bad : ¬status = .good) :
    examineStatus x count status = { x with recovery := 0 } := by
  simp [examineStatus, h, bad]

theorem examineStatus_recovered_good (h : x.state = .recovered) (good : status = .good) :
    examineStatus x count status = { x with lastGood := some count } := by
  simp [examineStatus, h, good]

theorem examineStatus_recovered_bad (h : x.state = .recovered) (bad : ¬status = .good) :
    examineStatus x count status = { x with faultRun := 1 } := by
  simp [examineStatus, h, bad]

/-- What an examined cell comes to: a fault, if it was near one and the status is bad, or a fault already due. -/
theorem examineStatus_faults_iff :
    ((examineStatus x count status).state = .active ∧ 20 ≤ (examineStatus x count status).faultRun
        ∨ (examineStatus x count status).state = .recovered ∧ 1 ≤ (examineStatus x count status).faultRun) ↔
      (x.state = .active ∧ ¬status = .good ∧ 19 ≤ x.faultRun)
        ∨ (x.state = .recovered ∧ (¬status = .good ∨ 1 ≤ x.faultRun)) := by
  by_cases good : status = .good
  · cases h : x.state with
    | unfitted => simp [examineStatus_unfitted h, h]
    | active => rw [examineStatus_active_good h good]; simp [good, h]
    | faulted => simp [examineStatus_faulted_good h good, h]
    | recovered => rw [examineStatus_recovered_good h good]; simp [good, h]
  · cases h : x.state with
    | unfitted => simp [examineStatus_unfitted h, h]
    | active => simp [examineStatus_active_bad h good, h, good]
    | faulted => simp [examineStatus_faulted_bad h good, h]
    | recovered => simp [examineStatus_recovered_bad h good, h, good]

/-- A recovery, if it was near one and the status is good. -/
theorem examineStatus_recovers_iff :
    ((examineStatus x count status).state = .faulted ∧ 400 ≤ (examineStatus x count status).recovery) ↔
      x.state = .faulted ∧ status = .good ∧ 399 ≤ x.recovery := by
  by_cases good : status = .good
  · cases h : x.state with
    | unfitted => simp [examineStatus_unfitted h, h]
    | active => simp [examineStatus_active_good h good, h]
    | faulted => rw [examineStatus_faulted_good h good]; simp [good, h]
    | recovered => simp [examineStatus_recovered_good h good, h]
  · cases h : x.state with
    | unfitted => simp [examineStatus_unfitted h, h]
    | active => simp [examineStatus_active_bad h good, h]
    | faulted => simp [examineStatus_faulted_bad h good, h, good]
    | recovered => simp [examineStatus_recovered_bad h good, h]

end Examined

/-! CELL_FAULT and CELL_RECOVERED (R14, R16). -/

/-- A cell after its fault: an ACTIVE one takes its held count anew. -/
def faultedCell (x : Cell) : Cell :=
  let fresh := x.state == .active
  { x with
    state := .faulted
    faultRun := 0
    recovery := 0
    held := if fresh then x.lastGood.getD 0 else x.held
    prior := if fresh then x.lastGood.isSome else x.prior
    restarts := if fresh then 0 else x.restarts }

/-- The decks of the monitor with DEGRADED on the deck a cell is fitted to (R19). -/
def degradedDecks (s : State) (c : CellId) : Four DeckMonitor :=
  s.monitor.decks.map fun d x =>
    { x with flags := { x.flags with degraded := s.metro.active.fittedTo c == some d || x.flags.degraded } }

theorem degradedDecks_get (s : State) (c : CellId) (d : DeckId) :
    (degradedDecks s c).get d =
      { s.monitor.decks.get d with
        flags := { s.flagsOf d with degraded := s.metro.active.fittedTo c == some d || (s.flagsOf d).degraded } } :=
  Four.get_map ..

/-- The part with a cell FAULTED and its deck DEGRADED, before that is audited and noticed. -/
def cellFaulted (s : State) (c : CellId) : State :=
  { s with
    cells := s.cells.set c.val (faultedCell (s.cell c))
    monitor := { s.monitor with decks := degradedDecks s c } }

theorem degradedDecks_of_unfitted {s : State} {c : CellId} (h : s.metro.active.fittedTo c = none) :
    degradedDecks s c = s.monitor.decks :=
  Four.ext_get fun d => by
    rw [degradedDecks, Four.get_map, h]
    rfl

theorem mapFlags_degraded {s : State} {c : CellId} {d : DeckId} (h : s.metro.active.fittedTo c = some d) :
    s.mapFlags d (fun f => { f with degraded := true }) =
      { s with monitor := { s.monitor with decks := degradedDecks s c } } := by
  obtain ⟨only, decks⟩ := mapFlags_spec s d fun f => { f with degraded := true }
  have same : (s.mapFlags d fun f => { f with degraded := true }).monitor.decks = degradedDecks s c :=
    Four.ext_get fun e => by
      rw [decks, degradedDecks, Four.get_map, h, (fittedTo_eq_some_iff.mp h).2]
      by_cases here : e = d
      · simp [here, State.flagsOf]
      · simp [here, beq_false_of_ne (Ne.symm here)]
  rw [← same]
  exact only

/-- The detail of the audit entry of a fault. -/
def faultDetail (s : State) (c : CellId) : List Byte :=
  u8 c.val ++ u8 (deckByte (s.metro.active.fittedTo c)) ++ u8 (s.frameStatus c).code ++ u8 s.frameNumber
    ++ u8 (s.cell c).state.code ++ u8 (bit (faultedCell (s.cell c)).prior) ++ u8 0 ++ u8 0

theorem faultCell_eq (s : State) (c : CellId) :
    let noticed := ((cellFaulted s c).writeAudit .cellFault (faultDetail s c)).cellNotice c
    s.faultCell c =
      if (s.cell c).state == .active || decide ((s.cell c).restarts < 3) then noticed.requestRestart c else noticed := by
  intro noticed
  have degraded :
      (match s.metro.active.fittedTo c with
        | some d => (s.setCell c (faultedCell (s.cell c))).mapFlags d fun f => { f with degraded := true }
        | none => s.setCell c (faultedCell (s.cell c))) = cellFaulted s c := by
    cases fitted : s.metro.active.fittedTo c with
    | none =>
      dsimp only
      rw [cellFaulted, degradedDecks_of_unfitted fitted]
      rfl
    | some d => exact mapFlags_degraded (s := s.setCell c (faultedCell (s.cell c))) fitted
  simp only [noticed, ← degraded]
  rfl

/-- The queue of the back-channel after a request that is made at need (R14, R15). -/
theorem requestRestart_at_need (s : State) (c : CellId) (need : Bool) :
    (if need then s.requestRestart c else s) =
      { s with
        back :=
          { s.back with
            queue := if need && !s.back.queue.contains c then s.back.queue ++ [c] else s.back.queue } } := by
  cases need with
  | false => rfl
  | true =>
    by_cases queued : c ∈ s.back.queue
    · rw [if_pos rfl, requestRestart_of_queued queued]
      simp [queued]
    · rw [if_pos rfl, requestRestart_of_new queued]
      simp [queued]

theorem faultCell_logged (s : State) (c : CellId) :
    Logged recordCauses (cellFaulted s c) (((cellFaulted s c).writeAudit .cellFault (faultDetail s c)).cellNotice c) :=
  auditNotice_logged ..

theorem faultCell_audited (s : State) (c : CellId) :
    Audited .cellFault (faultDetail s c) (cellFaulted s c)
      (((cellFaulted s c).writeAudit .cellFault (faultDetail s c)).cellNotice c) :=
  auditNotice_audited ..

theorem cellNotice_condition (s : State) (c : CellId) :
    (s.cellNotice c).regs.cause &&& causeCondition = causeCondition :=
  notice_condition ..

theorem recoverCell_journaled (s : State) (c : CellId) :
    Journaled recordCauses (s.setCell c { s.cell c with state := .recovered, recovery := 0 }) (s.recoverCell c) :=
  notice_journaled ..

/-- Settles O17: the two rows of a cell, and the examination that brings them about. -/
theorem cellFaultAndRecovery : Obligations.CellFaultAndRecovery := by
  refine ⟨?fault, fun s c h => exec_ownCommand_of_not h nofun nofun, ?recovery,
    fun s c h => exec_ownCommand_of_not h nofun nofun, ?examination⟩
  case fault =>
    intro s c rest w stopped x fresh held prior
    refine ⟨faultDue_iff.mp stopped.due, _, exec_ownCommand_of_stopped stopped nofun nofun, ?_⟩
    have taken : ({ s with unfinished := [] } : State).takeOwn (.cellFault c) =
        ({ s with unfinished := [] } : State).faultCell c := rfl
    rw [taken, faultCell_eq, requestRestart_at_need]
    have logged := faultCell_logged { s with unfinished := [] } c
    have audited := faultCell_audited { s with unfinished := [] } c
    have told := cellNotice_condition
      ((cellFaulted { s with unfinished := [] } c).writeAudit .cellFault (faultDetail { s with unfinished := [] } c)) c
    generalize ((cellFaulted { s with unfinished := [] } c).writeAudit .cellFault
      (faultDetail { s with unfinished := [] } c)).cellNotice c = noticed at logged audited told ⊢
    obtain ⟨_, _, _, _, _, rfl⟩ := logged.fields
    exact ⟨rfl, degradedDecks_get s c, ⟨audited.entries, audited.last⟩, told, logged.raised, logged.memory w⟩
  case recovery =>
    intro s c rest w stopped
    obtain ⟨faulted, count⟩ := recoveryDue_iff.mp stopped.due
    have placed := recoverCell_journaled { s with unfinished := [] } c
    exact ⟨faulted, count, _, exec_ownCommand_of_stopped stopped nofun nofun, placed.eq, notice_condition ..,
      placed.raised, placed.memory w⟩
  case examination =>
    intro s c f frame x count good kept t
    have examined : t = kept (examineStatus x count (f.cells.getD c.val (0, .notFitted)).2) :=
      examineCell_of_frame frame c
    refine ⟨fun h => ?_, fun h g => ?_, fun h b => ?_, fun h g => ?_, fun h b => ?_, fun h g => ?_, fun h b => ?_,
      fun inside => ?_⟩
    · rw [examined, examineStatus_unfitted h]
      exact setCell_self s c
    · rw [examined, examineStatus_active_good h g]
    · rw [examined, examineStatus_active_bad h b]
    · rw [examined, examineStatus_faulted_good h g]
    · rw [examined, examineStatus_faulted_bad h b]
    · rw [examined, examineStatus_recovered_good h g]
    · rw [examined, examineStatus_recovered_bad h b]
    · have cell : t.cell c = examineStatus x count (f.cells.getD c.val (0, .notFitted)).2 := by
        rw [examined]
        exact cell_setCell inside _
      have fault : t.ownDue (.cellFault c) = true ↔ _ := faultDue_iff
      have recovery : t.ownDue (.cellRecovered c) = true ↔ _ := recoveryDue_iff
      rw [fault, recovery, cell]
      exact ⟨examineStatus_faults_iff, examineStatus_recovers_iff⟩

end Sys2Proof.Cells
end

section
/-! SUPPORT. CLEAR_LINK (R10) and CLEAR_CELL (R18): an order that is logged and answered in the sweep that takes it. -/

namespace Sys2Proof.ClearOrders

open Sys2Proof Sys2Proof.Machine Sys2Proof.Weighing Sys2Proof.Orders Sys2Proof.LinkStates Sys2Proof.Cells

/-! An order logged and answered at its take. -/

/-- An order has just been taken; its owner has written bytes of `p`, placed records, and given a notice. -/
structure Noticed (p : Nat → Prop) (k : SlotId) (kind : OrderKind) (s v : State) : Prop where
  wf : v.mem.wf = true
  memory : Memory.SameBut p (s.beginOrder k kind).mem v.mem
  intake : v.intake = (s.beginOrder k kind).intake
  raised : Registers.Raised recordCauses s.regs v.regs
  condition : v.regs.cause &&& causeCondition = causeCondition

/-- What the host finds of an order that has been logged and then answered DONE. -/
structure NoticedAnswer (p : Nat → Prop) (k : SlotId) (s t : State) : Prop where
  answered : Answered k .done [] s t
  condition : t.regs.cause &&& causeCondition = causeCondition
  raised : Registers.Raised (causeAnswer ||| causeJournal ||| causeCondition) s.regs t.regs
  memory : Memory.SameBut (fun x => answerBytes k x ∨ p x) s.mem t.mem

theorem answer_raised (v : State) (k : SlotId) (code : AnswerCode) (body : List Byte) :
    Registers.Raised causeAnswer v.regs ((v.answer k code body).setPosition k).regs := by
  rw [setPosition_regs, answer_regs]
  exact ⟨causeAnswer, by decide, rfl⟩

/-- All that an answer at a take can change. -/
theorem answer_fields (v : State) (k : SlotId) (code : AnswerCode) (body : List Byte) :
    ∃ m i r, (v.answer k code body).setPosition k = { v with mem := m, intake := i, regs := r } :=
  ⟨_, _, _, answer_rest v k code body⟩

theorem noticed_answered {p : Nat → Prop} {k : SlotId} {kind : OrderKind} {s v : State} (w : s.mem.wf = true)
    (h : Noticed p k kind s v) : NoticedAnswer p k s ((v.answer k .done []).setPosition k) where
  answered := by
    have holds := beginOrder_holds s k kind
    exact answer_answered h.wf (Nat.zero_le _) ⟨h.intake ▸ holds.flight, h.intake ▸ holds.claim⟩
  condition := (answer_raised v k .done []).keeps h.condition
  raised := (h.raised.mono (by decide)).trans ((answer_raised v k .done []).mono (by decide))
  memory :=
    ((beginOrder_sameBut w k kind).mono fun _ => .inl).trans
      ((h.memory.mono fun _ => .inr).trans ((answer_sameBut h.wf (Nat.zero_le _)).mono fun _ => .inl))

/-! CLEAR_LINK. -/

theorem exec_clearLink (s : State) (k : SlotId) :
    exec (.clearLink k) s = .next (s.whenOn fun u => u.takePosted k .clearLink State.clearLinkOrder) := rfl

theorem link_not_answer (k : SlotId) : ¬answerBytes k hdrLink ∧ ¬answerBytes k (hdrLink + 1) := by
  have lower := slotBase_lower k
  have link : hdrLink = 0x14 := rfl
  have sweep : hdrSweep = 0x22 := rfl
  simp only [answerBytes]
  omega

/-- A RESUMED link has been made LIVE, which is audited and noticed. -/
def linkRestored (s : State) : State :=
  ((liveLink s).writeAudit .linkRestored (u16 s.frameNumber ++ u16 0)).linkNotice

theorem clearLinkOrder_of_resumed {s : State} (resumed : s.link.state = .resumed) (k : SlotId) :
    s.clearLinkOrder k = (linkRestored s).answer k .done [] := by
  rw [State.clearLinkOrder, resumed]
  dsimp only
  rw [setLink_live_eq]
  rfl

theorem clearLinkOrder_of_lost {s : State} (lost : s.link.state = .lost) (k : SlotId) :
    s.clearLinkOrder k = s.answer k .stillLost [] := by
  rw [State.clearLinkOrder, lost]

theorem clearLinkOrder_of_other {s : State} (h : s.link.state = .live ∨ s.link.state = .waiting) (k : SlotId) :
    s.clearLinkOrder k = s.answer k .done [] := by
  obtain live | waiting := h
  · rw [State.clearLinkOrder, live]
  · rw [State.clearLinkOrder, waiting]

theorem linkRestored_logged (s : State) : Logged recordCauses (liveLink s) (linkRestored s) :=
  auditLinkNotice_logged ..

theorem linkRestored_audited (s : State) :
    Audited .linkRestored (u16 s.frameNumber ++ u16 0) (liveLink s) (linkRestored s) :=
  auditLinkNotice_audited ..

/-- CLEAR_LINK on a RESUMED link. -/
theorem clearLink_restores {s : State} {k : SlotId} (p : s.Posted k .clearLink) (resumed : s.link.state = .resumed) :
    ∃ t : State, exec (.clearLink k) s = .next t
      ∧ NoticedAnswer (fun x => journalBytes x ∨ bytesFrom hdrLink 2 x) k s t
      ∧ t = { s with
        link := { s.link with state := .live }
        monitor := { s.monitor with decks := t.monitor.decks }
        mem := t.mem
        intake := t.intake
        regs := t.regs
        journal := t.journal
        audit := t.audit
        store := { s.store with waiting := t.store.waiting } }
      ∧ (∀ d, t.monitor.decks.get d =
        { s.monitor.decks.get d with
          flags := { s.flagsOf d with linkFault := !s.metro.active.isEnabled d && (s.flagsOf d).linkFault } })
      ∧ t.mem.read16 hdrLink = BitVec.ofNat 16 LinkState.live.code
      ∧ Audited .linkRestored (u16 s.frameNumber ++ u16 0) s t := by
  have logged := linkRestored_logged (s.beginOrder k .clearLink)
  have audited := linkRestored_audited (s.beginOrder k .clearLink)
  have condition : (linkRestored (s.beginOrder k .clearLink)).regs.cause &&& causeCondition = causeCondition :=
    linkNotice_condition _
  have shows : ShowsLink .live (s.beginOrder k .clearLink) _ :=
    showsLink_of_logged logged (beginOrder_wf p.memory k .clearLink) rfl rfl
  have run := takePosted_runs p rfl rfl State.clearLinkOrder
  rw [clearLinkOrder_of_resumed (s := s.beginOrder k .clearLink) resumed] at run
  generalize linkRestored (s.beginOrder k .clearLink) = v at logged audited condition shows run
  have intake : v.intake = (s.beginOrder k .clearLink).intake := by rw [logged.eq]; rfl
  have answered := noticed_answered p.memory ⟨shows.wf, shows.memory, intake, shows.raised, condition⟩
  have shown := (answer_sameBut (k := k) (code := .done) (body := []) shows.wf (Nat.zero_le _)).read16
    (link_not_answer k).1 (link_not_answer k).2
  have fields := answer_fields v k .done []
  generalize (v.answer k .done []).setPosition k = t at run answered shown fields
  obtain ⟨_, _, _, _, _, rfl⟩ := logged.fields
  obtain ⟨_, _, _, rfl⟩ := fields
  exact ⟨_, (exec_clearLink s k).trans (congrArg Host.Outcome.next run), answered, rfl, faultDecks_off s,
    shown.trans shows.shown, audited.entries, audited.last⟩

/-! CLEAR_CELL. -/

theorem exec_clearCell (s : State) (k : SlotId) :
    exec (.clearCell k) s = .next (s.whenOn fun u => u.takePosted k .clearCell State.clearCellOrder) := rfl

/-- A RECOVERED cell released to ACTIVE. -/
def releasedCell (x : Cell) : Cell :=
  { x with state := .active, faultRun := 0, recovery := 0, restarts := 0, released := true }

/-- DEGRADED of a deck as a cell that is being cleared leaves it. -/
def degradedBut (s : State) (c : CellId) (d : DeckId) : Bool :=
  (s.metro.active.cellsOf d).any fun e => e != c && ((s.cell e).state == .faulted || (s.cell e).state == .recovered)

theorem cell_setCell_other (s : State) {c e : CellId} (other : e ≠ c) (x : Cell) : (s.setCell c x).cell e = s.cell e := by
  have apart : c.val ≠ e.val := fun same => other (Fin.ext same.symm)
  simp [State.cell, State.setCell, List.getD_eq_getElem?_getD, List.getElem?_set_ne apart]

theorem inside_of_recovered {s : State} {c : CellId} (recovered : (s.cell c).state = .recovered) :
    c.val < s.cells.length := by
  by_contra beyond
  have absent : s.cell c = Cell.start := List.getD_eq_default _ _ (Nat.le_of_not_lt beyond)
  rw [absent] at recovered
  cases recovered

theorem deckDegraded_released {s : State} {c : CellId} (recovered : (s.cell c).state = .recovered) (d : DeckId) :
    (s.setCell c (releasedCell (s.cell c))).deckDegraded d = degradedBut s c d := by
  unfold State.deckDegraded degradedBut
  congr 1
  funext e
  by_cases same : e = c
  · rw [same, cell_setCell (inside_of_recovered recovered)]
    simp [releasedCell]
  · rw [cell_setCell_other s same]
    simp [same]

/-- The filter of the deck of a cell that is being cleared is restarted, and DEGRADED is judged there. -/
structure DeckReleased (c : CellId) (s u : State) : Prop where
  fitted : ∀ d, s.metro.active.fittedTo c = some d →
    u.chain.decks.get d = emptiedDeck (s.chain.decks.get d)
      ∧ u.monitor.decks.get d =
        { s.monitor.decks.get d with
          window := []
          fill := 0
          flags := { s.flagsOf d with filling := true, motion := true, degraded := degradedBut s c d } }
  others : ∀ d, s.metro.active.fittedTo c ≠ some d →
    u.chain.decks.get d = s.chain.decks.get d ∧ u.monitor.decks.get d = s.monitor.decks.get d

/-- A cell has been released, before that is audited. -/
structure Released (c : CellId) (s u : State) : Prop extends DeckReleased c s u where
  fields :
    ∃ a b m, u = { s with
      cells := s.cells.set c.val (releasedCell (s.cell c))
      chain := { s.chain with decks := a, cells := b }
      monitor := { s.monitor with decks := m } }

theorem released_of_unfitted {s : State} {c : CellId} (unfitted : s.metro.active.fittedTo c = none) :
    Released c s (s.setCell c (releasedCell (s.cell c))) where
  fields := ⟨_, _, _, rfl⟩
  fitted d h := by rw [unfitted] at h; cases h
  others _ _ := ⟨rfl, rfl⟩

theorem released_of_fitted {s : State} {c : CellId} {d : DeckId} (recovered : (s.cell c).state = .recovered)
    (fitted : s.metro.active.fittedTo c = some d) :
    Released c s (((s.setCell c (releasedCell (s.cell c))).restartFilter d).judgeDegraded d) := by
  obtain ⟨-, en⟩ := fittedTo_eq_some_iff.mp fitted
  have restarted := restartFilter_restarted (s := s.setCell c (releasedCell (s.cell c))) en
  generalize (s.setCell c (releasedCell (s.cell c))).restartFilter d = r at restarted
  have degraded : r.deckDegraded d = degradedBut s c d := by
    obtain ⟨_, _, _, rfl⟩ := restarted.fields
    exact deckDegraded_released recovered d
  have enabled : r.metro.active.isEnabled d = true := restarted.metro ▸ en
  obtain ⟨only, monitors⟩ := mapFlags_spec r d fun f => { f with degraded := r.deckDegraded d }
  have chain : (r.judgeDegraded d).chain = r.chain := by rw [show r.judgeDegraded d = _ from only]
  refine ⟨⟨?fitted, ?others⟩, ?fields⟩
  case fields =>
    obtain ⟨_, _, _, rfl⟩ := restarted.fields
    exact ⟨_, _, _, only⟩
  case fitted =>
    intro e same
    obtain rfl : d = e := Option.some.inj (fitted.symm.trans same)
    refine ⟨?_, (monitors d).trans ?_⟩
    · rw [chain, restarted.decks, if_pos List.mem_cons_self]
      rfl
    · rw [if_pos ⟨rfl, enabled⟩, degraded, State.flagsOf, restarted.monitors, if_pos List.mem_cons_self]
      rfl
  case others =>
    intro e other
    have apart : e ≠ d := fun same => other (same ▸ fitted)
    refine ⟨?_, (monitors e).trans ?_⟩
    · rw [chain, restarted.decks, if_neg (by simp [apart])]
      rfl
    · rw [if_neg (by simp [apart]), restarted.monitors, if_neg (by simp [apart])]
      rfl

/-- The detail of the audit entry of a release. -/
def restoredDetail (s : State) (c : CellId) : List Byte :=
  u8 c.val ++ u8 (deckByte (s.metro.active.fittedTo c)) ++ u8 0 ++ u8 0

/-- A release is audited and noticed on the state that it gives the cell and its deck. -/
theorem releaseCell_eq {s : State} {c : CellId} (recovered : (s.cell c).state = .recovered) :
    ∃ u, Released c s u ∧ s.releaseCell c = (u.writeAudit .cellRestored (restoredDetail s c)).cellNotice c := by
  cases fitted : s.metro.active.fittedTo c with
  | none =>
    refine ⟨_, released_of_unfitted fitted, ?_⟩
    rw [State.releaseCell, restoredDetail, fitted]
    rfl
  | some d =>
    refine ⟨_, released_of_fitted recovered fitted, ?_⟩
    rw [State.releaseCell, restoredDetail, fitted]
    rfl

theorem releaseNotice_logged (u s : State) (c : CellId) :
    Logged recordCauses u ((u.writeAudit .cellRestored (restoredDetail s c)).cellNotice c) :=
  auditNotice_logged ..

theorem releaseNotice_audited (u s : State) (c : CellId) :
    Audited .cellRestored (restoredDetail s c) u ((u.writeAudit .cellRestored (restoredDetail s c)).cellNotice c) :=
  auditNotice_audited ..

section Named

variable {s : State} {k : SlotId} {c : CellId} (named : Fin.ofNat 24 (s.order16 k 0).toNat = c)
include named

theorem clearCellOrder_of_recovered (recovered : (s.cell c).state = .recovered) :
    s.clearCellOrder k = (s.releaseCell c).answer k .done [] := by
  simp only [State.clearCellOrder, named, recovered]

theorem clearCellOrder_of_faulted (faulted : (s.cell c).state = .faulted) :
    s.clearCellOrder k = s.answer k .stillFaulted [] := by
  simp only [State.clearCellOrder, named, faulted]

theorem clearCellOrder_of_other (h : (s.cell c).state = .active ∨ (s.cell c).state = .unfitted) :
    s.clearCellOrder k = s.answer k .done [] := by
  obtain active | unfitted := h
  · simp only [State.clearCellOrder, named, active]
  · simp only [State.clearCellOrder, named, unfitted]

end Named

/-- CLEAR_CELL on a RECOVERED cell. -/
theorem clearCell_restores {s : State} {k : SlotId} (p : s.Posted k .clearCell)
    (inRange : s.badOrderParam k .clearCell = none) {c : CellId} (named : Fin.ofNat 24 (s.order16 k 0).toNat = c)
    (recovered : (s.cell c).state = .recovered) :
    ∃ t : State, exec (.clearCell k) s = .next t
      ∧ NoticedAnswer journalBytes k s t
      ∧ t = { s with
        cells := s.cells.set c.val (releasedCell (s.cell c))
        chain := { s.chain with decks := t.chain.decks, cells := t.chain.cells }
        monitor := { s.monitor with decks := t.monitor.decks }
        mem := t.mem
        intake := t.intake
        regs := t.regs
        journal := t.journal
        audit := t.audit
        store := { s.store with waiting := t.store.waiting } }
      ∧ DeckReleased c s t
      ∧ Audited .cellRestored (restoredDetail s c) s t := by
  obtain ⟨u, released, names⟩ := releaseCell_eq (s := s.beginOrder k .clearCell) (c := c) recovered
  have logged := releaseNotice_logged u (s.beginOrder k .clearCell) c
  have audited := releaseNotice_audited u (s.beginOrder k .clearCell) c
  have condition := cellNotice_condition (u.writeAudit .cellRestored (restoredDetail (s.beginOrder k .clearCell) c)) c
  have run := takePosted_runs p inRange rfl State.clearCellOrder
  have begun : Fin.ofNat 24 ((s.beginOrder k .clearCell).order16 k 0).toNat = c := by
    rw [beginOrder_order16 p.memory, named]
  rw [clearCellOrder_of_recovered (s := s.beginOrder k .clearCell) begun recovered, names] at run
  generalize (u.writeAudit .cellRestored (restoredDetail (s.beginOrder k .clearCell) c)).cellNotice c = v
    at logged audited condition run
  obtain ⟨decks, _, _, _, rfl⟩ := released
  have w := beginOrder_wf p.memory k .clearCell
  have intake : v.intake = (s.beginOrder k .clearCell).intake := by rw [logged.eq]
  have answered := noticed_answered p.memory ⟨logged.wf w, logged.memory w, intake, logged.raised, condition⟩
  have fields := answer_fields v k .done []
  generalize (v.answer k .done []).setPosition k = t at run answered fields
  obtain ⟨_, _, _, _, _, rfl⟩ := logged.fields
  obtain ⟨_, _, _, rfl⟩ := fields
  exact ⟨_, (exec_clearCell s k).trans (congrArg Host.Outcome.next run), answered, rfl,
    ⟨decks.fitted, decks.others⟩, audited.entries, audited.last⟩

/-- Settles O46: CLEAR_LINK by the state of the link, and CLEAR_CELL by the state of the cell. -/
theorem clearLinkAndClearCell : Obligations.ClearLinkAndClearCell := by
  refine ⟨fun s k p => ⟨fun resumed => ?restores, fun lost => ?lost, fun other => ?live⟩, fun s k p inRange => ?cell⟩
  case restores =>
    obtain ⟨t, next, answer, rest, decks, shown, audited⟩ := clearLink_restores p resumed
    exact ⟨t, next, answer.answered, rest, decks, shown, audited, answer.condition, answer.raised, answer.memory⟩
  case lost =>
    exact exec_answered (exec_clearLink s k) p rfl rfl (Nat.zero_le _) rfl
      (clearLinkOrder_of_lost (s := s.beginOrder k .clearLink) lost k)
  case live =>
    exact exec_answered (exec_clearLink s k) p rfl rfl (Nat.zero_le _) rfl
      (clearLinkOrder_of_other (s := s.beginOrder k .clearLink) other k)
  case cell =>
    intro c
    have named : Fin.ofNat 24 ((s.beginOrder k .clearCell).order16 k 0).toNat = c := by
      rw [beginOrder_order16 p.memory]
    refine ⟨fun recovered => ?_, fun faulted => ?_, fun other => ?_⟩
    · obtain ⟨t, next, answer, rest, decks, audited⟩ := clearCell_restores p inRange (c := c) rfl recovered
      exact ⟨t, next, answer.answered, rest, decks.fitted, decks.others, audited, answer.condition, answer.raised,
        answer.memory⟩
    · exact exec_answered (exec_clearCell s k) p inRange rfl (Nat.zero_le _) rfl
        (clearCellOrder_of_faulted named faulted)
    · exact exec_answered (exec_clearCell s k) p inRange rfl (Nat.zero_le _) rfl
        (clearCellOrder_of_other named other)

end Sys2Proof.ClearOrders
end

section
/-! SUPPORT. Strip lines (R61, R62, R64): edges and debounce holds, the edge queue and its consumption, stuck strips, and
what each cadence event judges of the bridge (R78, R79). -/

namespace Sys2Proof.Edges

open Sys2Proof Sys2Proof.Machine Sys2Proof.Weighing Sys2Proof.Links

@[simp] theorem PerLine.get_set {α : Type} (f : PerLine α) (l k : Line) (x : α) :
    (f.set l x).get k = if k = l then x else f.get k := by
  cases l <;> cases k <;> rfl

/-! Time while the holds still run (R61). -/

theorem holdOverdue_of_running {s : State} {l : Line}
    (runs : ∀ h, (s.tracker.lines.get l).hold = some h →
      ticksFrom h s.clock = 0 ∨ 2147483648 ≤ ticksFrom h s.clock) : s.holdOverdue l = none := by
  unfold State.holdOverdue
  cases hold : (s.tracker.lines.get l).hold with
  | none => rfl
  | some h =>
    have early := runs h hold
    exact if_neg (by omega)

/-- While no hold has ended, only the clock moves. -/
theorem stamped_of_holdsRun {s : State} {dt : W32} (r : s.Ready) (runs : s.holdsRun dt) (f : State → State) :
    s.stamped dt f = f (s.later dt) := by
  have running : ∀ l, (s.later dt).holdOverdue l = none := fun l => holdOverdue_of_running (runs l)
  have advanced : s.advance dt = s.later dt := catchUpHolds_of_none (firstOverdue_of_none running) 8
  rw [State.stamped, whenOn_of_ready r, advanced]

theorem holdsRun_of_noHolds {s : State} (idle : s.noHolds) (dt : W32) : s.holdsRun dt := by
  intro l h hold
  rw [idle l] at hold
  cases hold

/-- A hold that ends at the moment itself has not ended before it. -/
theorem holdsRun_of_ending {s : State} {dt : W32} {l : Line} (others : ∀ k, k ≠ l → (s.tracker.lines.get k).hold = none)
    (ends : (s.tracker.lines.get l).hold = some (s.clock + dt)) : s.holdsRun dt := by
  intro k h hold
  by_cases same : k = l
  · obtain rfl : s.clock + dt = h := by
      rw [same, ends] at hold
      exact Option.some.inj hold
    left
    simp [ticksFrom]
  · rw [others k same] at hold
    cases hold

/-! An accepted edge (R61, R62, R64). -/

theorem queueEdge_of_closed {s : State} (full : 64 ≤ s.tracker.queue.length) (closed : s.tracker.traverse = none)
    {e : Edge} : s.queueEdge e = { s with tracker := { s.tracker with overrun := true } } := by
  unfold State.queueEdge
  rw [if_neg (Nat.not_lt.mpr full)]
  split
  next opened => rw [closed] at opened; cases opened
  next => rfl

theorem queueEdge_of_open {s : State} (full : 64 ≤ s.tracker.queue.length) {tr : Traverse}
    (opened : s.tracker.traverse = some tr) {e : Edge} :
    s.queueEdge e =
      { s with
        tracker :=
          { s.tracker with traverse := some { tr with reasons := { tr.reasons with edgeOverrun := true } } } } := by
  unfold State.queueEdge State.setReason
  rw [if_neg (Nat.not_lt.mpr full), opened]

section Queue

variable {s : State} {l : Line} {pressed : Bool} {stamp : W32}

theorem edgeTaken_of_room (room : s.tracker.queue.length < 64) :
    edgeTaken s l pressed stamp = edgeAccepted s l pressed stamp :=
  if_pos room

theorem edgeTaken_of_full (full : 64 ≤ s.tracker.queue.length) :
    edgeTaken s l pressed stamp = edgeDiscarded s l pressed stamp :=
  if_neg (Nat.not_lt.mpr full)

theorem edgeDiscarded_of_closed (closed : s.tracker.traverse = none) :
    edgeDiscarded s l pressed stamp =
      { edgeAccepted s l pressed stamp with queue := s.tracker.queue, overrun := true } := by
  simp only [edgeDiscarded, closed]

theorem edgeDiscarded_of_open {tr : Traverse} (opened : s.tracker.traverse = some tr) :
    edgeDiscarded s l pressed stamp =
      { edgeAccepted s l pressed stamp with
        queue := s.tracker.queue
        traverse := some { tr with reasons := { tr.reasons with edgeOverrun := true } } } := by
  simp only [edgeDiscarded, opened]

/-- A line after an edge on it has been accepted. -/
def lineTaken (s : State) (l : Line) (pressed : Bool) (stamp : W32) : StripLine :=
  let x := s.tracker.lines.get l
  { pressed := pressed
    hold := some (stamp + BitVec.ofNat 32 (s.site.debounce * 10))
    pressedAt := if pressed then stamp else x.pressedAt
    stuck := if pressed then x.stuck else false }

/-- The line takes the edge, which joins the queue or is discarded. -/
theorem setLine_queueEdge :
    (s.setLine l (lineTaken s l pressed stamp)).queueEdge
        { line := l, on := pressed, stamp := stamp, latch := if pressed then some s.monitor.snapshot.fine else none } =
      { s with tracker := edgeTaken s l pressed stamp } := by
  by_cases room : s.tracker.queue.length < 64
  · rw [edgeTaken_of_room room]
    exact if_pos room
  · have full := Nat.le_of_not_lt room
    rw [edgeTaken_of_full full]
    cases h : s.tracker.traverse with
    | none =>
      rw [edgeDiscarded_of_closed h]
      exact queueEdge_of_closed (s := s.setLine l (lineTaken s l pressed stamp)) full h
    | some tr =>
      rw [edgeDiscarded_of_open h]
      exact queueEdge_of_open (s := s.setLine l (lineTaken s l pressed stamp)) full h

theorem acceptEdge_of_steady (steady : (s.tracker.lines.get l).stuck = false ∨ pressed = true) :
    s.acceptEdge l pressed stamp = { s with tracker := edgeTaken s l pressed stamp } := by
  have kept : ¬((s.tracker.lines.get l).stuck && !pressed) = true := by
    obtain free | on := steady
    · simp [free]
    · simp [on]
  exact (if_neg kept).trans setLine_queueEdge

/-- A stuck line that is released loses its mark with a notice. -/
theorem acceptEdge_of_release (stuck : (s.tracker.lines.get l).stuck = true) :
    s.acceptEdge l false stamp = ({ s with tracker := edgeTaken s l false stamp } : State).stripNotice l false := by
  have released : ((s.tracker.lines.get l).stuck && !false) = true := by simp [stuck]
  exact (if_pos released).trans (congrArg (State.stripNotice · l false) setLine_queueEdge)

end Queue

theorem stripNotice_journaled (s : State) (l : Line) (stuck : Bool) :
    Journaled recordCauses s (s.stripNotice l stuck) :=
  notice_journaled ..

theorem stripNotice_condition (s : State) (l : Line) (stuck : Bool) :
    (s.stripNotice l stuck).regs.cause &&& causeCondition = causeCondition :=
  notice_condition ..

/-! STRIP_EDGE and DEBOUNCE_HOLD_END. -/

/-- The part some ticks later, with the input of one line changed. -/
def inputChanged (s : State) (dt : W32) (l : Line) (pressed : Bool) : State :=
  { s.later dt with pins := { s.pins with strips := s.pins.strips.set l pressed } }

theorem exec_stripEdge {s : State} {dt : W32} (r : s.Ready) (runs : s.holdsRun dt) (l : Line) (pressed : Bool) :
    exec (.stripEdge dt l pressed) s = .next ((inputChanged s dt l pressed).stripChanged l pressed) := by
  have moved : (s.stamped dt fun t => t).setStrip l pressed = inputChanged s dt l pressed := by
    rw [stamped_of_holdsRun r runs]
    rfl
  have ready : (inputChanged s dt l pressed).Ready := ⟨r.power, r.whole⟩
  have run := whenOn_of_ready ready fun t => t.stripChanged l pressed
  rw [← moved] at run
  exact (congrArg Host.Outcome.next run).trans (by rw [moved])

theorem stripChanged_of_edge {s : State} {l : Line} {pressed : Bool} (idle : (s.tracker.lines.get l).hold = none)
    (edge : (s.tracker.lines.get l).pressed ≠ pressed) : s.stripChanged l pressed = s.acceptEdge l pressed s.clock :=
  if_pos (by simp [idle, edge])

theorem stripChanged_of_same {s : State} {l : Line} {pressed : Bool} (same : (s.tracker.lines.get l).pressed = pressed) :
    s.stripChanged l pressed = s :=
  if_neg (by simp [same])

theorem stripChanged_of_held {s : State} {l : Line} (held : (s.tracker.lines.get l).hold ≠ none) (pressed : Bool) :
    s.stripChanged l pressed = s :=
  if_neg (by simp [held])

theorem exec_debounceHoldEnd {s : State} {dt : W32} (r : s.Ready) (runs : s.holdsRun dt) (l : Line) :
    exec (.debounceHoldEnd dt l) s = .next ((s.later dt).holdEnds l) :=
  congrArg Host.Outcome.next (stamped_of_holdsRun r runs _)

theorem endHold_of_same {s : State} {l : Line} (same : s.pins.strips.get l = (s.tracker.lines.get l).pressed)
    (stamp : W32) : s.endHold l stamp = s.setLine l { s.tracker.lines.get l with hold := none } :=
  if_pos same

theorem endHold_of_edge {s : State} {l : Line} (edge : s.pins.strips.get l ≠ (s.tracker.lines.get l).pressed)
    (stamp : W32) : s.endHold l stamp = s.acceptEdge l (s.pins.strips.get l) stamp :=
  if_neg edge

/-! The consumption of the queue (R63, R65, R66). -/

section Consumed

variable {s : State} {e : Edge} {v : Int} (on : e.latch = some v)
include on

theorem consumeEdge_of_empty (empty : s.crossing (lineEnd e.line) = none) :
    s.consumeEdge e = s.setCrossing (lineEnd e.line) (some { outer := lineOuter e.line, stamp := e.stamp, latch := v }) := by
  simp only [State.consumeEdge, on, empty]

variable {c : Crossing} (opened : s.crossing (lineEnd e.line) = some c)
include opened

theorem consumeEdge_of_repeat (same : c.outer = lineOuter e.line) : s.consumeEdge e = s := by
  simp only [State.consumeEdge, on, opened, same, if_true]

theorem consumeEdge_of_late (other : c.outer ≠ lineOuter e.line) (late : 90000 < ticksFrom c.stamp e.stamp) :
    s.consumeEdge e =
      (s.abandon (lineEnd e.line)).setCrossing (lineEnd e.line)
        (some { outer := lineOuter e.line, stamp := e.stamp, latch := v }) := by
  simp only [State.consumeEdge, on, opened, other, if_false, crossingLimit, late, if_true]

theorem consumeEdge_of_entry (outer : c.outer = true) (inner : lineOuter e.line = false)
    (early : ticksFrom c.stamp e.stamp ≤ 90000) :
    s.consumeEdge e =
      (s.setCrossing (lineEnd e.line) none).handleCrossing
        { bridgeEnd := lineEnd e.line, entry := true, stamp := e.stamp, value := v, ticks := ticksFrom c.stamp e.stamp } := by
  simp only [State.consumeEdge, on, opened, outer, inner, crossingLimit, Nat.not_lt.mpr early, if_true, if_false,
    reduceCtorEq]

theorem consumeEdge_of_exit (inner : c.outer = false) (outer : lineOuter e.line = true)
    (early : ticksFrom c.stamp e.stamp ≤ 90000) :
    s.consumeEdge e =
      (s.setCrossing (lineEnd e.line) none).handleCrossing
        { bridgeEnd := lineEnd e.line
          entry := false
          stamp := c.stamp
          value := c.latch
          ticks := ticksFrom c.stamp e.stamp } := by
  simp only [State.consumeEdge, on, opened, outer, inner, crossingLimit, Nat.not_lt.mpr early, if_false, reduceCtorEq]

end Consumed

theorem consumeEdge_of_release {s : State} {e : Edge} (off : e.latch = none) : s.consumeEdge e = s := by
  simp only [State.consumeEdge, off]

/-- Settles O26: an edge on a line with no hold, one during a hold, and the consumption of the queue. -/
theorem stripEdgeJoinsTheQueue : Obligations.StripEdgeJoinsTheQueue := by
  refine ⟨?edge, ?held, fun s => rfl, fun s e => consumeEdge_of_release, ?consumed⟩
  case edge =>
    intro s dt l pressed w r idle u x
    rw [exec_stripEdge r (holdsRun_of_noHolds idle dt)]
    have accepted (edge : x.pressed ≠ pressed) :
        (inputChanged s dt l pressed).stripChanged l pressed = u.acceptEdge l pressed u.clock :=
      stripChanged_of_edge (idle l) edge
    refine ⟨fun same => ?_, fun edge steady room => ?_, fun edge steady full closed => ?_,
      fun tr edge steady full opened => ?_, fun edge stuck off => ?_⟩
    · exact congrArg Host.Outcome.next (stripChanged_of_same (s := inputChanged s dt l pressed) same)
    · rw [accepted edge, acceptEdge_of_steady (s := u) steady, edgeTaken_of_room (s := u) room]
    · rw [accepted edge, acceptEdge_of_steady (s := u) steady, edgeTaken_of_full (s := u) full,
        edgeDiscarded_of_closed (s := u) closed]
      rfl
    · rw [accepted edge, acceptEdge_of_steady (s := u) steady, edgeTaken_of_full (s := u) full,
        edgeDiscarded_of_open (s := u) opened]
      rfl
    · subst off
      rw [accepted edge, acceptEdge_of_release (s := u) stuck]
      have placed := stripNotice_journaled { u with tracker := edgeTaken u l false u.clock } l false
      exact ⟨_, rfl, placed.eq, stripNotice_condition .., placed.raised, placed.memory w⟩
  case held =>
    intro s dt l pressed r runs held
    rw [exec_stripEdge r runs]
    exact congrArg Host.Outcome.next (stripChanged_of_held (s := inputChanged s dt l pressed) held pressed)
  case consumed =>
    intro s e v on side outer opened
    exact ⟨consumeEdge_of_empty on, fun c h => ⟨consumeEdge_of_repeat on h, consumeEdge_of_late on h,
      consumeEdge_of_entry on h, consumeEdge_of_exit on h⟩⟩

/-! Stuck strips (R64). -/

theorem stuckFound_iff {s : State} {l : Line} :
    s.stuckFound l = true ↔ (s.tracker.lines.get l).pressed = true ∧ (s.tracker.lines.get l).stuck = false
      ∧ 600000 < ticksFrom (s.tracker.lines.get l).pressedAt s.clock := by
  simp only [State.stuckFound, Bool.and_eq_true, Bool.not_eq_true', decide_eq_true_eq, and_assoc]
  rfl

/-! What the bridge shows (R78, R79). -/

theorem mem_allLines (l : Line) : l ∈ allLines := by
  cases l <;> decide

theorem judgeContained_iff {s : State} :
    s.judgeContained = true ↔
      ∃ tr, s.tracker.traverse = some tr ∧ tr.closing = none ∧ tr.exits = 0 ∧ 1 ≤ tr.axlesOn
        ∧ (∀ l, (s.tracker.lines.get l).pressed = false) ∧ s.tracker.crossA = none ∧ s.tracker.crossB = none
        ∧ (∀ a ∈ tr.axles, a.window = none) ∧ tr.reasons.secondVehicle = false := by
  unfold State.judgeContained
  cases s.tracker.traverse with
  | none => simp
  | some tr => simp [mem_allLines, and_assoc]

/-- The static value after a cadence event (R79). -/
def staticTaken (s : State) (tr : Traverse) : Option Int :=
  if tr.static = none ∧ s.judgeContained = true ∧ s.monitor.snapshot.flags.motion = false then
    some s.monitor.snapshot.gross
  else tr.static

theorem staticTaken_eq (s : State) (tr : Traverse) :
    (match tr.static with
      | some v => some v
      | none => if s.judgeContained && s.monitor.snapshot.flags.still then some s.monitor.snapshot.gross else none) =
      staticTaken s tr := by
  unfold staticTaken
  cases static : tr.static with
  | some v => simp
  | none => simp [DeckFlags.still]

theorem judgeBridge_of_closed {s : State} (closed : s.tracker.traverse = none) :
    s.judgeBridge = { s with tracker := { s.tracker with contained := false } } := by
  have free : s.judgeContained = false := by
    simp only [State.judgeContained, closed]
  simp only [State.judgeBridge, closed, free]

theorem judgeBridge_of_open {s : State} {tr : Traverse} (opened : s.tracker.traverse = some tr) :
    s.judgeBridge =
      { s with
        tracker :=
          { s.tracker with
            contained := s.judgeContained
            traverse :=
              some
                { tr with
                  static := staticTaken s tr
                  reasons :=
                    { tr.reasons with linkFault := tr.reasons.linkFault || s.monitor.snapshot.flags.linkFault } } } } := by
  rw [← staticTaken_eq]
  simp only [State.judgeBridge, opened]
  rfl

/-- Settles O27: the end of a hold, a stuck strip, and what is judged of the bridge. -/
theorem holdEndAndStuckStrip : Obligations.HoldEndAndStuckStrip := by
  refine ⟨?ends, ?taken, ?idle, ?stuck, fun s l h => exec_ownCommand_of_not h nofun nofun, fun s => judgeContained_iff,
    fun s => judgeBridge_of_closed, fun s tr => judgeBridge_of_open⟩
  case ends =>
    intro s dt l r others ends x
    have ended : exec (.debounceHoldEnd dt l) s = .next ((s.later dt).endHold l (s.clock + dt)) :=
      (exec_debounceHoldEnd r (holdsRun_of_ending others ends) l).trans (congrArg Host.Outcome.next (if_pos ends))
    rw [ended]
    refine ⟨fun same => ?_, fun edge steady => ?_, fun w edge stuck off => ?_⟩
    · exact congrArg Host.Outcome.next (endHold_of_same (s := s.later dt) same _)
    · have level : (s.later dt).pins.strips.get l = s.pins.strips.get l := rfl
      rw [endHold_of_edge (s := s.later dt) edge, level, acceptEdge_of_steady (s := s.later dt) steady]
    · have level : (s.later dt).pins.strips.get l = false := off
      rw [endHold_of_edge (s := s.later dt) edge, level, acceptEdge_of_release (s := s.later dt) stuck]
      have placed := stripNotice_journaled
        { s.later dt with tracker := edgeTaken (s.later dt) l false (s.clock + dt) } l false
      exact ⟨_, rfl, placed.eq, stripNotice_condition .., placed.raised, placed.memory w⟩
  case taken =>
    intro s l pressed stamp accepted kept
    exact ⟨edgeTaken_of_room, fun full closed => (edgeTaken_of_full full).trans (edgeDiscarded_of_closed closed),
      fun tr full opened => (edgeTaken_of_full full).trans (edgeDiscarded_of_open opened)⟩
  case idle =>
    intro s dt l r idle
    refine (exec_debounceHoldEnd r (holdsRun_of_noHolds idle dt) l).trans (congrArg Host.Outcome.next (if_neg ?_))
    have none : ((s.later dt).tracker.lines.get l).hold = Option.none := idle l
    rw [none]
    exact nofun
  case stuck =>
    intro s l rest w stopped x
    have placed := stripNotice_journaled
      { s with
        unfinished := []
        tracker := { s.tracker with lines := s.tracker.lines.set l { x with stuck := true } } } l true
    exact ⟨stuckFound_iff.mp stopped.due, _, exec_ownCommand_of_stopped stopped nofun nofun, placed.eq,
      stripNotice_condition .., placed.raised, placed.memory w⟩

end Sys2Proof.Edges
end

section
/-! SUPPORT. Crossings and traverses (R65 to R77): settle windows, abandoned crossings, the axle that is recorded, and a
closed crossing by the state that the tracker is in. -/

namespace Sys2Proof.Crossings

open Sys2Proof Sys2Proof.Machine Sys2Proof.Weighing

/-! The open traverse. -/

theorem setReason_of_open {s : State} {tr : Traverse} (opened : s.tracker.traverse = some tr) (f : Reasons → Reasons) :
    s.setReason f = s.setTraverse (some { tr with reasons := f tr.reasons }) := by
  simp only [State.setReason, opened]
  rfl

theorem setReason_of_closed {s : State} (closed : s.tracker.traverse = none) (f : Reasons → Reasons) :
    s.setReason f = s := by
  simp only [State.setReason, closed]

theorem setSecondVehicle_of_set {s : State} {tr : Traverse} (opened : s.tracker.traverse = some tr)
    (set : tr.reasons.secondVehicle = true) : s.setSecondVehicle = s := by
  simp only [State.setSecondVehicle, opened, set, if_true]

/-- The first time, a burst is called and the heads turn (R74). -/
theorem setSecondVehicle_of_unset {s : State} {tr : Traverse} (opened : s.tracker.traverse = some tr)
    (unset : tr.reasons.secondVehicle = false) :
    s.setSecondVehicle =
      { s with
        tracker := { s.tracker with traverse := some { tr with reasons := { tr.reasons with secondVehicle := true } } }
        lane := (s.lane.burstCall s.link.cadence).mark .secondVehicle } := by
  have written := setReason_of_open opened fun r => { r with secondVehicle := true }
  simp only [State.setSecondVehicle, opened, unset, Bool.false_eq_true, if_false, written]
  rfl

/-! Settle windows (R72). -/

/-- An axle settled with a fine value. -/
theorem settle_eq (a : Axle) (fine : Int) :
    a.settle fine =
      if a.window = some 0 then
        { a with post := some fine, estimate := max 0 (fine - a.pre), short := decide (fine < a.pre), window := none }
      else a := rfl

theorem settleDue_iff {s : State} :
    s.settleDue = true ↔ ∃ tr, s.tracker.traverse = some tr ∧ ∃ a ∈ tr.axles, a.window = some 0 := by
  unfold State.settleDue
  cases s.tracker.traverse with
  | none => simp
  | some tr => simp

theorem endWindows_of_open {s : State} {tr : Traverse} (opened : s.tracker.traverse = some tr) :
    s.endWindows =
      s.setTraverse
        (some
          { tr with
            axles := tr.axles.map fun a => a.settle s.monitor.snapshot.fine
            reasons :=
              { tr.reasons with
                short :=
                  tr.reasons.short || (tr.axles.map fun a => a.settle s.monitor.snapshot.fine).any (·.short) } }) := by
  simp only [State.endWindows, opened]

/-- An axle whose window is closed early with a bridge value (R73). -/
theorem closeEarly_eq (a : Axle) (value : Int) :
    a.closeEarly value =
      if a.window = none then a
      else { a with post := some value, estimate := max 0 (value - a.pre), short := true, window := none } := by
  unfold Axle.closeEarly
  cases h : a.window with
  | none => simp
  | some n => simp

theorem closeEarly_window (a : Axle) (value : Int) : (a.closeEarly value).window = none := by
  rw [closeEarly_eq]
  split
  · assumption
  · rfl

/-! Abandoned crossings (R66). -/

theorem crossingOverdue_iff {s : State} {side : BridgeEnd} :
    s.crossingOverdue side = true ↔ ∃ c, s.crossing side = some c ∧ 90000 < ticksFrom c.stamp s.clock := by
  unfold State.crossingOverdue
  cases s.crossing side with
  | none => simp
  | some c =>
    simp only [decide_eq_true_eq, Option.some.injEq, exists_eq_left']
    rfl

theorem setCrossing_traverse (s : State) (side : BridgeEnd) (c : Option Crossing) :
    (s.setCrossing side c).tracker.traverse = s.tracker.traverse := by
  cases side <;> rfl

theorem abandon_of_quiet {s : State} {side : BridgeEnd} {c : Crossing} (opened : s.crossing side = some c)
    (quiet : c.outer = true ∨ s.tracker.traverse = none) : s.abandon side = s.setCrossing side none := by
  simp only [State.abandon, opened]
  split
  · rfl
  next inner =>
    have closed := quiet.resolve_left inner
    exact setReason_of_closed ((setCrossing_traverse s side none).trans closed) _

theorem abandon_of_lost {s : State} {side : BridgeEnd} {c : Crossing} {tr : Traverse}
    (opened : s.crossing side = some c) (inner : c.outer = false) (traverse : s.tracker.traverse = some tr) :
    s.abandon side =
      (s.setCrossing side none).setTraverse (some { tr with reasons := { tr.reasons with crossingLost := true } }) := by
  simp only [State.abandon, opened, inner, Bool.false_eq_true, if_false]
  exact setReason_of_open ((setCrossing_traverse s side none).trans traverse) _

/-! The axle that is recorded (R67, R68, R70, R71). -/

/-- An axle as its crossing gives it, with no axle before it. -/
def freshAxle (s : State) (c : Closed) : Axle :=
  { stamp := c.stamp
    speed := crossingSpeed s.site.spacing c.ticks
    overspeed := decide (checkSpeed s.site.maxSpeed < crossingSpeed s.site.spacing c.ticks)
    slow := decide (crossingSpeed s.site.spacing c.ticks < 56)
    spacing := .first
    pre := c.value
    post := none
    estimate := 0
    short := false
    window := some (roundDiv s.site.settle 5).toNat }

theorem newAxle_of_first (s : State) (c : Closed) {axles : List Axle} (first : axles.getLast? = none) :
    s.newAxle c axles = freshAxle s c := by
  simp only [State.newAxle, first]
  rfl

theorem newAxle_of_next (s : State) (c : Closed) {axles : List Axle} {b : Axle} (last : axles.getLast? = some b) :
    s.newAxle c axles = { freshAxle s c with spacing := spacingBetween b (freshAxle s c) } := by
  simp only [State.newAxle, last]
  rfl

/-- Beside its spacing, an axle is as its crossing gives it. -/
theorem newAxle_eq (s : State) (c : Closed) (axles : List Axle) :
    s.newAxle c axles = { freshAxle s c with spacing := (s.newAxle c axles).spacing } := by
  cases last : axles.getLast? with
  | none =>
    rw [newAxle_of_first s c last]
  | some b => rw [newAxle_of_next s c last]

theorem newAxle_slow (s : State) (c : Closed) (axles : List Axle) :
    (s.newAxle c axles).slow = (freshAxle s c).slow := by
  rw [newAxle_eq]

theorem spacingBetween_of_slow {b a : Axle} (h : a.slow = true ∨ b.slow = true) : spacingBetween b a = .unknown :=
  if_pos (by simpa [or_comm] using h)

theorem spacingBetween_of_fast {b a : Axle} (h : a.slow = false) (k : b.slow = false) :
    spacingBetween b a =
      .mm (roundDiv (roundDiv (a.speed + b.speed) 2 * ticksFrom b.stamp a.stamp) 10000).toNat :=
  if_neg (by simp [h, k])

/-! A closed crossing (R69 to R76). -/

theorem markAxle_of_opening (degraded linkFault edgeOverrun : Bool) (a : Axle) :
    ({ Reasons.none with degraded := degraded, linkFault := linkFault, edgeOverrun := edgeOverrun } : Reasons).markAxle a =
      { Reasons.none with
        degraded := degraded
        linkFault := linkFault
        edgeOverrun := edgeOverrun
        overspeed := a.overspeed
        slow := a.slow } := by
  simp [Reasons.markAxle, Reasons.none]

section Empty

variable {s : State} {c : Closed} (closed : s.tracker.traverse = none)
include closed

theorem handleCrossing_of_stray (exit : c.entry = false) : s.handleCrossing c = s := by
  simp only [State.handleCrossing, closed, exit, Bool.false_eq_true, if_false]

theorem handleCrossing_opens (entry : c.entry = true) : s.handleCrossing c = s.openTraverse c := by
  simp only [State.handleCrossing, closed, entry, if_true]

end Empty

section Open

variable {s : State} {c : Closed} {tr : Traverse} (opened : s.tracker.traverse = some tr)
include opened

section Active

variable (active : tr.closing = none)
include active

theorem handleCrossing_of_near (entry : c.entry = true) (near : c.bridgeEnd = tr.entryEnd) :
    s.handleCrossing c = s.nextAxle tr c := by
  simp only [State.handleCrossing, opened, active, entry, near, if_true]

theorem handleCrossing_of_far (entry : c.entry = true) (far : c.bridgeEnd ≠ tr.entryEnd) :
    s.handleCrossing c = s.farEntry tr c := by
  simp only [State.handleCrossing, opened, active, entry, far, if_true, if_false]

theorem handleCrossing_of_exit (exit : c.entry = false) : s.handleCrossing c = s.countExit tr c := by
  simp only [State.handleCrossing, opened, active, exit, Bool.false_eq_true, if_false]

end Active

variable {n : Nat} (closing : tr.closing = some n)
include closing

theorem handleCrossing_reports (entry : c.entry = true) : s.handleCrossing c = s.reportTraverse.openTraverse c := by
  simp only [State.handleCrossing, opened, closing, entry, if_true]

theorem handleCrossing_of_lost (exit : c.entry = false) :
    s.handleCrossing c = s.setTraverse (some { tr with reasons := { tr.reasons with crossingLost := true } }) := by
  simp only [State.handleCrossing, opened, closing, exit, Bool.false_eq_true, if_false]
  rw [setReason_of_open opened, closing]

end Open

/-- A traverse at an ENTRY: its windows closed early, one axle more on the bridge, its static value discarded. -/
def enteredTraverse (tr : Traverse) (c : Closed) : Traverse :=
  { tr.closeWindows c.value with entries := tr.entries + 1, axlesOn := tr.axlesOn + 1, static := none }

/-- The same with the axle of the crossing recorded. -/
def recordedTraverse (s : State) (tr : Traverse) (c : Closed) : Traverse :=
  let axle := s.newAxle c (enteredTraverse tr c).axles
  { enteredTraverse tr c with
    axles := (enteredTraverse tr c).axles ++ [axle]
    reasons := (enteredTraverse tr c).reasons.markAxle axle }

theorem enteredTraverse_length (tr : Traverse) (c : Closed) : (enteredTraverse tr c).axles.length = tr.axles.length :=
  List.length_map _

section Entry

variable (s : State) {tr : Traverse} {c : Closed}

theorem nextAxle_of_full (full : 32 ≤ tr.axles.length) :
    s.nextAxle tr c =
      s.setTraverse
        (some
          { enteredTraverse tr c with
            reasons := { (enteredTraverse tr c).reasons with edgeOverrun := true } }) :=
  if_pos ((enteredTraverse_length tr c).symm ▸ full)

variable (room : tr.axles.length < 32)
include room

theorem nextAxle_of_room :
    s.nextAxle tr c =
      match (s.newAxle c (enteredTraverse tr c).axles).spacing with
      | .mm n =>
        if s.site.vehicleGap < n then (s.setTraverse (some (recordedTraverse s tr c))).setSecondVehicle
        else s.setTraverse (some (recordedTraverse s tr c))
      | .unknown => s.setTraverse (some (recordedTraverse s tr c))
      | .first => s.setTraverse (some (recordedTraverse s tr c)) :=
  if_neg (by have := enteredTraverse_length tr c; exact Nat.not_le.mpr (this.symm ▸ room))

theorem nextAxle_of_gap {n : Nat} (spaced : (s.newAxle c (enteredTraverse tr c).axles).spacing = .mm n)
    (wide : s.site.vehicleGap < n) :
    s.nextAxle tr c = (s.setTraverse (some (recordedTraverse s tr c))).setSecondVehicle := by
  rw [nextAxle_of_room s room, spaced]
  exact if_pos wide

theorem nextAxle_of_near
    (near : ∀ n, (s.newAxle c (enteredTraverse tr c).axles).spacing = .mm n → n ≤ s.site.vehicleGap) :
    s.nextAxle tr c = s.setTraverse (some (recordedTraverse s tr c)) := by
  rw [nextAxle_of_room s room]
  split
  next n spaced => exact if_neg (Nat.not_lt.mpr (near n spaced))
  next => rfl
  next => rfl

end Entry

/-- Settles O28, from the events of a cadence event to a closed crossing in each state of the tracker. -/
theorem windowEndsAndAbandonedCrossings : Obligations.WindowEndsAndAbandonedCrossings := by
  refine ⟨?windows, fun s h => exec_ownCommand_of_not h nofun nofun, ?crossings,
    fun s side h => exec_ownCommand_of_not h nofun nofun, ?axle, ?empty, ?active, ?closing,
    fun s tr opened => ⟨setSecondVehicle_of_set opened, setSecondVehicle_of_unset opened⟩⟩
  case windows =>
    intro s rest stopped
    obtain ⟨tr, opened, run⟩ := settleDue_iff.mp stopped.due
    refine ⟨tr, opened, run, (exec_ownCommand_of_stopped stopped nofun nofun).trans ?_⟩
    exact congrArg (fun t : State => Host.Outcome.next (t.run true rest))
      (endWindows_of_open (s := { s with unfinished := [] }) opened)
  case crossings =>
    intro s side rest stopped
    obtain ⟨c, opened, late⟩ := crossingOverdue_iff.mp stopped.due
    have whole : ({ s with unfinished := [] } : State).crossing side = some c := opened
    have taken := exec_ownCommand_of_stopped stopped nofun nofun
    refine ⟨c, opened, late, fun quiet => ?_, fun tr inner traverse => ?_⟩
    · exact taken.trans (congrArg (fun t : State => Host.Outcome.next (t.run true rest)) (abandon_of_quiet whole quiet))
    · exact taken.trans
        (congrArg (fun t : State => Host.Outcome.next (t.run true rest)) (abandon_of_lost whole inner traverse))
  case axle =>
    intro s c axles v a
    have slow : a.slow = (freshAxle s c).slow := newAxle_slow s c axles
    refine ⟨newAxle_eq s c axles, fun empty => ?_, fun b last => ⟨fun h => ?_, fun h k => ?_⟩⟩
    · exact congrArg Axle.spacing (newAxle_of_first s c (empty ▸ rfl))
    · refine (congrArg Axle.spacing (newAxle_of_next s c last)).trans (spacingBetween_of_slow ?_)
      rwa [slow] at h
    · refine (congrArg Axle.spacing (newAxle_of_next s c last)).trans (spacingBetween_of_fast ?_ k)
      rwa [slow] at h
  case empty =>
    intro s c closed number class_ a
    refine ⟨handleCrossing_of_stray closed, fun entry => ?_⟩
    rw [handleCrossing_opens closed entry, State.openTraverse, markAxle_of_opening]
  case active =>
    intro s c tr opened active
    have closedEarly : (tr.axles.map fun a =>
        if a.window = none then a
        else { a with post := some c.value, estimate := max 0 (c.value - a.pre), short := true, window := none }) =
        tr.axles.map fun a => a.closeEarly c.value := by
      simp only [closeEarly_eq]
    rw [closedEarly]
    intro axles early entered a recorded
    refine ⟨fun entry near => ⟨fun full => ?_, fun room n spaced wide => ?_, fun room spaced => ?_⟩, fun entry far => ?_,
      fun exit => ?_⟩
    · exact (handleCrossing_of_near opened active entry near).trans (nextAxle_of_full s full)
    · exact (handleCrossing_of_near opened active entry near).trans (nextAxle_of_gap s room spaced wide)
    · exact (handleCrossing_of_near opened active entry near).trans (nextAxle_of_near s room spaced)
    · exact handleCrossing_of_far opened active entry far
    · exact handleCrossing_of_exit opened active exit
  case closing =>
    intro s c tr n opened closing
    exact ⟨handleCrossing_reports opened closing, handleCrossing_of_lost opened closing⟩

end Sys2Proof.Crossings
end

section
/-! SUPPORT. The report of a traverse (R80 to R87): the groups of axles and how each is judged, the static comparison,
the verdict and the quality. -/

namespace Sys2Proof.Reports

open Sys2Proof Sys2Proof.Machine Sys2Proof.Weighing Sys2Proof.Crossings

/-! Groups of axles (R80). -/

theorem startsGroup_iff {gap : Nat} {a : Axle} :
    startsGroup gap a = true ↔ a.spacing = .first ∨ a.spacing = .unknown ∨ ∃ n, a.spacing = .mm n ∧ gap < n := by
  unfold startsGroup
  cases a.spacing with
  | first => simp
  | unknown => simp
  | mm n => simp

/-- A division of axles into groups as R80 has it: no group is empty, within a group no axle after the first begins a
group, and the first axle of every group after the first one does. -/
structure Grouped (gap : Nat) (axles : List Axle) (groups : List (List Axle)) : Prop where
  flat : groups.flatten = axles
  whole : ∀ g ∈ groups, g ≠ [] ∧ ∀ a ∈ g.tail, startsGroup gap a = false
  begins : ∀ g ∈ groups.tail, ∀ a, g.head? = some a → startsGroup gap a = true

theorem groupAxles_last (gap : Nat) (a : Axle) : groupAxles gap [a] = [[a]] := rfl

/-- The next axle stands apart or joins the group of the one after it. -/
theorem groupAxles_cons {gap : Nat} {a b : Axle} {rest : List Axle} {g : List Axle} {gs : List (List Axle)}
    (divided : groupAxles gap (b :: rest) = g :: gs) :
    groupAxles gap (a :: b :: rest) = if startsGroup gap b then [a] :: g :: gs else (a :: g) :: gs := by
  rw [groupAxles, divided]

theorem grouped_groupAxles (gap : Nat) (axles : List Axle) : Grouped gap axles (groupAxles gap axles) := by
  induction axles with
  | nil => exact ⟨rfl, nofun, nofun⟩
  | cons a rest ih =>
    cases rest with
    | nil => exact ⟨rfl, by simp [groupAxles_last], by simp [groupAxles_last]⟩
    | cons b rest =>
      obtain ⟨flat, whole, begins⟩ := ih
      cases divided : groupAxles gap (b :: rest) with
      | nil => rw [divided] at flat; cases flat
      | cons g gs =>
        rw [divided] at flat whole begins
        obtain ⟨⟨nonempty, joined⟩, others⟩ := List.forall_mem_cons.mp whole
        obtain ⟨x, g, rfl⟩ := List.exists_cons_of_ne_nil nonempty
        obtain ⟨rfl, _⟩ : x = b ∧ g ++ gs.flatten = rest := by simpa using flat
        rw [groupAxles_cons divided]
        split
        next apart =>
          refine ⟨by simpa using flat, ?_, ?_⟩
          · exact List.forall_mem_cons.mpr ⟨by simp, whole⟩
          · refine List.forall_mem_cons.mpr ⟨fun y first => ?_, begins⟩
            obtain rfl : x = y := Option.some.inj first
            exact apart
        next near =>
          refine ⟨by simpa using flat, ?_, begins⟩
          refine List.forall_mem_cons.mpr ⟨⟨by simp, List.forall_mem_cons.mpr ⟨?_, joined⟩⟩, others⟩
          exact Bool.eq_false_of_not_eq_true near

/-- A group has as many axles as make it OVERLONG where it is not empty (R80). -/
theorem groupType_overlong_iff {n : Nat} (pos : 0 < n) : groupType n = .overlong ↔ 5 ≤ n := by
  unfold groupType
  split
  all_goals simp_all
  omega

theorem groupType_of_many {n : Nat} (many : 5 ≤ n) : groupType n = .overlong :=
  (groupType_overlong_iff (by omega)).mpr many

/-! Groups judged (R84). -/

/-- Every group of a report is one of the groups of its axles, judged. -/
theorem exists_of_mem_judgeGroups {c : ClassEntry} {e : Int} {groups : List (List Axle)} {g : Group}
    (member : g ∈ judgeGroups c e groups) : ∃ first, ∃ axles ∈ groups, g = judgeGroup c e first axles := by
  cases groups with
  | nil => cases member
  | cons axles rest =>
    obtain rfl | later := List.mem_cons.mp member
    · exact ⟨true, axles, List.mem_cons_self, rfl⟩
    · obtain ⟨others, within, rfl⟩ := List.mem_map.mp later
      exact ⟨false, others, List.mem_cons_of_mem _ within, rfl⟩

theorem kind_overlong_iff {tr : Traverse} {gap : Nat} {e : Int} {g : Group} (member : g ∈ (tr.report gap e).groups) :
    g.kind = .overlong ↔ 5 ≤ g.axles := by
  obtain ⟨first, axles, within, rfl⟩ := exists_of_mem_judgeGroups member
  obtain ⟨nonempty, -⟩ := (grouped_groupAxles gap tr.axles).whole axles (List.mem_of_mem_take within)
  exact groupType_overlong_iff (List.length_pos_iff.mpr nonempty)

theorem overLimit_iff {load : Int} {limit tolerance : Nat} {e : Int} :
    overLimit load limit tolerance e = true ↔ thresholdOf limit tolerance e < load ∨ limit = 0 := by
  simp [overLimit]

/-! The static comparison (R85). -/

/-- The sum of the estimates over every recorded axle. -/
def estimated (tr : Traverse) : Int :=
  (tr.axles.map (·.estimate)).sum

theorem staticAgrees_iff {total static e : Int} :
    staticAgrees total static e = true ↔
      ((total - static).natAbs : Int) ≤ max (roundDiv (2 * (static.natAbs : Int)) 100) (10 * e) :=
  decide_eq_true_iff

/-- What the static comparison gives a report. -/
structure Compared (tr : Traverse) (r : Report) (gross : Int) (agreed disagree : Bool) : Prop where
  gross : r.gross = gross
  fromStatic : r.fromStatic = agreed
  disagree : r.reasons.disagree = disagree

theorem report_of_none {tr : Traverse} (none : tr.static = none) (gap : Nat) (e : Int) :
    Compared tr (tr.report gap e) (estimated tr) false tr.reasons.disagree := by
  constructor <;> simp [Traverse.report, none, estimated]

theorem report_of_agreed {tr : Traverse} {v : Int} (static : tr.static = some v) (gap : Nat) {e : Int}
    (agrees : staticAgrees (estimated tr) v e = true) :
    Compared tr (tr.report gap e) v true tr.reasons.disagree := by
  unfold estimated at agrees
  constructor <;> simp [Traverse.report, static, agrees]

theorem report_of_disagreed {tr : Traverse} {v : Int} (static : tr.static = some v) (gap : Nat) {e : Int}
    (differs : staticAgrees (estimated tr) v e = false) :
    Compared tr (tr.report gap e) (estimated tr) false true := by
  unfold estimated at differs
  constructor <;> simp [Traverse.report, static, differs, estimated]

/-- Settles O30, by what the comparison gives where a static value is held and where none is. -/
theorem staticComparisonFixesTheGross : Obligations.StaticComparisonFixesTheGross := by
  intro tr gap e total r
  refine ⟨fun none => ?_, fun v static => ⟨fun near => ?_, fun far => ?_⟩⟩
  · obtain ⟨gross, fromStatic, disagree⟩ := report_of_none none gap e
    exact ⟨gross, fromStatic, disagree⟩
  · obtain ⟨gross, fromStatic, disagree⟩ := report_of_agreed static gap (staticAgrees_iff.mpr near)
    exact ⟨gross, fromStatic, disagree⟩
  · have differs : staticAgrees (estimated tr) v e = false :=
      Bool.eq_false_of_not_eq_true fun agrees => absurd (staticAgrees_iff.mp agrees) (Int.not_le.mpr far)
    obtain ⟨gross, fromStatic, disagree⟩ := report_of_disagreed static gap differs
    exact ⟨gross, fromStatic, disagree⟩

/-! A summary handed to its visit (R88, R132). -/

section Visit

variable {s : State} {n : W32} {i : Nat} {v : Visit}

theorem handSummary_of_absent (absent : s.placeOf n = none) (m : Summary) : s.handSummary n m = s := by
  simp only [State.handSummary, absent]

variable (at_ : s.placeOf n = some i)
include at_

theorem handSummary_of_vacant (vacant : s.place i = none) (m : Summary) : s.handSummary n m = s := by
  simp only [State.handSummary, at_, vacant]

variable (found : s.place i = some v)
include found

theorem handSummary_of_held (held : v.status = .held) (m : Summary) : s.handSummary n m = s.writeSummary i v m := by
  simp only [State.handSummary, at_, found, held]

theorem handSummary_of_adding (adding : v.status = .adding) (m : Summary) :
    s.handSummary n m = s.setPlace i (some { v with kept := some m }) := by
  simp only [State.handSummary, at_, found, adding]

theorem handSummary_of_past (past : v.status = .closing ∨ v.status = .removing) (m : Summary) :
    s.handSummary n m = s := by
  obtain closing | removing := past
  · simp only [State.handSummary, at_, found, closing]
  · simp only [State.handSummary, at_, found, removing]

end Visit

theorem writeSummary_of_latched {s : State} (latched : s.store.latch = true) (i : Nat) (v : Visit) (m : Summary) :
    s.writeSummary i v m = s.setPlace i (some { v with entry := { v.entry with summary := some m }, kept := none }) :=
  if_pos latched

theorem writeSummary_of_free {s : State} (free : s.store.latch = false) (i : Nat) (v : Visit) (m : Summary) :
    s.writeSummary i v m =
      (s.setPlace i (some { v with entry := { v.entry with summary := some m }, kept := none })).requestJob
        (.summary v.entry.number) (visitRows i { v.entry with summary := some m }) :=
  if_neg (by simp [free])

/-- A summary changes the visits and the jobs that wait. -/
theorem handSummary_fields (s : State) (n : W32) (m : Summary) :
    ∃ x y, s.handSummary n m = { s with visits := x, store := { s.store with waiting := y } } := by
  unfold State.handSummary State.writeSummary
  repeat' split
  all_goals exact ⟨_, _, rfl⟩

/-- The part with the lane, the memory, the registers, the journal and the pieces left of another. -/
def journaledAs (s p : State) : State :=
  { s with lane := p.lane, mem := p.mem, regs := p.regs, journal := p.journal, unfinished := p.unfinished }

/-- A summary is handed on alike whatever the journal has placed and the lane shows. -/
theorem handSummary_journaledAs (s p : State) (n : W32) (m : Summary) :
    (journaledAs s p).handSummary n m = journaledAs (s.handSummary n m) p := by
  cases place : s.placeOf n with
  | none => rw [handSummary_of_absent place, handSummary_of_absent (s := journaledAs s p) place]
  | some i =>
    cases found : s.place i with
    | none => rw [handSummary_of_vacant place found, handSummary_of_vacant (s := journaledAs s p) place found]
    | some v =>
      cases status : v.status with
      | adding =>
        rw [handSummary_of_adding place found status,
          handSummary_of_adding (s := journaledAs s p) place found status]
        rfl
      | held =>
        rw [handSummary_of_held place found status, handSummary_of_held (s := journaledAs s p) place found status]
        cases latch : s.store.latch with
        | true => rw [writeSummary_of_latched latch, writeSummary_of_latched (s := journaledAs s p) latch]; rfl
        | false => rw [writeSummary_of_free latch, writeSummary_of_free (s := journaledAs s p) latch]; rfl
      | closing =>
        rw [handSummary_of_past place found (.inl status),
          handSummary_of_past (s := journaledAs s p) place found (.inl status)]
      | removing =>
        rw [handSummary_of_past place found (.inr status),
          handSummary_of_past (s := journaledAs s p) place found (.inr status)]

/-! The report handed on (R87). -/

/-- The part after a visit, if one is bound, has been handed a summary. -/
def summarized (s : State) (binding : Option W32) (m : Summary) : State :=
  match binding with
  | some n => s.handSummary n m
  | none => s

theorem summarized_fields (s : State) (binding : Option W32) (m : Summary) :
    ∃ x y, summarized s binding m = { s with visits := x, store := { s.store with waiting := y } } := by
  cases binding with
  | none => exact ⟨_, _, rfl⟩
  | some n => exact handSummary_fields s n m

theorem summarized_journaledAs (s p : State) (binding : Option W32) (m : Summary) :
    summarized (journaledAs s p) binding m = journaledAs (summarized s binding m) p := by
  cases binding with
  | none => rfl
  | some n => exact handSummary_journaledAs s p n m

/-- The summary of a report (R88). -/
def summaryOf (r : Report) : Summary :=
  ⟨r.verdict, r.quality, r.groups.map Group.toSummaryGroup⟩

/-- The lane after a report: a burst sounds for a NON_COMPLIANT one, and the override of a second vehicle ends. -/
def reportedLane (s : State) (tr : Traverse) (r : Report) : Lane :=
  let sounded := if r.verdict = .nonCompliant then s.lane.burstCall s.link.cadence else s.lane
  if tr.reasons.secondVehicle then sounded.unmark .secondVehicle else sounded

/-- The part after its traverse has been reported, with what the record of the report has left of the memory, the
registers and the journal. -/
def reported (s : State) (tr : Traverse) (r : Report) (placed : State) : State :=
  { s with
    tracker := { s.tracker with traverse := none }
    lane := reportedLane s tr r
    visits := (summarized s tr.binding (summaryOf r)).visits
    store := (summarized s tr.binding (summaryOf r)).store
    mem := placed.mem
    regs := placed.regs
    journal := placed.journal }

theorem reportTraverse_of_open {s : State} {tr : Traverse} (opened : s.tracker.traverse = some tr) :
    s.reportTraverse =
      reported s tr (tr.report s.site.groupGap s.metro.active.e)
        (s.record (tr.axleReport (tr.report s.site.groupGap s.metro.active.e))) := by
  simp only [State.reportTraverse, opened]
  generalize tr.report s.site.groupGap s.metro.active.e = r
  have placed := (record_journaled s (tr.axleReport r)).eq
  generalize s.record (tr.axleReport r) = p at placed ⊢
  have sounded : (if r.verdict = .nonCompliant then p.burstCall else p) =
      journaledAs s
        { p with
          lane := if r.verdict = .nonCompliant then s.lane.burstCall s.link.cadence else s.lane
          unfinished := s.unfinished } := by
    rw [placed]
    split
    · rfl
    · rfl
  rw [sounded]
  have handed := summarized_journaledAs s
    { p with
      lane := if r.verdict = .nonCompliant then s.lane.burstCall s.link.cadence else s.lane
      unfinished := s.unfinished } tr.binding (summaryOf r)
  obtain ⟨x, y, fields⟩ := summarized_fields s tr.binding (summaryOf r)
  change (if tr.reasons.secondVehicle = true then
    ((summarized _ tr.binding (summaryOf r)).setTraverse none).unmarkCause .secondVehicle
    else (summarized _ tr.binding (summaryOf r)).setTraverse none) = _
  rw [handed, reported, reportedLane, fields]
  split
  · rfl
  · rfl

/-- Settles O31: the division into groups, the reasons of a report, and the judgement of one group. -/
theorem groupsAreJudgedByTheirThreshold : Obligations.GroupsAreJudgedByTheirThreshold := by
  refine ⟨?groups, ?reasons, ?journal, ?windows, ?judged⟩
  case groups =>
    intro gap axles begins
    obtain ⟨flat, whole, starts⟩ := grouped_groupAxles gap axles
    refine ⟨flat, fun i g found => ?_⟩
    have member := List.mem_of_getElem? found
    obtain ⟨nonempty, joined⟩ := whole g member
    refine ⟨nonempty, fun a later first => ?_, fun j a later found => ?_⟩
    · refine startsGroup_iff.mp (starts g ?_ a (List.head?_eq_getElem? ▸ first))
      obtain ⟨i, rfl⟩ := Nat.exists_eq_succ_of_ne_zero later.ne'
      exact List.mem_of_getElem? (i := i) (by rw [List.getElem?_tail]; exact found)
    · obtain ⟨j, rfl⟩ := Nat.exists_eq_succ_of_ne_zero later.ne'
      have inside : a ∈ g.tail := List.mem_of_getElem? (i := j) (by rw [List.getElem?_tail]; exact found)
      exact fun start => absurd (startsGroup_iff.mpr start) (by simp [joined a inside])
  case reasons =>
    intro tr gap e r
    refine ⟨by simp [r, Traverse.report], ?_, fun differs => ?_⟩
    · have overlong : r.reasons.overlong = (tr.reasons.overlong || r.groups.any fun g => g.kind == .overlong) := rfl
      rw [overlong, Bool.or_eq_true, List.any_eq_true]
      refine or_congr Iff.rfl (exists_congr fun g => and_congr_right fun member => ?_)
      exact beq_iff_eq.trans (kind_overlong_iff member)
    · have gross : r.gross = if r.fromStatic then tr.static.getD (estimated tr) else estimated tr := rfl
      rw [gross, differs]
      rfl
  case journal =>
    intro s tr opened
    rw [show (s.takeOwn .closing) = _ from reportTraverse_of_open opened]
    rfl
  case windows =>
    intro s c tr later opened active exit after
    rw [handleCrossing_of_exit opened active exit] at after
    obtain rfl := Option.some.inj after
    intro a member
    obtain ⟨b, -, rfl⟩ := List.mem_map.mp member
    exact closeEarly_window b c.value
  case judged =>
    intro c e first axles g load
    have kind : g.kind = groupType axles.length := rfl
    have limit : g.limit = groupLimit c first g.kind := rfl
    refine ⟨rfl, fun h => ?_, fun h => ?_, fun h => ?_, fun h => ?_, groupType_of_many, fun h => ?_, fun h => ?_,
      fun h => ?_, fun h => ?_, rfl, ?_, rfl, fun gross => overLimit_iff,
      fun tr gap same => ?_, fun rest => rfl⟩
    · rw [kind, h]; rfl
    · rw [kind, h]; rfl
    · rw [kind, h]; rfl
    · rw [kind, h]; rfl
    · rw [limit, h]; rfl
    · rw [limit, h]; rfl
    · rw [limit, h]; rfl
    · obtain quad | overlong := h
      · rw [limit, quad]; rfl
      · rw [limit, overlong]; rfl
    · exact overLimit_iff.trans (or_congr Iff.rfl Int.natCast_eq_zero.symm)
    · rw [← same]; rfl

/-! Closing ends (R76, R87). -/

theorem closingDue_iff {s : State} :
    s.closingDue = true ↔ ∃ tr n, s.tracker.traverse = some tr ∧ tr.closing = some n ∧ 2000 ≤ n := by
  unfold State.closingDue
  cases s.tracker.traverse with
  | none => simp
  | some tr =>
    cases closing : tr.closing with
    | none => simp [closing]
    | some n => simp [closing]

theorem isClosing_iff {s : State} :
    s.isClosing = true ↔ ∃ tr n, s.tracker.traverse = some tr ∧ tr.closing = some n := by
  unfold State.isClosing
  cases s.tracker.traverse with
  | none => simp
  | some tr => simp [Option.isSome_iff_exists]

theorem bridgeSettled_iff {s : State} :
    s.bridgeSettled = true ↔ (s.monitor.snapshot.gross.natAbs : Int) ≤ 20 * s.metro.active.e
      ∧ s.monitor.snapshot.flags.motion = false := by
  simp [State.bridgeSettled, DeckFlags.still]

theorem judgeClosing_of_settled {s : State} (closing : s.isClosing = true) (settled : s.bridgeSettled = true) :
    s.judgeClosing = s.reportTraverse :=
  if_pos (by simp [closing, settled])

theorem judgeClosing_of_not {s : State} (h : ¬s.isClosing = true ∨ ¬s.bridgeSettled = true) : s.judgeClosing = s :=
  if_neg (by simpa [Bool.and_eq_true, imp_iff_not_or] using h)

theorem exec_closingTimeout_of_stopped {s : State} {tr : Traverse} {rest : List Piece}
    (stopped : s.StoppedAt .closing rest) (opened : s.tracker.traverse = some tr) :
    let r := tr.report s.site.groupGap s.metro.active.e
    exec .closingTimeout s =
      .next
        ((reported { s with unfinished := [] } tr r
          (({ s with unfinished := [] } : State).record (tr.axleReport r))).run true rest) :=
  (exec_ownCommand_of_stopped stopped nofun nofun).trans
    (congrArg (fun t : State => Host.Outcome.next (t.run true rest))
      (reportTraverse_of_open (s := { s with unfinished := [] }) opened))

/-! The verdict and the quality (R86). -/

theorem indeterminate_iff {q : Reasons} {lenient : Bool} :
    q.indeterminate lenient = true ↔
      q.edgeOverrun = true ∨ q.reversed = true ∨ q.secondVehicle = true ∨ q.crossingLost = true ∨ q.overlong = true
        ∨ q.linkFault = true ∨ (q.degraded = true ∧ lenient = false) := by
  simp [Reasons.indeterminate, or_assoc]

theorem not_indicative_iff {q : Reasons} :
    ¬q.indicative = true ↔
      q.short = false ∧ q.overspeed = false ∧ q.slow = false ∧ q.degraded = false ∧ q.linkFault = false := by
  simp [Reasons.indicative, and_assoc]

section Judged

variable (tr : Traverse) (gap : Nat) (e : Int)

/-- The verdict of a report, from its reasons and its limits. -/
theorem report_verdict :
    (tr.report gap e).verdict =
      if (tr.report gap e).reasons.indeterminate tr.lenient then .indeterminate
      else
        if (tr.report gap e).groups.any (·.overload)
            || overLimit (tr.report gap e).gross tr.classEntry.gross tr.classEntry.tolerance e then .nonCompliant
        else .compliant := rfl

/-- The quality of a report, from its reasons and the static comparison. -/
theorem report_quality :
    (tr.report gap e).quality =
      if (tr.report gap e).reasons.indicative then .indicative
      else if (tr.report gap e).fromStatic then .confirmed
      else if tr.static.isNone then .rollingOnly
      else .indicative := rfl

end Judged

/-- Settles O29: the row of CLOSING_TIMEOUT, an early end, the summary of a bound visit, and the verdict. -/
theorem closingTimeoutReportsTheTraverse : Obligations.ClosingTimeoutReportsTheTraverse := by
  refine ⟨?timeout, fun s h => exec_ownCommand_of_not h nofun nofun, ?early, fun s n m absent => handSummary_of_absent absent m,
    ?summary, ?verdict⟩
  case timeout =>
    intro s rest w stopped
    obtain ⟨tr, n, opened, closing, long⟩ := closingDue_iff.mp stopped.due
    refine ⟨tr, n, opened, closing, long, ?_⟩
    have run := exec_closingTimeout_of_stopped stopped opened
    have placed := record_journaled { s with unfinished := [] } (tr.axleReport (tr.report s.site.groupGap s.metro.active.e))
    dsimp only at run ⊢
    generalize ({ s with unfinished := [] } : State).record
      (tr.axleReport (tr.report s.site.groupGap s.metro.active.e)) = p at run placed ⊢
    generalize tr.report s.site.groupGap s.metro.active.e = r at run ⊢
    obtain ⟨_, _, _, rfl⟩ := placed.fields
    refine ⟨_, run, rfl, fun unbound => ?_, fun v bound => ?_, ?_, placed.raised, placed.memory w⟩
    · rw [reported, unbound]
      exact ⟨rfl, rfl⟩
    · have handed := handSummary_journaledAs s { s with unfinished := [] } v (summaryOf r)
      have visits := congrArg State.visits handed
      have store := congrArg State.store handed
      rw [reported, bound]
      exact ⟨visits, store⟩
    · obtain ⟨x, y, fields⟩ := summarized_fields { s with unfinished := [] } tr.binding (summaryOf r)
      rw [reported, fields]
  case early =>
    intro s closing settled
    have same : s.doPiece .judgeClosing = s.judgeClosing := rfl
    rw [same]
    exact ⟨fun c h => judgeClosing_of_settled (isClosing_iff.mpr c) (bridgeSettled_iff.mpr h),
      fun h => judgeClosing_of_not (h.imp (mt isClosing_iff.mp) (mt bridgeSettled_iff.mp))⟩
  case summary =>
    intro s n m i v place found e put written
    refine ⟨fun held latched => ?_, fun held free => ?_, fun adding => ?_, fun past => ?_⟩
    · rw [handSummary_of_held place found held, writeSummary_of_latched latched]
      rfl
    · rw [handSummary_of_held place found held, writeSummary_of_free free]
      rfl
    · exact handSummary_of_adding place found adding m
    · exact handSummary_of_past place found past m
  case verdict =>
    intro tr gap e r q spoiled excess plain
    have bad : q.indeterminate tr.lenient = true ↔ spoiled := indeterminate_iff
    have clear : ¬q.indicative = true ↔ plain := not_indicative_iff
    have above : (r.groups.any (·.overload) || overLimit r.gross tr.classEntry.gross tr.classEntry.tolerance e) = true ↔
        excess := by
      simp [excess]
    have verdict := report_verdict tr gap e
    have quality := report_quality tr gap e
    refine ⟨fun h => ?_, fun h k => ?_, fun h k => ?_, fun h k => ?_, fun h k => ?_, fun h => ?_⟩
    · rw [verdict, if_pos (bad.mpr h)]
    · rw [verdict, if_neg (mt bad.mp h), if_pos (above.mpr k)]
    · rw [verdict, if_neg (mt bad.mp h), if_neg (mt above.mp k)]
    · rw [quality, if_neg (clear.mpr h), if_pos k]
    · have none := (report_of_none k gap e).fromStatic
      rw [quality, if_neg (clear.mpr h), none, k]
      rfl
    · rw [quality]
      by_cases dim : q.indicative = true
      · rw [if_pos dim]
      · obtain ⟨held, differs⟩ := h.resolve_left fun spotted => spotted (clear.mp dim)
        rw [if_neg dim, differs]
        simp [held]

end Sys2Proof.Reports
end

section
/-! SUPPORT. Orders that request a job of the store and stay in flight: LOAD_CLASSES (R81, R82), SET_SITE (R114) and
VOID_VISIT (R133); and the fields of the images that the first two judge. -/

namespace Sys2Proof.JobOrders

open Sys2Proof Sys2Proof.Machine Sys2Proof.Orders Sys2Proof.Staging Sys2Proof.SessionOpens Sys2Proof.Captures

/-! The first field out of range. -/

theorem find?_cons_eq_ite {α : Type} (p : α → Bool) (a : α) (l : List α) :
    (a :: l).find? p = if p a = true then some a else l.find? p := by
  rw [List.find?_cons]
  cases p a <;> rfl

/-- A search of the numbers below `n` for one that is not right. -/
theorem find?_range_wrong {n : Nat} {wrong : Nat → Bool} {right : Nat → Prop}
    (judged : ∀ p, p < n → (wrong p = true ↔ ¬right p)) :
    ((List.range n).find? wrong = none ↔ ∀ p, p < n → right p) ∧
    ∀ p, (List.range n).find? wrong = some p ↔ p < n ∧ ¬right p ∧ ∀ q, q < p → right q := by
  have sound : ∀ p, p < n → (wrong p = false ↔ right p) := fun p inside => by
    rw [← Bool.not_eq_true, judged p inside, Classical.not_not]
  refine ⟨?_, fun p => ?_⟩
  · simp only [List.find?_range_eq_none, Bool.not_eq_true', forall_congr' fun p => forall_congr' fun inside => sound p inside]
  · simp only [List.find?_range_eq_some, List.mem_range, Bool.not_eq_true']
    constructor
    · rintro ⟨hit, inside, before⟩
      exact ⟨inside, (judged p inside).mp hit, fun q less => (sound q (less.trans inside)).mp (before q less)⟩
    · rintro ⟨inside, bad, before⟩
      exact ⟨(judged p inside).mpr bad, inside, fun q less => (sound q (less.trans inside)).mpr (before q less)⟩

/-- The field of a class at a place is out of range (R81). -/
def classFieldWrong (c : ClassEntry) : Nat → Bool
  | 0 => c.name.any fun b => decide (b.toNat < 0x20 ∨ 0x7E < b.toNat)
  | 1 => decide (1000000000 < c.steer)
  | 2 => decide (1000000000 < c.single)
  | 3 => decide (1000000000 < c.tandem)
  | 4 => decide (1000000000 < c.tri)
  | 5 => decide (1000000000 < c.quad)
  | 6 => decide (1000000000 < c.gross)
  | _ => decide (100 < c.tolerance)

theorem badField_eq_find? (c : ClassEntry) : c.badField = (List.range 8).find? (classFieldWrong c) := by
  have eight : List.range 8 = [0, 1, 2, 3, 4, 5, 6, 7] := rfl
  rw [eight]
  simp only [find?_cons_eq_ite, List.find?_nil, classFieldWrong, ClassEntry.badField, decide_eq_true_eq]

theorem name_wrong_iff {name : List Byte} :
    (name.any fun b => decide (b.toNat < 0x20 ∨ 0x7E < b.toNat)) = true ↔
      ¬∀ b ∈ name, 0x20 ≤ b.toNat ∧ b.toNat ≤ 0x7E := by
  simp only [List.any_eq_true, decide_eq_true_eq, not_forall, exists_prop]
  exact exists_congr fun b => and_congr_right fun _ => by omega

/-- The first field out of range of a table of classes, counted from class `n` on (R82). -/
theorem firstBadField_eq_some_iff (table : List ClassEntry) (n m : Nat) :
    firstBadField n table = some m ↔
      ∃ i c p, table[i]? = some c ∧ c.badField = some p ∧ m = 8 * (n + i) + p
        ∧ ∀ j x, j < i → table[j]? = some x → x.badField = none := by
  induction table generalizing n with
  | nil => simp [firstBadField]
  | cons c table ih =>
    cases bad : c.badField with
    | some p =>
      have first : firstBadField n (c :: table) = some (n * 8 + p) := by rw [firstBadField, bad]
      rw [first]
      constructor
      · intro same
        refine ⟨0, c, p, rfl, bad, ?_, nofun⟩
        rw [← Option.some.inj same]
        omega
      · rintro ⟨i, x, q, found, wrong, rfl, before⟩
        cases i with
        | succ i => exact absurd (before 0 c (by omega) rfl) (by simp [bad])
        | zero =>
          obtain rfl : c = x := Option.some.inj found
          obtain rfl : p = q := Option.some.inj (bad.symm.trans wrong)
          congr 1
          omega
    | none =>
      have rest : firstBadField n (c :: table) = firstBadField (n + 1) table := by rw [firstBadField, bad]
      rw [rest, ih]
      constructor
      · rintro ⟨i, x, p, found, wrong, rfl, before⟩
        refine ⟨i + 1, x, p, found, wrong, by omega, fun j y less here => ?_⟩
        cases j with
        | zero => exact Option.some.inj here ▸ bad
        | succ j => exact before j y (by omega) here
      · rintro ⟨i, x, p, found, wrong, rfl, before⟩
        cases i with
        | zero =>
          obtain rfl : c = x := Option.some.inj found
          exact absurd wrong (by simp [bad])
        | succ i => exact ⟨i, x, p, found, wrong, by omega, fun j y less here => before (j + 1) y (by omega) here⟩

theorem firstBadField_eq_none_iff (table : List ClassEntry) (n : Nat) :
    firstBadField n table = none ↔ ∀ c ∈ table, c.badField = none := by
  induction table generalizing n with
  | nil => simp [firstBadField]
  | cons c table ih =>
    cases bad : c.badField with
    | some p => simp [firstBadField, bad]
    | none => simp [firstBadField, bad, ih]

/-! The images in the staging area (12.8). -/

theorem imageClasses_length (s : State) : s.imageClasses.length = 16 := by
  simp [State.imageClasses]

theorem imageClasses_get {s : State} {i : Nat} (inside : i < 16) : s.imageClasses[i]? = some (s.imageClass i) := by
  simp [State.imageClasses, inside]

section Kept

variable {s u : State} {k : SlotId} (same : Memory.SameBut (answerBytes k) s.mem u.mem)
include same

theorem imageSite_kept : u.imageSite = s.imageSite := by
  simp only [State.imageSite, (staging_kept same).1]

theorem imageClasses_kept : u.imageClasses = s.imageClasses := by
  have outside := fun {x : Nat} (h : stagingBase ≤ x) => Intake.not_answerBytes_staging k h
  have words : ∀ x, u.staging16 x = s.staging16 x := (staging_kept same).1
  have longs : ∀ x, u.staging32 x = s.staging32 x := fun x =>
    same.read32 (outside (by omega)) (outside (by omega)) (outside (by omega)) (outside (by omega))
  have names : ∀ c, u.mem.readBytes (stagingBase + 64 * c) 8 = s.mem.readBytes (stagingBase + 64 * c) 8 := fun c =>
    same.readBytes fun y lower _ => outside (by omega)
  have classes : u.imageClass = s.imageClass := by
    funext c
    simp only [State.imageClass, words, longs, names]
  rw [State.imageClasses, classes, State.imageClasses]

end Kept

/-! Orders that stay in flight (R107, R108). -/

section Begun

variable {s v : State} {k : SlotId} {kind : OrderKind} (w : s.mem.wf = true) (mem : v.mem = (s.beginOrder k kind).mem)
include w mem

omit w in
theorem begun_setPosition_mem : (v.setPosition k).mem = ((s.beginOrder k kind).setPosition k).mem := by
  rw [setPosition_mem, setPosition_mem, mem]

theorem begun_inFlight (flight : v.intake.flight = (s.beginOrder k kind).intake.flight) :
    InFlight k kind s (v.setPosition k) := by
  obtain ⟨state, sweep, position, begun⟩ := taken_inFlight (changed := fun _ => False) w (beginOrder_wf w k kind)
    (Memory.SameBut.refl _ _) (fun _ _ _ => id) rfl
  have swept := begun_setPosition_mem mem
  constructor
  case state =>
    rw [State.slotState] at state ⊢
    rw [swept, state]
  case sweep => rw [swept, sweep]
  case position => rw [setPosition_intake]
  case flight =>
    rw [setPosition_intake, flight]
    rfl

theorem begun_sameBut : Memory.SameBut (takeBytes k) s.mem (v.setPosition k).mem := by
  rw [begun_setPosition_mem mem]
  exact (taken_sameBut (changed := fun _ => False) w (beginOrder_wf w k kind) (Memory.SameBut.refl _ _)).mono
    fun _ h => h.resolve_right id

end Begun

/-- The part with an order taken under the claim, and the job that it requests waiting. -/
def claimedJob (s : State) (k : SlotId) (kind : OrderKind) (job : JobKind) (rows : List RowWrite) : State :=
  ((claimedAs s s k kind).requestJob job rows).setPosition k

theorem claimedAs_fields (s v : State) (k : SlotId) (kind : OrderKind) :
    ∃ m i, claimedAs s v k kind = { v with mem := m, intake := i } :=
  ⟨_, _, rfl⟩

theorem beginOrder_fields (s : State) (k : SlotId) (kind : OrderKind) :
    ∃ m i, s.beginOrder k kind = { s with mem := m, intake := i } :=
  ⟨_, _, rfl⟩

theorem setPosition_fields (v : State) (k : SlotId) : ∃ m i, v.setPosition k = { v with mem := m, intake := i } :=
  ⟨_, _, rfl⟩

theorem claimedJob_eq (s : State) (k : SlotId) (kind : OrderKind) (job : JobKind) (rows : List RowWrite) :
    let t := claimedJob s k kind job rows
    t = { s with mem := t.mem, intake := t.intake, store := t.store } := by
  obtain ⟨_, _, claimed⟩ := claimedAs_fields s s k kind
  obtain ⟨_, _, swept⟩ := setPosition_fields ((claimedAs s s k kind).requestJob job rows) k
  dsimp only
  rw [claimedJob, swept, claimed]
  rfl

/-- An order that claims the staging area and requests a job. -/
theorem exec_claims {c : Instr} {s : State} {k : SlotId} {kind : OrderKind} {job : JobKind} {rows : List RowWrite}
    {owner : State → SlotId → State} (taken : exec c s = .next (s.whenOn fun u => u.takePosted k kind owner))
    (p : s.Posted k kind) (inRange : s.badOrderParam k kind = none) (claims : kind.claimsStaging = true)
    (free : s.intake.claim = none)
    (owned : owner (claimedAs s s k kind) k = (claimedAs s s k kind).requestJob job rows) :
    ∃ t : State, exec c s = .next t ∧ InFlight k kind s t ∧ t.intake.claim = some k ∧ Requested job rows s t
      ∧ t = { s with mem := t.mem, intake := t.intake, store := t.store } ∧ Memory.SameBut (takeBytes k) s.mem t.mem := by
  refine ⟨claimedJob s k kind job rows, ?run, begun_inFlight p.memory rfl rfl, rfl, rfl, claimedJob_eq ..,
    begun_sameBut (kind := kind) p.memory rfl⟩
  rw [taken, takePosted_claims p inRange claims free]
  exact congrArg (fun u : State => Host.Outcome.next (u.setPosition k)) owned

/-! LOAD_CLASSES. -/

theorem exec_loadClasses (s : State) (k : SlotId) :
    exec (.loadClasses k) s = .next (s.whenOn fun u => u.takePosted k .loadClasses State.loadClassesOrder) := rfl

theorem loadClassesOrder_of_latched {s : State} (latched : s.store.latch = true) (k : SlotId) :
    s.loadClassesOrder k = s.answer k .storeFault [] := if_pos latched

theorem loadClassesOrder_of_bad {s : State} (free : s.store.latch = false) {n : Nat}
    (bad : firstBadField 0 s.imageClasses = some n) (k : SlotId) :
    s.loadClassesOrder k = s.answer k .badParam (u16 n) := by
  simp only [State.loadClassesOrder, free, Bool.false_eq_true, if_false, bad]
  rfl

theorem loadClassesOrder_of_right {s : State} (free : s.store.latch = false)
    (right : firstBadField 0 s.imageClasses = none) (k : SlotId) :
    s.loadClassesOrder k = s.requestJob (.classes k s.imageClasses) (classRows 0 s.imageClasses) := by
  simp only [State.loadClassesOrder, free, Bool.false_eq_true, if_false, right]

/-! SET_SITE. -/

theorem exec_setSite (s : State) (k : SlotId) :
    exec (.setSite k) s = .next (s.whenOn fun u => u.takePosted k .setSite State.setSiteOrder) := rfl

theorem setSiteOrder_of_latched {s : State} (latched : s.store.latch = true) (k : SlotId) :
    s.setSiteOrder k = s.answer k .storeFault [] := if_pos latched

theorem setSiteOrder_of_bad {s : State} (free : s.store.latch = false) {n : Nat} (bad : s.imageSite.badField = some n)
    (k : SlotId) : s.setSiteOrder k = s.answer k .badParam (u16 n) := by
  simp only [State.setSiteOrder, free, Bool.false_eq_true, if_false, bad]
  rfl

theorem setSiteOrder_of_right {s : State} (free : s.store.latch = false) (right : s.imageSite.badField = none)
    (k : SlotId) : s.setSiteOrder k = s.requestJob (.site k s.imageSite) [.site s.imageSite] := by
  simp only [State.setSiteOrder, free, Bool.false_eq_true, if_false, right]

/-! VOID_VISIT. -/

theorem exec_voidVisit (s : State) (k : SlotId) :
    exec (.voidVisit k) s = .next (s.whenOn fun u => u.takePosted k .voidVisit State.voidOrder) := rfl

theorem voidOrder_of_latched {s : State} (latched : s.store.latch = true) (k : SlotId) :
    s.voidOrder k = s.answer k .storeFault [] := if_pos latched

section Unlatched

variable {s : State} {k : SlotId} (free : s.store.latch = false)
include free

theorem voidOrder_of_absent (absent : s.heldPlace (s.orderVehicle k) = none) :
    s.voidOrder k = s.answer k .noVisit [] := by
  simp only [State.voidOrder, free, Bool.false_eq_true, if_false, absent]

variable {i : Nat} {v : Visit} (held : s.heldPlace (s.orderVehicle k) = some i) (found : s.place i = some v)
include held found

theorem voidOrder_of_used (used : s.visits.mark = some v.entry.number) :
    s.voidOrder k = s.answer k .visitInUse [] := by
  simp only [State.voidOrder, free, Bool.false_eq_true, if_false, held, found, used, if_true]

theorem voidOrder_of_unused (unused : s.visits.mark ≠ some v.entry.number) :
    s.voidOrder k =
      (s.setPlace i (some { v with status := .removing })).requestJob (.voidVisit k v.entry.number) [.freeVisit i] := by
  simp only [State.voidOrder, free, Bool.false_eq_true, if_false, held, found, unused]

end Unlatched

/-- The part with a VOID_VISIT taken, the entry at a place REMOVING, and its removal requested. -/
def removing (s : State) (k : SlotId) (i : Nat) (v : Visit) : State :=
  (((s.beginOrder k .voidVisit).setPlace i (some { v with status := .removing })).requestJob
    (.voidVisit k v.entry.number) [.freeVisit i]).setPosition k

theorem removing_eq (s : State) (k : SlotId) (i : Nat) (v : Visit) :
    let t := removing s k i v
    t = { s with
      visits := { s.visits with places := s.visits.places.set i (some { v with status := .removing }) }
      mem := t.mem
      intake := t.intake
      store := t.store } := by
  obtain ⟨_, _, begun⟩ := beginOrder_fields s k .voidVisit
  obtain ⟨_, _, swept⟩ := setPosition_fields (((s.beginOrder k .voidVisit).setPlace i
    (some { v with status := .removing })).requestJob (.voidVisit k v.entry.number) [.freeVisit i]) k
  dsimp only
  rw [removing, swept, begun]
  rfl

theorem voidVisit_removes {s : State} {k : SlotId} {i : Nat} {v : Visit} (p : s.Posted k .voidVisit)
    (inRange : s.badOrderParam k .voidVisit = none)
    (owned : (s.beginOrder k .voidVisit).voidOrder k =
      ((s.beginOrder k .voidVisit).setPlace i (some { v with status := .removing })).requestJob
        (.voidVisit k v.entry.number) [.freeVisit i]) :
    ∃ t : State, exec (.voidVisit k) s = .next t ∧ InFlight k .voidVisit s t
      ∧ Requested (.voidVisit k v.entry.number) [.freeVisit i] s t
      ∧ t = { s with
        visits := { s.visits with places := s.visits.places.set i (some { v with status := .removing }) }
        mem := t.mem
        intake := t.intake
        store := t.store }
      ∧ Memory.SameBut (takeBytes k) s.mem t.mem := by
  refine ⟨removing s k i v, ?run, begun_inFlight p.memory rfl rfl, rfl, removing_eq ..,
    begun_sameBut (kind := .voidVisit) p.memory rfl⟩
  rw [exec_voidVisit, takePosted_runs p inRange rfl]
  exact congrArg (fun u : State => Host.Outcome.next (u.setPosition k)) owned

/-- Settles O47: the three orders, and the fields out of range of the images. -/
theorem ordersThatRequestAJob : Obligations.OrdersThatRequestAJob := by
  refine ⟨?classes, ?site, ?classFields, ?table, ?classImage, ?siteFields, fun s => rfl, ?void⟩
  case classes =>
    intro s k p unclaimed table
    have image : (claimedAs s s k .loadClasses).imageClasses = table :=
      imageClasses_kept (claimedAs_sameBut p.memory s k .loadClasses)
    refine ⟨fun free right => ?_, fun n free bad => ?_, fun latched => ?_⟩
    · refine exec_claims (exec_loadClasses s k) p rfl rfl unclaimed ?_
      have sound : firstBadField 0 (claimedAs s s k .loadClasses).imageClasses = none := by
        rw [image]
        exact right
      rw [loadClassesOrder_of_right (s := claimedAs s s k .loadClasses) free sound, image]
    · refine exec_claimed (exec_loadClasses s k) p rfl rfl unclaimed (bytes16_fits _) rfl ?_
      have wrong : firstBadField 0 (claimedAs s s k .loadClasses).imageClasses = some n := by
        rw [image]
        exact bad
      exact loadClassesOrder_of_bad (s := claimedAs s s k .loadClasses) free wrong k
    · exact exec_claimed (exec_loadClasses s k) p rfl rfl unclaimed (Nat.zero_le _) rfl
        (loadClassesOrder_of_latched (s := claimedAs s s k .loadClasses) latched k)
  case site =>
    intro s k p unclaimed
    have image : (claimedAs s s k .setSite).imageSite = s.imageSite :=
      imageSite_kept (claimedAs_sameBut p.memory s k .setSite)
    refine ⟨fun free right => ?_, fun n free bad => ?_, fun latched => ?_⟩
    · refine exec_claims (exec_setSite s k) p rfl rfl unclaimed ?_
      have sound : (claimedAs s s k .setSite).imageSite.badField = none := by
        rw [image]
        exact right
      rw [setSiteOrder_of_right (s := claimedAs s s k .setSite) free sound, image]
    · refine exec_claimed (exec_setSite s k) p rfl rfl unclaimed (bytes16_fits _) rfl ?_
      have wrong : (claimedAs s s k .setSite).imageSite.badField = some n := by
        rw [image]
        exact bad
      exact setSiteOrder_of_bad (s := claimedAs s s k .setSite) free wrong k
    · exact exec_claimed (exec_setSite s k) p rfl rfl unclaimed (Nat.zero_le _) rfl
        (setSiteOrder_of_latched (s := claimedAs s s k .setSite) latched k)
  case classFields =>
    intro c limits right
    rw [badField_eq_find?]
    refine find?_range_wrong fun p inside => ?_
    obtain rfl | later := Nat.eq_zero_or_pos p
    · exact name_wrong_iff
    · interval_cases p <;> simp [classFieldWrong, right, limits]
  case table =>
    exact fun table => ⟨firstBadField_eq_none_iff table 0, fun n => by
      simpa using firstBadField_eq_some_iff table 0 n⟩
  case classImage =>
    refine fun s => ⟨imageClasses_length s, fun i inside => ?_⟩
    rw [imageClasses_get inside]
    rfl
  case siteFields =>
    intro x least greatest fields right
    refine find?_range_wrong fun n inside => ?_
    have range : siteRange n = (least.getD n 0, greatest.getD n 0) := by interval_cases n <;> rfl
    have judged : siteFieldOk x n = true ↔ right n := by
      rw [siteFieldOk, range, Bool.and_eq_true, decide_eq_true_eq, decide_eq_true_eq]
      rfl
    rw [Bool.not_eq_true', ← Bool.not_eq_true, judged]
  case void =>
    intro s k p inRange
    have place : (s.beginOrder k .voidVisit).heldPlace ((s.beginOrder k .voidVisit).orderVehicle k) =
        s.heldPlace (s.orderVehicle k) := beginOrder_heldPlace p.memory k .voidVisit
    refine ⟨fun i v free held found => ⟨fun unused => ?_, fun used => ?_⟩, fun free absent => ?_, fun latched => ?_⟩
    · exact voidVisit_removes p inRange
        (voidOrder_of_unused (s := s.beginOrder k .voidVisit) free (place.trans held) found unused)
    · exact exec_answered (exec_voidVisit s k) p inRange rfl (Nat.zero_le _) rfl
        (voidOrder_of_used (s := s.beginOrder k .voidVisit) free (place.trans held) found used)
    · exact exec_answered (exec_voidVisit s k) p inRange rfl (Nat.zero_le _) rfl
        (voidOrder_of_absent (s := s.beginOrder k .voidVisit) free (place.trans absent))
    · exact exec_answered (exec_voidVisit s k) p inRange rfl (Nat.zero_le _) rfl
        (voidOrder_of_latched (s := s.beginOrder k .voidVisit) latched k)

end Sys2Proof.JobOrders
end

section
/-! SUPPORT. A second weighing at the end of the ticket numbers whose reservation blocks the journal: the state that
refutes the statement about ready weighings, and what the model makes of it. -/

namespace Sys2Proof.Weighings

open Sys2Proof Sys2Proof.Machine

/-- A vehicle reference of twelve characters, and the words of an order body that spell it. -/
def plate : List Byte :=
  [0x41, 0x42, 0x31, 0x32, 0x20, 0x20, 0x20, 0x20, 0x20, 0x20, 0x20, 0x20]

/-- The visit that the vehicle's second weighing closes. -/
def heldVisit : Visit :=
  { entry :=
      { number := 9
        vehicle := plate
        lot := 3
        weight := 12000000
        time := 100
        epoch := 0
        bound := none
        summary := none }
    status := .held
    kept := none }

/-- What the host has written: a SECOND_WEIGH of the vehicle, POSTED in slot 0. -/
def orderWords : List (Nat × W16) :=
  [(slotBase 0, slotPosted), (slotBase 0 + 2, 11), (slotBase 0 + 16, 0x4241), (slotBase 0 + 18, 0x3231),
    (slotBase 0 + 20, 0x2020), (slotBase 0 + 22, 0x2020), (slotBase 0 + 24, 0x2020), (slotBase 0 + 26, 0x2020)]

/-- Page 0 one byte short of the room for a TICKET record, page 1 FREE, and page 2 PUBLISHED. -/
def pageWords : List (Nat × W16) :=
  [(pageBase 0 + 8, 13), (pageBase 1, pageFree), (pageBase 2, pagePublished)]

/-- A ready platform at the end of the ticket numbers, with page 0 current while the fill index names page 1. The page
that follows page 0 is FREE, so that a reservation moves off page 0; the page it then opens is page 2. -/
def staleFill : State :=
  { State.reset with
    regs := { State.reset.regs with run := true }
    mem := writeWords State.reset.mem (orderWords ++ pageWords)
    time := { State.reset.time with isSet := true }
    tracker := { State.reset.tracker with report := { State.reset.tracker.report with contained := true } }
    monitor :=
      { State.reset.monitor with
        snapshot := { State.reset.monitor.snapshot with legal := 400000, flags := DeckFlags.none } }
    visits := { State.reset.visits with places := State.reset.visits.places.set 63 (some heldVisit) }
    journal := { State.reset.journal with nextFill := 1 }
    store :=
      { State.reset.store with counters := { State.reset.store.counters with lastTicket := 0xFFFFFFFF } } }

theorem staleFill_posted : staleFill.Posted 0 .secondWeigh where
  memory := by decide +kernel
  power := by decide +kernel
  whole := by decide +kernel
  run := rfl
  posted := by decide +kernel
  kind := by decide +kernel

/-- The platform is ready, and the vehicle's visit is HELD in the last place. -/
theorem staleFill_ready :
    staleFill.badOrderParam 0 .secondWeigh = none ∧ staleFill.captureRefusal = none ∧ staleFill.firstUnmet = none
      ∧ staleFill.heldPlace (staleFill.orderVehicle 0) = some 63 ∧ staleFill.place 63 = some heldVisit
      ∧ staleFill.placeOf heldVisit.entry.number = some 63 := by
  decide +kernel

/-- Nothing but the want of room on page 0 stands in the way of a reservation, and the page after it is FREE. -/
theorem staleFill_room :
    20 * staleFill.metro.active.e ≤ staleFill.monitor.snapshot.legal
      ∧ (staleFill.journal.reservation = none ∧ staleFill.journal.blocked = false ∧ staleFill.journal.outbox = []
        ∧ staleFill.journal.owed = false)
      ∧ staleFill.journal.current = some 0 ∧ staleFill.pageState (nextPage 0) = pageFree
      ∧ staleFill.store.counters.lastTicket = 0xFFFFFFFF := by
  decide +kernel

/-- The reservation that a command leaves. -/
def reservationAfter (c : Instr) (s : State) : Option Reservation :=
  match exec c s with
  | .next t => t.journal.reservation
  | _ => none

theorem reservationAfter_of_next {c : Instr} {s t : State} (h : exec c s = .next t) :
    reservationAfter c s = t.journal.reservation := by
  simp only [reservationAfter, h]

/-- The journal has blocked on page 2, and a reservation without a current page is not released (R159). -/
theorem staleFill_keeps_reservation : reservationAfter (.secondWeigh 0) staleFill = some ⟨.ticket, 228⟩ := by
  decide +kernel

/-- Refutes O50: at the end of the ticket numbers the statement has no reservation left, also in a state whose fill
index does not name the current page. There the reservation is granted, as the page after the current one is FREE, but
the page opened is the one after the fill index; where the host holds that one, the journal blocks, and the reservation
stays. The statement does not ask that the fill index name the current page, as a page opened makes it. -/
theorem not_readyWeighingsAreStored : ¬Obligations.ReadyWeighingsAreStored := by
  rintro ⟨-, second, -⟩
  obtain ⟨inRange, free, ready, held, entry, placed⟩ := staleFill_ready
  obtain ⟨heavy, reservable, current, next, last⟩ := staleFill_room
  obtain ⟨-, -, stored⟩ :=
    second staleFill 0 63 63 heldVisit heldVisit staleFill_posted inRange free ready held entry placed entry
  obtain ⟨t, run, -, -, released, -⟩ := (stored 0 heavy reservable current (.inr (.inl next))).1 last
  have kept := staleFill_keeps_reservation
  rw [reservationAfter_of_next run, released] at kept
  contradiction

end Sys2Proof.Weighings
end

section
/-! SUPPORT. Store jobs at work (R179, R180): a job enters the queue, a row leaves its job or fails it, and what the
requester of a failed job does. -/

namespace Sys2Proof.StoreJobs

open Sys2Proof Sys2Proof.Machine Sys2Proof.CaptureEnds Sys2Proof.Completions

/-! The two commands of the store (R179). -/

theorem exec_storeJobEnter {s : State} (r : s.Ready) :
    exec .storeJobEnter s = .next { s with store := s.store.enter } :=
  congrArg Host.Outcome.next (whenOn_of_ready r _)

theorem exec_storeRowWritten {s : State} (r : s.Ready) (matched : Bool) (left : Residue) :
    exec (.storeRowWritten matched left) s = .next (s.rowWritten matched left) :=
  congrArg Host.Outcome.next (whenOn_of_ready r _)

theorem enter_of_room {x : Store} {j : Job} {rest : List Job} (waiting : x.waiting = j :: rest)
    (room : x.queued + j.rows.length ≤ 16) : x.enter = { x with queue := x.queue ++ [j], waiting := rest } := by
  simp only [Store.enter, waiting, if_pos room]

theorem enter_of_full {x : Store} {j : Job} {rest : List Job} (waiting : x.waiting = j :: rest)
    (full : 16 < x.queued + j.rows.length) : x.enter = x := by
  simp only [Store.enter, waiting, if_neg (Nat.not_le.mpr full)]

theorem enter_of_none {x : Store} (waiting : x.waiting = []) : x.enter = x := by
  simp only [Store.enter, waiting]

/-! A row that is compared (R179). -/

theorem rowWritten_of_idle {s : State} (waiting : s.store.waiting = []) (queue : s.store.queue = []) (matched : Bool)
    (left : Residue) : s.rowWritten matched left = s := by
  simp only [State.rowWritten, enterJobs_of_none waiting, State.writing, queue]

section Front

variable {s : State} {kind : JobKind} {w : RowWrite} {rest : List RowWrite} {jobs : List Job}

theorem writing_of_front (queue : s.store.queue = ⟨kind, w :: rest⟩ :: jobs) :
    s.writing = some (⟨kind, w :: rest⟩, w, rest) := by
  simp only [State.writing, queue]

variable (waiting : s.store.waiting = []) (queue : s.store.queue = ⟨kind, w :: rest⟩ :: jobs) (left : Residue)
include waiting queue

theorem rowWritten_matched : s.rowWritten true left = s.finishRow ⟨kind, w :: rest⟩ w rest := by
  simp only [State.rowWritten, enterJobs_of_none waiting, writing_of_front queue, if_true]

theorem rowWritten_again (first : s.store.retry = false) :
    s.rowWritten false left = { s with store := { s.store with retry := true } } := by
  simp [State.rowWritten, enterJobs_of_none waiting, writing_of_front queue, first]

theorem rowWritten_failed (second : s.store.retry = true) :
    s.rowWritten false left = (s.leaveRow w left).failJob ⟨kind, w :: rest⟩ w := by
  simp [State.rowWritten, enterJobs_of_none waiting, writing_of_front queue, second]

end Front

/-- A write changes the rows, and with the counters row what the counters read as. -/
theorem writeRow_fields (s : State) (w : RowWrite) :
    ∃ rows counters, s.writeRow w = { s with store := { s.store with rows := rows, counters := counters } } := by
  cases w <;> exact ⟨_, _, rfl⟩

/-- A write that fails changes the rows alone. -/
theorem leaveRow_fields (s : State) (w : RowWrite) (left : Residue) :
    ∃ rows, s.leaveRow w left = { s with store := { s.store with rows := rows } } := by
  cases w <;> exact ⟨_, rfl⟩

theorem finishRow_next {s : State} {kind : JobKind} {w : RowWrite} {rest : List RowWrite} {jobs : List Job}
    (queue : s.store.queue = ⟨kind, w :: rest⟩ :: jobs) (more : rest ≠ []) :
    s.finishRow ⟨kind, w :: rest⟩ w rest =
      { s with store := { (s.writeRow w).store with queue := ⟨kind, rest⟩ :: jobs, retry := false } } := by
  have left : (s.writeRow w).store.queue.drop 1 = jobs := by
    rw [writeRow_queue, queue]
    rfl
  have goesOn : ¬rest.isEmpty = true := by simpa using more
  simp only [State.finishRow, if_neg goesOn, left]
  obtain ⟨rows, counters, written⟩ := writeRow_fields s w
  rw [written]

/-! A job that fails under the latch (R180). -/

/-- What the requesters of failed jobs leave as it was, once the latch is set: the store, the fault flag that the header
shows, and every cause that stands. -/
structure LatchKept (s t : State) : Prop where
  store : t.store = s.store
  wf : t.mem.wf = true
  shown : t.mem.read16 hdrStoreFault = s.mem.read16 hdrStoreFault
  causes : ∀ c, s.regs.cause &&& c = c → t.regs.cause &&& c = c

theorem LatchKept.refl {s : State} (w : s.mem.wf = true) : LatchKept s s :=
  ⟨rfl, w, rfl, fun _ h => h⟩

theorem LatchKept.trans {s t u : State} (h : LatchKept s t) (k : LatchKept t u) : LatchKept s u :=
  ⟨k.store.trans h.store, k.wf, k.shown.trans h.shown, fun c held => k.causes c (h.causes c held)⟩

/-- A change of none of these. -/
theorem LatchKept.of_same {s t : State} (w : s.mem.wf = true) (store : t.store = s.store) (mem : t.mem = s.mem)
    (regs : t.regs = s.regs) : LatchKept s t :=
  ⟨store, by rw [mem, w], by rw [mem], fun c held => by rw [regs, held]⟩

theorem fault_not_journal : ¬journalBytes hdrStoreFault ∧ ¬journalBytes (hdrStoreFault + 1) := by
  unfold journalBytes
  decide

theorem fault_not_slot (k : SlotId) : ¬slotAnswerBytes k hdrStoreFault ∧ ¬slotAnswerBytes k (hdrStoreFault + 1) := by
  have lower := slotBase_lower k
  have fault : hdrStoreFault = 0x30 := rfl
  unfold slotAnswerBytes
  omega

theorem LatchKept.of_journaled {s t : State} (w : s.mem.wf = true) (h : Journaled causeJournal s t) :
    LatchKept s t :=
  ⟨by rw [h.eq], h.wf w, (h.memory w).read16 fault_not_journal.1 fault_not_journal.2, fun _ => h.raised.keeps⟩

theorem LatchKept.answer {s : State} (w : s.mem.wf = true) (k : SlotId) (code : AnswerCode) :
    LatchKept s (s.answer k code []) := by
  refine ⟨by rw [answer_eq], answer_wf w k code [], ?_, fun c held => ?_⟩
  · exact (answer_sameBut_slot w k code (Nat.zero_le _)).read16 (fault_not_slot k).1 (fault_not_slot k).2
  · have raised : Registers.Raised causeAnswer s.regs (s.answer k code []).regs := ⟨causeAnswer, by decide, answer_regs ..⟩
    exact raised.keeps held

theorem LatchKept.endCapture {s : State} (w : s.mem.wf = true) (k : SlotId) (code : AnswerCode) :
    LatchKept s (s.endCapture k code []) :=
  (LatchKept.of_same (t := uncaptured s) w rfl rfl rfl).trans (LatchKept.answer (s := uncaptured s) w k code)

theorem LatchKept.released_endCapture {s u : State} (w : s.mem.wf = true) (store : u.store = s.store)
    (mem : u.mem = s.mem) (regs : u.regs = s.regs) (k : SlotId) (code : AnswerCode) :
    LatchKept s (u.releaseReservation.endCapture k code []) := by
  have wu : u.mem.wf = true := by rw [mem, w]
  have released := releaseReservation_journaled u
  exact ((LatchKept.of_same w store mem regs).trans (LatchKept.of_journaled wu released)).trans
    (LatchKept.endCapture (released.wf wu) k code)

theorem setStatus_fields (s : State) (n : W32) (status : VisitStatus) :
    ∃ visits, s.setStatus n status = { s with visits := visits } := by
  unfold State.setStatus
  split
  · split <;> exact ⟨_, rfl⟩
  · exact ⟨_, rfl⟩

theorem dropTicket_fields (s : State) : ∃ tickets, s.dropTicket = { s with tickets := tickets } := by
  unfold State.dropTicket
  split <;> exact ⟨_, rfl⟩

theorem setStatus_kept {s : State} (w : s.mem.wf = true) (n : W32) (status : VisitStatus) :
    LatchKept s (s.setStatus n status) := by
  obtain ⟨_, changed⟩ := setStatus_fields s n status
  rw [changed]
  exact LatchKept.of_same w rfl rfl rfl

theorem auditPump_of_latched {s : State} (latched : s.store.latch = true) : s.auditPump = s :=
  if_pos (by simp [latched])

/-- Under the latch an audit entry is a record, and no job. -/
theorem writeAudit_latched {s : State} (w : s.mem.wf = true) (latched : s.store.latch = true) (kind : AuditKind)
    (detail : List Byte) : LatchKept s (s.writeAudit kind detail) := by
  have logged := writeAudit_logged s kind detail
  refine ⟨?_, logged.wf w, (logged.memory w).read16 fault_not_journal.1 fault_not_journal.2,
    fun _ => logged.raised.keeps⟩
  have recorded : ∀ (u : State) (r : Record), u.store = s.store → (u.record r).auditPump.store = s.store := by
    intro u r same
    have store : (u.record r).store = s.store := by rw [(record_journaled u r).eq, same]
    rw [auditPump_of_latched (by rw [store, latched]), store]
  exact recorded _ _ rfl

/-- Under the latch the end of a session requests nothing (R176). -/
theorem closeSession_latched {s : State} (w : s.mem.wf = true) (latched : s.store.latch = true) (kind : AuditKind) :
    LatchKept s (s.closeSession kind) := by
  have ended : LatchKept s (SessionEnds.sessionOver s) := by
    have same : Memory.SameBut (bytesFrom hdrSession 2) s.mem (SessionEnds.sessionOver s).mem :=
      SessionEnds.inSession_sameBut w _ _ _
    exact ⟨rfl, SessionEnds.inSession_wf w _ _ _, same.read16 (by unfold bytesFrom; decide) (by unfold bytesFrom; decide),
      fun _ held => held⟩
  rw [SessionEnds.closeSession_eq, if_pos latched]
  exact ended.trans (writeAudit_latched ended.wf latched kind [])

theorem closed_answer_latched {s : State} (w : s.mem.wf = true) (latched : s.store.latch = true) (k : SlotId)
    (n : Nat) :
    LatchKept s ((if s.isSession n then s.closeSession .sessionAborted else s).answer k .storeFault []) := by
  have closed : LatchKept s (if s.isSession n then s.closeSession .sessionAborted else s) := by
    split
    · exact closeSession_latched w latched _
    · exact LatchKept.refl w
  exact closed.trans (LatchKept.answer closed.wf k _)

/-- The requester of a failed job leaves the store as the failure left it (R180). -/
theorem jobFailed_latched {s : State} (w : s.mem.wf = true) (latched : s.store.latch = true) (kind : JobKind) :
    LatchKept s (s.jobFailed kind) := by
  match kind with
  | .firstWeigh =>
    change LatchKept s s.firstWeighFailed
    unfold State.firstWeighFailed
    split
    · dsimp only
      split
      · rename_i i _
        exact LatchKept.released_endCapture (u := s.setPlace i none) w rfl rfl rfl _ _
      · exact LatchKept.released_endCapture (u := s) w rfl rfl rfl _ _
    · exact LatchKept.refl w
  | .ticket =>
    change LatchKept s s.ticketFailed
    unfold State.ticketFailed
    split
    · rename_i t i _ _
      obtain ⟨tickets, dropped⟩ := dropTicket_fields s
      obtain ⟨visits, held⟩ := setStatus_fields { s with tickets := tickets } t.visit.number .held
      rw [dropped, held]
      exact LatchKept.released_endCapture (u := { s with tickets := tickets, visits := visits }) w rfl rfl rfl _ _
    · exact LatchKept.refl w
  | .voidVisit k n => exact (setStatus_kept w n .held).trans (LatchKept.answer (setStatus_kept w n .held).wf k _)
  | .expiry n =>
    have held := setStatus_kept w n .held
    exact held.trans (LatchKept.of_same held.wf rfl rfl rfl)
  | .recall k i c =>
    have released := releaseReservation_journaled (s.endRecall c.ticket.number)
    exact ((LatchKept.of_same (t := s.endRecall c.ticket.number) w rfl rfl rfl).trans
      (LatchKept.of_journaled w released)).trans (LatchKept.answer (released.wf w) k _)
  | .openSession k n => exact closed_answer_latched w latched k n
  | .commit k n => exact closed_answer_latched w latched k n
  | .classes k table => exact LatchKept.answer w k _
  | .site k x => exact LatchKept.answer w k _
  | .auditRow n => exact LatchKept.of_same w rfl rfl rfl
  | .summary n => exact LatchKept.refl w
  | .closeSession => exact LatchKept.refl w
  | .startUp => exact LatchKept.refl w

theorem foldl_jobFailed_latched (jobs : List Job) {s : State} (w : s.mem.wf = true) (latched : s.store.latch = true) :
    LatchKept s (jobs.foldl (fun x o => x.jobFailed o.kind) s) := by
  induction jobs generalizing s with
  | nil => exact LatchKept.refl w
  | cons j jobs ih =>
    have first := jobFailed_latched w latched j.kind
    exact first.trans (ih first.wf (by rw [first.store, latched]))

/-- The part when a job has failed at a row: nothing is queued, and the latch is set and shown. -/
def faulted (s : State) (w : RowWrite) (left : Residue) : State :=
  { s with
    store := { (s.leaveRow w left).store with queue := [], waiting := [], retry := false, latch := true }
    mem := s.mem.write16 hdrStoreFault 1
    regs := { s.regs with cause := s.regs.cause ||| causeStore } }

/-- The fault's entry in the log (R180, 12.7). -/
def faultAudited (s : State) (w : RowWrite) (left : Residue) (kind : JobKind) : State :=
  (faulted s w left).writeAudit .storeFault (u8 w.address.1 ++ u8 kind.requester ++ u16 w.address.2)

theorem failJob_eq {s : State} {kind : JobKind} {w : RowWrite} {rest : List RowWrite} {jobs : List Job}
    (waiting : s.store.waiting = []) (queue : s.store.queue = ⟨kind, w :: rest⟩ :: jobs) (left : Residue) :
    (s.leaveRow w left).failJob ⟨kind, w :: rest⟩ w =
      jobs.foldl (fun x o => x.jobFailed o.kind) ((faultAudited s w left kind).jobFailed kind) := by
  obtain ⟨rows, cut⟩ := leaveRow_fields s w left
  have others : (s.leaveRow w left).store.queue.drop 1 ++ (s.leaveRow w left).store.waiting = jobs := by
    rw [cut]
    simp [queue, waiting]
  have entered : (({ s.leaveRow w left with
      store := { (s.leaveRow w left).store with queue := [], waiting := [], retry := false } } : State).setLatch) =
      faulted s w left := by
    unfold faulted
    rw [cut]
    rfl
  simp only [State.failJob, others, entered, faultAudited]

theorem faulted_mem (s : State) (w : RowWrite) (left : Residue) :
    (faulted s w left).mem = s.mem.write16 hdrStoreFault 1 := rfl

theorem faulted_regs (s : State) (w : RowWrite) (left : Residue) :
    (faulted s w left).regs = { s.regs with cause := s.regs.cause ||| causeStore } := rfl

theorem faulted_store (s : State) (w : RowWrite) (left : Residue) :
    (faulted s w left).store =
      { (s.leaveRow w left).store with queue := [], waiting := [], retry := false, latch := true } := rfl

theorem faulted_audit (s : State) (w : RowWrite) (left : Residue) : (faulted s w left).audit = s.audit := rfl

theorem faulted_wf {s : State} (wf : s.mem.wf = true) (w : RowWrite) (left : Residue) :
    (faulted s w left).mem.wf = true := by
  rw [faulted_mem]
  exact Memory.write16_wf wf

theorem faulted_shown {s : State} (wf : s.mem.wf = true) (w : RowWrite) (left : Residue) :
    (faulted s w left).mem.read16 hdrStoreFault = 1 := by
  rw [faulted_mem]
  exact Memory.read16_write16 wf (by decide)

theorem faulted_raised (s : State) (w : RowWrite) (left : Residue) :
    (faulted s w left).regs.cause &&& causeStore = causeStore := by
  rw [faulted_regs]
  ext i hi
  simp only [BitVec.getElem_and, BitVec.getElem_or]
  cases s.regs.cause[i] <;> cases causeStore[i] <;> rfl

theorem leaveRow_counters (s : State) (w : RowWrite) (left : Residue) :
    (s.leaveRow w left).store.counters = s.store.counters := by
  obtain ⟨rows, cut⟩ := leaveRow_fields s w left
  rw [cut]

/-- When every requester has acted, the store, the flag and the cause are as the failure made them (R180). -/
theorem failed_latched {s : State} (wf : s.mem.wf = true) (kind : JobKind) (w : RowWrite) (left : Residue)
    (jobs : List Job) :
    LatchKept (faulted s w left)
      (jobs.foldl (fun x o => x.jobFailed o.kind) ((faultAudited s w left kind).jobFailed kind)) := by
  have audited : LatchKept (faulted s w left) (faultAudited s w left kind) :=
    writeAudit_latched (faulted_wf wf w left) (by rw [faulted_store]) _ _
  have acted := jobFailed_latched audited.wf (by rw [audited.store, faulted_store]) kind
  have others := foldl_jobFailed_latched jobs acted.wf (by rw [acted.store, audited.store, faulted_store])
  exact (audited.trans acted).trans others

theorem getLast?_joinEntries (es : List AuditEntry) (e : AuditEntry) : (joinEntries es e).getLast? = some e :=
  List.getLast?_concat

/-! The answers to orders whose jobs fail (R180). -/

/-- The order in a slot has been answered STORE_FAULT, and beside that the part is `u`. -/
def Told (s : State) (k : SlotId) (u t : State) : Prop :=
  AnswerWritten k .storeFault [] s t
    ∧ t = { u with
      mem := t.mem
      intake := t.intake
      regs := { u.regs with cause := u.regs.cause ||| causeAnswer } }
    ∧ Memory.SameBut (slotAnswerBytes k) u.mem t.mem

theorem faultAudited_entry (s : State) (w : RowWrite) (left : Residue) (kind : JobKind) :
    (faultAudited s w left kind).audit.entries.getLast?.map (·.kind) = some .storeFault
      ∧ (faultAudited s w left kind).audit.last = nextSerial s.audit.last := by
  have entry :=
    writeAudit_audited (faulted s w left) .storeFault (u8 w.address.1 ++ u8 kind.requester ++ u16 w.address.2)
  rw [faultAudited, entry.entries, entry.last, getLast?_joinEntries, faulted_audit]
  exact ⟨rfl, rfl⟩

theorem told_answer {s u : State} (w : u.mem.wf = true) (intake : u.intake = s.intake) (k : SlotId) :
    Told s k u (u.answer k .storeFault []) :=
  ⟨answer_written w (Nat.zero_le _) ⟨by rw [intake], by rw [intake]⟩ (by rw [intake]), answer_eq u k _ _,
    answer_sameBut_slot w k _ (Nat.zero_le _)⟩

/-- The answer after a reservation has been released in a part that differs from `s` beside it. -/
theorem told_released {s u : State} (w : u.mem.wf = true) (intake : u.intake = s.intake) (k : SlotId) :
    Told s k u.releaseReservation (u.releaseReservation.answer k .storeFault []) := by
  have released := releaseReservation_journaled u
  refine told_answer (released.wf w) ?_ k
  rw [released.eq, intake]

/-- The same for an order of the capture in flight. -/
theorem told_uncaptured {s u : State} (w : u.mem.wf = true) (intake : u.intake = s.intake) (k : SlotId) :
    Told s k
      { u.releaseReservation with
        capture := none
        visits := { u.visits with mark := none }
        lane := u.lane.unmark .capture }
      (u.releaseReservation.endCapture k .storeFault []) := by
  have released := releaseReservation_journaled u
  have ended : uncaptured u.releaseReservation =
      { u.releaseReservation with
        capture := none
        visits := { u.visits with mark := none }
        lane := u.lane.unmark .capture } := by
    obtain ⟨m, r, j, changed⟩ := released.fields
    rw [changed]
    rfl
  rw [← ended]
  refine told_answer (u := uncaptured u.releaseReservation) (released.wf w) ?_ k
  change u.releaseReservation.intake = _
  rw [released.eq, intake]

theorem setStatus_of_found {s : State} {n : W32} {i : Nat} {v : Visit} (found : s.placeOf n = some i)
    (entry : s.place i = some v) (status : VisitStatus) :
    s.setStatus n status = s.setPlace i (some { v with status := status }) := by
  simp only [State.setStatus, found, entry]

theorem firstWeighFailed_of_found {s : State} {c : Capture} {n : W32} {i : Nat} (capture : s.capture = some c)
    (visit : c.visit = some n) (found : s.placeOf n = some i) :
    s.firstWeighFailed = (s.setPlace i none).releaseReservation.endCapture c.slot .storeFault [] := by
  simp [State.firstWeighFailed, capture, visit, found]

/-- The part whose ticket job has failed: its place EMPTY, and the entry HELD again (R142). -/
def ticketDropped (s : State) (i j : Nat) (v : Visit) : State :=
  { s with
    tickets := { s.tickets with places := s.tickets.places.set i .empty, job := none }
    visits := { s.visits with places := s.visits.places.set j (some { v with status := .held }) } }

theorem ticketFailed_of_found {s : State} {c : Capture} {ticket : Ticket} {i j : Nat} {v : Visit}
    (capture : s.capture = some c) (job : s.tickets.job = some (ticket, i))
    (found : s.placeOf ticket.visit.number = some j) (entry : s.place j = some v) :
    s.ticketFailed = (ticketDropped s i j v).releaseReservation.endCapture c.slot .storeFault [] := by
  have dropped : s.dropTicket =
      { s with tickets := { s.tickets with places := s.tickets.places.set i .empty, job := none } } := by
    simp only [State.dropTicket, job]
    rfl
  have held : s.dropTicket.setStatus ticket.visit.number .held = ticketDropped s i j v := by
    rw [dropped]
    exact setStatus_of_found
      (s := { s with tickets := { s.tickets with places := s.tickets.places.set i .empty, job := none } }) found entry
      .held
  simp only [State.ticketFailed, capture, job, held]

end Sys2Proof.StoreJobs
end

section
/-! SUPPORT. The rows of the retained store (R178, R184): where a write lands, the counters row and its generations,
the log's own jobs, and the CRC that protects the rows; and the statement about the store. -/

namespace Sys2Proof.StoreRows

open Sys2Proof Sys2Proof.Machine Sys2Proof.CaptureEnds Sys2Proof.Completions Sys2Proof.StoreJobs

/-! The counters row (R178). -/

theorem countersOf_none : countersOf none = none := rfl

theorem putCounters_second (r : Rows) (v : Row) (second : r.currentSecond = true) :
    r.putCounters v = { r with counters0 := v } :=
  if_pos second

theorem putCounters_first (r : Rows) (v : Row) (first : r.currentSecond = false) :
    r.putCounters v = { r with counters1 := v } :=
  if_neg (by simp [first])

/-- The second place is the current one where it alone checks, or under the higher generation. -/
theorem currentSecond_iff {r : Rows} :
    r.currentSecond = true ↔
      ∃ b, r.countersAt true = some b ∧ ∀ a, r.countersAt false = some a → a.generation < b.generation := by
  unfold Rows.currentSecond
  cases first : r.countersAt false <;> cases second : r.countersAt true <;> simp

/-- The place that is current once the other one holds a row, is the other one's where its generation is higher. -/
theorem countersRow_putCounters {r : Rows} {x : CountersRow}
    (newer : ∀ y, r.countersRow = some y → y.generation < x.generation) :
    (r.putCounters (some x.stored)).countersRow = some x := by
  cases current : r.currentSecond with
  | true =>
    obtain ⟨b, second, -⟩ := currentSecond_iff.mp current
    have row : r.countersRow = some b := by rw [Rows.countersRow, current, second]
    have first : (r.putCounters (some x.stored)).countersAt false = some x := by
      rw [putCounters_second r _ current]
      exact countersOf_stored x
    have kept : (r.putCounters (some x.stored)).countersAt true = some b := by
      rw [putCounters_second r _ current]
      exact second
    have moved : (r.putCounters (some x.stored)).currentSecond = false := by
      rw [Bool.eq_false_iff, Ne, currentSecond_iff]
      rintro ⟨_, at_, older⟩
      obtain rfl := Option.some.inj (kept.symm.trans at_)
      exact absurd (older x first) (BitVec.lt_asymm (newer b row))
    rw [Rows.countersRow, moved, first]
  | false =>
    have row : r.countersRow = r.countersAt false := by rw [Rows.countersRow, current]
    have second : (r.putCounters (some x.stored)).countersAt true = some x := by
      rw [putCounters_first r _ current]
      exact countersOf_stored x
    have kept : (r.putCounters (some x.stored)).countersAt false = r.countersAt false := by
      rw [putCounters_first r _ current]
      rfl
    have moved : (r.putCounters (some x.stored)).currentSecond = true :=
      currentSecond_iff.mpr ⟨x, second, fun a first => newer a (row.trans (kept.symm.trans first))⟩
    rw [Rows.countersRow, moved, second]

theorem lt_succ_generation {g : W32} (last : g ≠ 0xFFFFFFFF) : g < g + 1 := by
  bv_omega

/-- A counters row written is what reads from then on, short of the end of its generations (R178). -/
theorem writeCounters_read {r : Rows} (counters : Counters)
    (open_ : ∀ x, r.countersRow = some x → x.generation ≠ 0xFFFFFFFF) :
    (r.writeCounters counters).countersRow.map (·.counters) = some counters := by
  unfold Rows.writeCounters
  cases row : r.countersRow with
  | none =>
    have newer : ∀ y, r.countersRow = some y → y.generation < (1 : W32) := by simp [row]
    exact congrArg (Option.map _) (countersRow_putCounters (x := ⟨counters, 1⟩) newer)
  | some x =>
    have newer : ∀ y, r.countersRow = some y → y.generation < x.generation + 1 := by
      intro y found
      obtain rfl := Option.some.inj (row.symm.trans found)
      exact lt_succ_generation (open_ x row)
    exact congrArg (Option.map _) (countersRow_putCounters (x := ⟨counters, x.generation + 1⟩) newer)

/-- A place spoilt leaves the current one current (R178). -/
theorem countersRow_spoiled (r : Rows) : (r.putCounters none).countersRow = r.countersRow := by
  cases current : r.currentSecond with
  | true =>
    obtain ⟨b, second, -⟩ := currentSecond_iff.mp current
    have kept : (r.putCounters none).countersAt true = some b := by
      rw [putCounters_second r _ current]
      exact second
    have gone : (r.putCounters none).countersAt false = none := by
      rw [putCounters_second r _ current]
      rfl
    have same : (r.putCounters none).currentSecond = true :=
      currentSecond_iff.mpr ⟨b, kept, fun a found => by rw [gone] at found; contradiction⟩
    rw [Rows.countersRow, same, kept, Rows.countersRow, current, second]
  | false =>
    have gone : (r.putCounters none).countersAt true = none := by
      rw [putCounters_first r _ current]
      rfl
    have same : (r.putCounters none).currentSecond = false := by
      rw [Bool.eq_false_iff, Ne, currentSecond_iff]
      rintro ⟨b, found, -⟩
      rw [gone] at found
      contradiction
    rw [Rows.countersRow, same, putCounters_first r _ current, Rows.countersRow, current]
    rfl

theorem spoilCounters_reads (r : Rows) (left : Residue) : (r.spoilCounters left).countersRow = r.countersRow := by
  cases left with
  | old => rfl
  | corrupt => exact countersRow_spoiled r
  | new => exact countersRow_spoiled r
  | other row => exact countersRow_spoiled r

theorem writeCounters_keeps_second {r : Rows} (counters : Counters) (second : r.currentSecond = true) :
    (r.writeCounters counters).counters1 = r.counters1 := by
  rw [Rows.writeCounters, putCounters_second r _ second]

theorem writeCounters_keeps_first {r : Rows} (counters : Counters) (first : r.currentSecond = false) :
    (r.writeCounters counters).counters0 = r.counters0 := by
  rw [Rows.writeCounters, putCounters_first r _ first]

/-! Rows of the other kinds (R178, assumption 10). -/

section Other

variable {w : RowWrite} (other : ∀ change, w ≠ .counters change) (s : State)
include other

theorem writeRow_of_other : s.writeRow w = { s with store := { s.store with rows := s.store.rows.putRow w } } := by
  cases w with
  | counters change => exact absurd rfl (other change)
  | _ => rfl

theorem leaveRow_of_other (left : Residue) :
    s.leaveRow w left = { s with store := { s.store with rows := s.store.rows.leaveRow w left } } := by
  cases w with
  | counters change => exact absurd rfl (other change)
  | _ => rfl

end Other

/-! The log's own jobs (R184). -/

/-- The job of an entry's row is requested, and the write mark stands on it. -/
def rowRequested (s : State) (e : AuditEntry) : State :=
  { s with
    audit := { s.audit with mark := e.serial, busy := true }
    store := { s.store with waiting := s.store.waiting ++ [⟨.auditRow e.serial, [.audit e]⟩] } }

theorem auditPump_of_busy {s : State} (h : s.store.latch = true ∨ s.audit.busy = true) : s.auditPump = s :=
  if_pos (by simpa using h)

section Idle

variable {s : State} (sound : s.store.latch = false) (idle : s.audit.busy = false)

theorem find?_of_gone {es : List AuditEntry} {n : W32} (gone : ∀ e ∈ es, e.serial ≠ n) :
    es.find? (fun e => e.serial == n) = none :=
  List.find?_eq_none.mpr fun e member => by simpa using gone e member

include sound idle

theorem auditPump_of_marked {e : AuditEntry}
    (found : s.audit.entries.find? (fun x => x.serial == s.audit.mark) = some e) : s.auditPump = rowRequested s e := by
  have free : ¬(s.store.latch || s.audit.busy) = true := by simp [sound, idle]
  simp only [State.auditPump, if_neg free, found]
  rfl

variable (gone : ∀ e ∈ s.audit.entries, e.serial ≠ s.audit.mark)
include gone

theorem auditPump_of_done (done : s.audit.mark = nextSerial s.audit.last ∨ s.audit.entries = []) :
    s.auditPump = s := by
  have free : ¬(s.store.latch || s.audit.busy) = true := by simp [sound, idle]
  simp only [State.auditPump, if_neg free, find?_of_gone gone]
  rcases done with last | empty
  · rw [if_pos last]
  · rw [empty]
    exact ite_self s

theorem auditPump_of_left {e : AuditEntry} {rest : List AuditEntry}
    (open_ : s.audit.mark ≠ nextSerial s.audit.last) (entries : s.audit.entries = e :: rest) :
    s.auditPump = rowRequested s e := by
  have free : ¬(s.store.latch || s.audit.busy) = true := by simp [sound, idle]
  have head : s.audit.entries.head? = some e := by rw [entries, List.head?_cons]
  simp only [State.auditPump, if_neg free, find?_of_gone gone, if_neg open_, head]
  rfl

end Idle

/-- The last entry's row is written: the mark moves behind it, and nothing is requested (R184). -/
theorem auditRow_completed {s : State} {n : W32} (last : nextSerial n = nextSerial s.audit.last)
    (gone : ∀ e ∈ s.audit.entries, e.serial ≠ nextSerial n) :
    s.jobCompleted (.auditRow n) = { s with audit := { s.audit with mark := nextSerial n, busy := false } } := by
  let moved : State := { s with audit := { s.audit with mark := nextSerial n, busy := false } }
  change moved.auditPump = moved
  by_cases latched : moved.store.latch = true
  · exact auditPump_of_busy (.inl latched)
  · exact auditPump_of_done (by simpa using latched) rfl gone (.inl last)

/-! Protection (R178). -/

theorem withCrc_take_content {n : Nat} {content : List Byte} (fits : content.length ≤ 64 * n - 2) :
    (withCrc n content).take content.length = content := by
  unfold withCrc
  rw [padTo_take fits]
  simp

theorem withCrc_drop {n : Nat} (content : List Byte) :
    (withCrc n content).drop (64 * n - 2) = bytes16 (crc16 ((withCrc n content).take (64 * n - 2))) := by
  have body : (padTo (64 * n - 2) (content.take (64 * n - 2))).length = 64 * n - 2 :=
    padTo_length (by rw [List.length_take]; omega)
  have low : (withCrc n content).take (64 * n - 2) = padTo (64 * n - 2) (content.take (64 * n - 2)) :=
    List.take_left' body
  rw [low]
  exact List.drop_left' body

theorem withCrc_checks {n : Nat} (positive : 0 < n) (content : List Byte) :
    checkedBytes ((List.range n).map fun r => some (rowOf (withCrc n content) r)) =
      some ((withCrc n content).take (64 * n - 2)) := by
  have body : (padTo (64 * n - 2) (content.take (64 * n - 2))).length = 64 * n - 2 :=
    padTo_length (by rw [List.length_take]; omega)
  rw [checkedBytes_withCrc positive]
  exact congrArg some (List.take_left' body).symm

theorem checkedBytes_of_absent {rows : List Row} (absent : none ∈ rows) : checkedBytes rows = none := by
  refine if_neg fun whole => ?_
  have present := List.all_eq_true.mp whole none absent
  contradiction

theorem checkedBytes_of_mismatch {rows : List Row} {bytes : List (List Byte)} (held : rows = bytes.map some)
    (mismatch : bytes.flatten.drop (64 * rows.length - 2) ≠
      bytes16 (crc16 (bytes.flatten.take (64 * rows.length - 2)))) : checkedBytes rows = none := by
  have read : (rows.flatMap fun r => r.getD []) = bytes.flatten := by
    rw [held, List.flatMap_map, ← List.flatMap_id]
    rfl
  unfold checkedBytes
  split
  · rw [read]
    exact if_neg mismatch
  · rfl

/-- Settles O60: the queue and its front row case by case, with the failure of a job under the latch; the answers to
orders whose jobs fail; then the rows, the log's jobs, and what is written read back. -/
theorem theStoreWritesJobsRowByRow : Obligations.TheStoreWritesJobsRowByRow := by
  refine ⟨?enter, ?nothing, ?idle, ?front, ?failed, ?counters, ?spoiled, ?others, ?pump, ?written, ?crc, ?unread,
    countersOf_stored, visitOf_stored, copyOf_stored, auditOf_stored, classOf_stored, settingsOf_stored,
    fun place row e c a x y => ⟨rfl, rfl, rfl, rfl, rfl, rfl, rfl, fun _ => rfl⟩⟩
  case enter =>
    intro s j rest r waiting
    refine ⟨fun room => ?_, fun full => ?_⟩
    · rw [exec_storeJobEnter r, enter_of_room waiting room]
    · rw [exec_storeJobEnter r, enter_of_full waiting full]
  case nothing =>
    intro s r waiting
    rw [exec_storeJobEnter r, enter_of_none waiting]
  case idle =>
    intro s left matched r waiting queue
    rw [exec_storeRowWritten r, rowWritten_of_idle waiting queue]
  case front =>
    intro s left kind w rest jobs r waiting queue written
    have matched : exec (.storeRowWritten true left) s = .next (s.finishRow ⟨kind, w :: rest⟩ w rest) := by
      rw [exec_storeRowWritten r, rowWritten_matched waiting queue]
    have last : rest = [] → exec (.storeRowWritten true left) s = .next ((rowDone s w jobs).jobCompleted kind) := by
      rintro rfl
      exact exec_lastRow r waiting queue left
    refine ⟨fun more => ?next, last, fun first => ?again, fun wf second => ?fails, ?audit, ?site, ?classes⟩
    case next => rw [matched, finishRow_next queue more]
    case again => rw [exec_storeRowWritten r, rowWritten_again waiting queue left first]
    case fails =>
      have kept := failed_latched wf kind w left jobs
      obtain ⟨entry, serial⟩ := faultAudited_entry s w left kind
      have store := kept.store.trans (faulted_store s w left)
      refine ⟨_, faulted s w left, faultAudited s w left kind, ?_, rfl, rfl, rfl, by rw [store], by rw [store],
        by rw [store], by rw [store], ?_, kept.shown.trans (faulted_shown wf w left),
        kept.causes _ (faulted_raised s w left), entry, serial⟩
      · rw [exec_storeRowWritten r, rowWritten_failed waiting queue left second, failJob_eq waiting queue]
      · rw [store]
        exact leaveRow_counters s w left
    case audit =>
      rintro n rfl rfl serial gone
      rw [last rfl, auditRow_completed (s := rowDone s w jobs) serial gone]
      rfl
    case site =>
      rintro k x wf rfl rfl
      exact ⟨_, last rfl, answer_written (u := { rowDone s w jobs with site := x }) wf (Nat.zero_le _) ⟨rfl, rfl⟩ rfl,
        answer_eq { rowDone s w jobs with site := x } k .done [],
        answer_sameBut_slot (u := { rowDone s w jobs with site := x }) wf k .done (Nat.zero_le _)⟩
    case classes =>
      rintro k table wf rfl rfl
      let u : State := { rowDone s w jobs with tracker := { s.tracker with classes := table } }
      exact ⟨_, last rfl, answer_written (u := u) wf (Nat.zero_le _) ⟨rfl, rfl⟩ rfl, answer_eq u k .done [],
        answer_sameBut_slot (u := u) wf k .done (Nat.zero_le _)⟩
  case failed =>
    intro s wf told
    refine ⟨fun k table => told_answer wf rfl k, fun k x => told_answer wf rfl k, fun k n i v found entry => ?void,
      fun k i c => ?recalled, fun c n i capture visit found => ?first, fun c ticket i j v capture job found entry => ?ticket⟩
    case void =>
      have failed : s.jobFailed (.voidVisit k n) =
          (s.setPlace i (some { v with status := .held })).answer k .storeFault [] := by
        change (s.setStatus n .held).answer k .storeFault [] = _
        rw [setStatus_of_found found entry]
      rw [failed]
      exact told_answer (s := s) (u := s.setPlace i (some { v with status := .held })) wf rfl k
    case recalled => exact told_released (s := s) (u := s.endRecall c.ticket.number) wf rfl k
    case first =>
      have failed : s.jobFailed .firstWeigh = (s.setPlace i none).releaseReservation.endCapture c.slot .storeFault [] :=
        firstWeighFailed_of_found capture visit found
      rw [failed]
      exact told_uncaptured (s := s) (u := s.setPlace i none) wf rfl c.slot
    case ticket =>
      have failed : s.jobFailed .ticket =
          (ticketDropped s i j v).releaseReservation.endCapture c.slot .storeFault [] :=
        ticketFailed_of_found capture job found entry
      rw [failed]
      exact told_uncaptured (s := s) (u := ticketDropped s i j v) wf rfl c.slot
  case counters =>
    intro s change
    exact ⟨rfl, writeCounters_read _, writeCounters_keeps_second _, writeCounters_keeps_first _⟩
  case spoiled => exact fun s change left => ⟨spoilCounters_reads _ left, rfl⟩
  case others =>
    intro s w other r landed kept
    have content : ∀ v, r.setContent w v = landed v := by
      intro v
      cases w <;> rfl
    refine ⟨?_, ?_, ?_, ?_, fun bytes => ?_⟩
    · rw [writeRow_of_other other, Rows.putRow, content]
    · rw [leaveRow_of_other other, writeRow_of_other other]
      rfl
    · rw [leaveRow_of_other other]
      rfl
    · rw [leaveRow_of_other other, Rows.leaveRow, content]
    · rw [leaveRow_of_other other, Rows.leaveRow, content]
  case pump =>
    intro s requested gone
    exact ⟨auditPump_of_busy, fun sound idle => ⟨fun e found => auditPump_of_marked sound idle found,
      fun left done => auditPump_of_done sound idle left done,
      fun e rest left open_ entries => auditPump_of_left sound idle left open_ entries⟩, fun n => ⟨rfl, rfl⟩⟩
  case written => exact fun s kind detail => rfl
  case crc =>
    intro n content positive fits
    exact ⟨withCrc_length positive content, withCrc_take_content fits, withCrc_drop content,
      withCrc_checks positive content⟩
  case unread =>
    exact fun rows => ⟨checkedBytes_of_absent, fun bytes held mismatch => checkedBytes_of_mismatch held mismatch⟩

end Sys2Proof.StoreRows
end

section
/-! SUPPORT. SESSION_INSTALL (R175): the staged set put in force, the decks judged and shown under it, the notices of
the cells, and the session over; and the statement about it and the completions of the session's jobs. -/

namespace Sys2Proof.Installs

open Sys2Proof Sys2Proof.Machine Sys2Proof.CaptureEnds Sys2Proof.SessionEnds Sys2Proof.Weighing

/-! The set in force (R12, R42, R58, R59). -/

/-- The part with the staged set in force, its decks' DEGRADED still to be judged. -/
def setInForce (s : State) (m : MetroSet) (r : CommitRecord) : State :=
  { s with
    metro := { active := m, epoch := r.epoch, standIn := false }
    chain :=
      { s.chain with
        cells := s.chain.cells.map fun x => { x with history := [], sum := 0 }
        decks := s.chain.decks.map (installChainDeck s.metro.active m) }
    cells := mapCells s.cells Cell.start (installCell m)
    back := { s.back with queue := s.back.queue.filter fun c => (m.fittedTo c).isSome }
    monitor :=
      { s.monitor with
        decks :=
          s.monitor.decks.map (installMonitorDeck s.metro.active m r.changedDecks (s.link.state != .live)) } }

/-- A deck with DEGRADED as it may be judged. -/
def judgedDeck (b : Bool) (x : DeckMonitor) : DeckMonitor :=
  { x with flags := { x.flags with degraded := b } }

/-- Judging DEGRADED touches that flag alone, of the enabled decks alone (R19). -/
theorem judgeDegraded_foldl (l : List DeckId) (s : State) :
    OnlyDecks s (l.foldl State.judgeDegraded s)
      ∧ ∀ e, ∃ b, (l.foldl State.judgeDegraded s).monitor.decks.get e =
        if s.metro.active.isEnabled e = true then judgedDeck b (s.monitor.decks.get e)
        else s.monitor.decks.get e := by
  induction l generalizing s with
  | nil =>
    refine ⟨OnlyDecks.refl s, fun e => ⟨(s.flagsOf e).degraded, ?_⟩⟩
    split <;> rfl
  | cons d l ih =>
    obtain ⟨only, decks⟩ := mapFlags_spec s d fun f => { f with degraded := s.deckDegraded d }
    obtain ⟨onlyRest, rest⟩ := ih (s.judgeDegraded d)
    have metro : (s.judgeDegraded d).metro = s.metro := by rw [State.judgeDegraded, only]
    refine ⟨only.trans onlyRest, fun e => ?_⟩
    obtain ⟨b, judged⟩ := rest e
    refine ⟨b, ?_⟩
    rw [List.foldl_cons, judged, metro, State.judgeDegraded, decks]
    by_cases enabled : s.metro.active.isEnabled e = true
    · rw [if_pos enabled, if_pos enabled]
      split <;> rfl
    · rw [if_neg enabled, if_neg enabled, if_neg]
      rintro ⟨rfl, inForce⟩
      exact enabled inForce

/-- The notices of the cells are records (R12). -/
theorem noticeChanged_journaled (s : State) (before : List Cell) :
    Journaled recordCauses s (s.noticeChanged before) := by
  unfold State.noticeChanged
  generalize allCells = cs
  induction cs generalizing s with
  | nil => exact Journaled.refl _ s
  | cons c cs ih =>
    rw [List.foldl_cons]
    refine Journaled.trans ?_ (ih _)
    split
    · exact Journaled.refl _ s
    · exact notice_journaled ..

/-- The part with the set in force, its decks judged and its cells' notices given. -/
def judgedInForce (s : State) (m : MetroSet) (r : CommitRecord) : State :=
  (allDecks.foldl State.judgeDegraded (setInForce s m r)).noticeChanged s.cells

/-- The part with the new epoch shown and the session over (R163). -/
def installed (s : State) (m : MetroSet) (r : CommitRecord) : State :=
  sessionOver ((judgedInForce s m r).writeLong hdrEpoch r.epoch)

/-- The body of the answer to COMMIT_SESSION. -/
def installBody (r : CommitRecord) : List Byte :=
  bytes32 r.epoch ++ u16 r.changedCount ++ u16 0

theorem installBody_fits (r : CommitRecord) : (installBody r).length ≤ 64 :=
  Nat.le_of_ble_eq_true rfl

theorem installDue_iff {s : State} :
    s.installDue = true ↔
      ∃ m r, s.session.stored = true ∧ s.session.staged = some m ∧ s.session.commit = some r := by
  simp only [State.installDue, Bool.and_eq_true, Option.isSome_iff_exists]
  constructor
  · rintro ⟨⟨stored, m, staged⟩, r, commit⟩
    exact ⟨m, r, stored, staged, commit⟩
  · rintro ⟨m, r, stored, staged, commit⟩
    exact ⟨⟨stored, m, staged⟩, r, commit⟩

section Installed

variable {s : State} {m : MetroSet} {r : CommitRecord}

theorem installSet_of_due (stored : s.session.stored = true) (staged : s.session.staged = some m)
    (commit : s.session.commit = some r) :
    s.installSet = (installed s m r).answer r.slot .done (installBody r) := by
  simp only [State.installSet, stored, staged, commit]
  rw [endSession_eq]
  rfl

variable (s m r)

/-- What judging and the notices leave of the set in force. -/
theorem judgedInForce_fields :
    ∃ decks mem regs journal, judgedInForce s m r =
      { setInForce s m r with
        monitor := { s.monitor with decks := decks }
        mem := mem
        regs := regs
        journal := journal } := by
  obtain ⟨only, -⟩ := judgeDegraded_foldl allDecks (setInForce s m r)
  obtain ⟨mem, regs, journal, noticed⟩ :=
    (noticeChanged_journaled (allDecks.foldl State.judgeDegraded (setInForce s m r)) s.cells).fields
  rw [OnlyDecks] at only
  exact ⟨_, mem, regs, journal, by rw [judgedInForce, noticed, only]; rfl⟩

/-- The notices are all that the host sees of the judging. -/
theorem judgedInForce_recorded :
    Registers.Raised recordCauses s.regs (judgedInForce s m r).regs
      ∧ (s.mem.wf = true → (judgedInForce s m r).mem.wf = true)
      ∧ (s.mem.wf = true → Memory.SameBut journalBytes s.mem (judgedInForce s m r).mem) := by
  obtain ⟨only, -⟩ := judgeDegraded_foldl allDecks (setInForce s m r)
  have noticed := noticeChanged_journaled (allDecks.foldl State.judgeDegraded (setInForce s m r)) s.cells
  have regs : (allDecks.foldl State.judgeDegraded (setInForce s m r)).regs = s.regs := by rw [only]; rfl
  have mem : (allDecks.foldl State.judgeDegraded (setInForce s m r)).mem = s.mem := by rw [only]; rfl
  refine ⟨?_, fun w => noticed.wf (by rw [mem, w]), fun w => ?_⟩
  · rw [← regs]
    exact noticed.raised
  · rw [← mem]
    exact noticed.memory (by rw [mem, w])

/-- A deck of the monitor after the judging. -/
theorem judgedInForce_deck (d : DeckId) :
    ∃ b, (judgedInForce s m r).monitor.decks.get d =
      if m.isEnabled d = true then
        judgedDeck b (installMonitorDeck s.metro.active m r.changedDecks (s.link.state != .live) d
          (s.monitor.decks.get d))
      else
        installMonitorDeck s.metro.active m r.changedDecks (s.link.state != .live) d (s.monitor.decks.get d) := by
  obtain ⟨-, decks⟩ := judgeDegraded_foldl allDecks (setInForce s m r)
  obtain ⟨b, judged⟩ := decks d
  have noticed := noticeChanged_journaled (allDecks.foldl State.judgeDegraded (setInForce s m r)) s.cells
  have before : (setInForce s m r).monitor.decks.get d =
      installMonitorDeck s.metro.active m r.changedDecks (s.link.state != .live) d (s.monitor.decks.get d) :=
    Four.get_map ..
  refine ⟨b, ?_⟩
  rw [judgedInForce, noticed.eq]
  rw [before] at judged
  exact judged

theorem judgedInForce_metro : (judgedInForce s m r).metro.active = m := by
  obtain ⟨_, _, _, _, fields⟩ := judgedInForce_fields s m r
  rw [fields]
  rfl

/-- The installation with its answer, field by field. -/
theorem installed_answer_eq :
    let t := (installed s m r).answer r.slot .done (installBody r)
    t = { s with
      metro := { active := m, epoch := r.epoch, standIn := false }
      chain := { s.chain with cells := t.chain.cells, decks := t.chain.decks }
      cells := t.cells
      back := { s.back with queue := s.back.queue.filter fun c => (m.fittedTo c).isSome }
      monitor := { s.monitor with decks := t.monitor.decks }
      session := ended s.session
      lane := s.lane.unmark .session
      mem := t.mem
      intake := t.intake
      regs := t.regs
      journal := t.journal } := by
  intro t
  obtain ⟨decks, mem, regs, journal, fields⟩ := judgedInForce_fields s m r
  have answered : t = _ := answer_eq (installed s m r) r.slot .done (installBody r)
  rw [answered]
  generalize t.mem = mem', t.intake = intake'
  rw [installed, fields]
  rfl

/-- What an answer leaves alone. -/
theorem installed_answer_kept :
    ((installed s m r).answer r.slot .done (installBody r)).chain.decks =
        s.chain.decks.map (installChainDeck s.metro.active m)
      ∧ ((installed s m r).answer r.slot .done (installBody r)).cells = mapCells s.cells Cell.start (installCell m)
      ∧ ((installed s m r).answer r.slot .done (installBody r)).monitor.decks =
        testDecks ((judgedInForce s m r).writeLong hdrEpoch r.epoch) false := by
  rw [answer_eq]
  obtain ⟨decks, mem, regs, journal, fields⟩ := judgedInForce_fields s m r
  refine ⟨?_, ?_, rfl⟩
  · rw [installed, fields]
    rfl
  · rw [installed, fields]
    rfl

/-- A deck of the monitor under the installed set. -/
theorem installed_deck (d : DeckId) :
    ∃ b, ((installed s m r).answer r.slot .done (installBody r)).monitor.decks.get d =
      let x := installMonitorDeck s.metro.active m r.changedDecks (s.link.state != .live) d (s.monitor.decks.get d)
      if m.isEnabled d = true then { x with flags := { x.flags with degraded := b, inTest := false } } else x := by
  obtain ⟨b, judged⟩ := judgedInForce_deck s m r d
  refine ⟨b, ?_⟩
  have metro : ((judgedInForce s m r).writeLong hdrEpoch r.epoch).metro.active.isEnabled d = m.isEnabled d :=
    congrArg (MetroSet.isEnabled · d) (judgedInForce_metro s m r)
  have decks : ((judgedInForce s m r).writeLong hdrEpoch r.epoch).monitor.decks.get d = _ := judged
  rw [(installed_answer_kept s m r).2.2, testDecks, Four.get_map, metro, decks]
  split <;> rfl

theorem installed_chainDeck (d : DeckId) :
    ((installed s m r).answer r.slot .done (installBody r)).chain.decks.get d =
      installChainDeck s.metro.active m d (s.chain.decks.get d) := by
  rw [(installed_answer_kept s m r).1, Four.get_map]

theorem installed_cell (c : CellId) :
    ((installed s m r).answer r.slot .done (installBody r)).cell c = installCell m c (s.cell c) := by
  rw [State.cell, (installed_answer_kept s m r).2.1, mapCells_getD]
  rfl

end Installed

/-! A cell, a chain deck and a deck under an installed set. -/

theorem installCell_of_unfitted {m : MetroSet} {c : CellId} {x : Cell} (unfitted : m.fittedTo c = none) :
    installCell m c x = Cell.start := by
  simp only [installCell, unfitted]

theorem installCell_of_new {m : MetroSet} {c : CellId} {x : Cell} (fitted : m.fittedTo c ≠ none)
    (new : x.state = .unfitted) : installCell m c x = { Cell.start with state := .active } := by
  obtain ⟨d, deck⟩ := Option.ne_none_iff_exists'.mp fitted
  simp only [installCell, deck, new]

theorem installCell_of_known {m : MetroSet} {c : CellId} {x : Cell} (fitted : m.fittedTo c ≠ none)
    (known : x.state ≠ .unfitted) : installCell m c x = x := by
  obtain ⟨d, deck⟩ := Option.ne_none_iff_exists'.mp fitted
  simp only [installCell, deck]
  cases state : x.state with
  | unfitted => exact absurd state known
  | active => rfl
  | faulted => rfl
  | recovered => rfl

theorem installChainDeck_of_both {old m : MetroSet} {d : DeckId} (x : DeckChain) (new : m.isEnabled d = true)
    (before : old.isEnabled d = true) :
    installChainDeck old m d x = { x with history := [], fill := 0, running := 0 } := by
  simp [installChainDeck, new, before]

theorem installChainDeck_of_other {old m : MetroSet} {d : DeckId} (x : DeckChain)
    (other : m.isEnabled d = false ∨ old.isEnabled d = false) : installChainDeck old m d x = DeckChain.start := by
  rcases other with gone | new
  · simp [installChainDeck, gone]
  · simp [installChainDeck, new]

section Deck

variable {old m : MetroSet} {changed : List DeckId} {linkFault : Bool} {d : DeckId} (x : DeckMonitor)

theorem installMonitorDeck_of_touched (enabled : m.isEnabled d = true)
    (touched : d ∈ changed ∨ old.isEnabled d = false) :
    let y := installMonitorDeck old m changed linkFault d x
    y.zero = m.zcalOf d ∧ y.zeroRef = m.zcalOf d ∧ y.flags.zeroUnset = false ∧ y.watch = .ended
      ∧ y.limitMark = false := by
  have either : (!old.isEnabled d || decide (d ∈ changed)) = true := by
    rcases touched with member | new
    · simp [member]
    · simp [new]
  simp [installMonitorDeck, enabled, either]

theorem installMonitorDeck_of_untouched (enabled : m.isEnabled d = true) (unchanged : d ∉ changed)
    (before : old.isEnabled d = true) :
    let y := installMonitorDeck old m changed linkFault d x
    y.zero = x.zero ∧ y.zeroRef = x.zeroRef ∧ y.flags.zeroUnset = x.flags.zeroUnset ∧ y.watch = x.watch
      ∧ y.limitMark = x.limitMark := by
  simp [installMonitorDeck, enabled, unchanged, before]

theorem installMonitorDeck_of_enabled (enabled : m.isEnabled d = true) :
    (installMonitorDeck old m changed linkFault d x).flags.filling = true
      ∧ (installMonitorDeck old m changed linkFault d x).flags.uncalibrated = false := by
  simp [installMonitorDeck, enabled]

theorem installMonitorDeck_of_disabled (disabled : m.isEnabled d = false) :
    let y := installMonitorDeck old m changed linkFault d x
    y.zero = m.zcalOf d ∧ y.zeroRef = m.zcalOf d ∧ y.watch = .ended ∧ y.limitMark = false
      ∧ y.flags = DeckFlags.none := by
  simp [installMonitorDeck, disabled]

end Deck

/-! What the host finds (R163, R175). -/

section Shown

variable {s : State} (w : s.mem.wf = true) (m : MetroSet) (r : CommitRecord)
include w

theorem epochShown_wf : ((judgedInForce s m r).writeLong hdrEpoch r.epoch).mem.wf = true := by
  rw [writeLong_mem]
  exact Memory.write32_wf ((judgedInForce_recorded s m r).2.1 w)

theorem installed_wf : (installed s m r).mem.wf = true :=
  inSession_wf (epochShown_wf w m r) ..

theorem installed_session : (installed s m r).mem.read16 hdrSession = BitVec.ofNat 16 SessionState.closed.code :=
  inSession_shown (epochShown_wf w m r) ..

theorem installed_session_sameBut :
    Memory.SameBut (bytesFrom hdrSession 2) ((judgedInForce s m r).writeLong hdrEpoch r.epoch).mem
      (installed s m r).mem :=
  inSession_sameBut (epochShown_wf w m r) _ _ _

theorem installed_epoch : (installed s m r).mem.read32 hdrEpoch = r.epoch := by
  have shown : ((judgedInForce s m r).writeLong hdrEpoch r.epoch).mem.read32 hdrEpoch = r.epoch := by
    rw [writeLong_mem]
    exact Memory.read32_write32 ((judgedInForce_recorded s m r).2.1 w) (by decide)
  have same := installed_session_sameBut w m r
  rw [same.read32 (by unfold bytesFrom; decide) (by unfold bytesFrom; decide) (by unfold bytesFrom; decide)
    (by unfold bytesFrom; decide), shown]

theorem installed_sameBut :
    Memory.SameBut (fun x => journalBytes x ∨ bytesFrom hdrEpoch 4 x ∨ bytesFrom hdrSession 2 x) s.mem
      (installed s m r).mem := by
  obtain ⟨-, wf, recorded⟩ := judgedInForce_recorded s m r
  have epoch : Memory.SameBut (bytesFrom hdrEpoch 4) (judgedInForce s m r).mem
      ((judgedInForce s m r).writeLong hdrEpoch r.epoch).mem := by
    rw [writeLong_mem]
    exact Memory.SameBut.write32 (wf w) fun y lower upper => ⟨lower, upper⟩
  exact (((recorded w).mono fun _ => .inl).trans (epoch.mono fun _ inside => .inr (.inl inside))).trans
    ((installed_session_sameBut w m r).mono fun _ inside => .inr (.inr inside))

end Shown

theorem installed_regs (s : State) (m : MetroSet) (r : CommitRecord) :
    Registers.Raised (causeAnswer ||| causeJournal ||| causeCondition) s.regs
      ((installed s m r).answer r.slot .done (installBody r)).regs := by
  have recorded := (judgedInForce_recorded s m r).1
  have answered : Registers.Raised causeAnswer (judgedInForce s m r).regs
      ((installed s m r).answer r.slot .done (installBody r)).regs := by
    rw [answer_regs]
    exact ⟨causeAnswer, by decide, rfl⟩
  exact (recorded.mono (by decide)).trans (answered.mono (by decide))

theorem installed_intake (s : State) (m : MetroSet) (r : CommitRecord) : (installed s m r).intake = s.intake := by
  obtain ⟨_, _, _, _, fields⟩ := judgedInForce_fields s m r
  rw [installed, fields]
  rfl

/-- The commit job completes: COMMIT is audited, and the installation is due (R174). -/
theorem commitCompleted_eq {s : State} {c : CommitRecord} (commit : s.session.commit = some c) :
    s.commitCompleted =
      { s.writeAudit .commit (commitDetail c.oldCrc c.newCrc (field16 c.changedCount) (some c.listed) false) with
        session := { s.session with stored := true } } := by
  let written := s.writeAudit .commit (commitDetail c.oldCrc c.newCrc (field16 c.changedCount) (some c.listed) false)
  have logged : Logged causeJournal s written := writeAudit_logged ..
  have session : written.session = s.session := by rw [logged.eq]
  have completed : s.commitCompleted = { written with session := { written.session with stored := true } } := by
    simp only [State.commitCompleted, commit, written]
  rw [completed, session]

theorem exec_sessionInstall (s : State) : exec .sessionInstall s = .next (s.takeStopped .install) := rfl

/-- The header's words that the installation writes lie outside every slot. -/
theorem header_not_slot (k : SlotId) {x : Nat} (below : x < 0x400) : ¬slotAnswerBytes k x := by
  have lower := slotBase_lower k
  unfold slotAnswerBytes
  omega

/-- Settles O58: the installation is an answer given in the part with the staged set in force and the session over; the
decks and the cells by their cases under that set. -/
theorem sessionInstallChangesTheSet : Obligations.SessionInstallChangesTheSet := by
  refine ⟨?due, ?undue, ?committed, ?opened⟩
  case due =>
    intro s rest w stopped
    obtain ⟨m, r, stored, staged, commit⟩ := installDue_iff.mp stopped.due
    let whole : State := { s with unfinished := [] }
    have fits := installBody_fits r
    have wf := installed_wf (s := whole) w m r
    have same := answer_sameBut_slot wf r.slot .done fits
    have outside := fun {x : Nat} => header_not_slot r.slot (x := x)
    have intake := installed_intake whole m r
    refine ⟨m, r, (installed whole m r).answer r.slot .done (installBody r), stored, staged, commit, ?_,
      answer_written wf fits ⟨by rw [intake], by rw [intake]⟩ (by rw [intake]), installed_answer_eq whole m r,
      fun d new before => ?_, fun d other => ?_, fun c => ⟨fun unfitted => ?_, fun fitted new => ?_, fun fitted known => ?_⟩,
      fun d enabled touched => ?_, fun d enabled unchanged before => ?_, fun d disabled => ?_, fun d enabled => ?_,
      fun d disabled => ?_, ?_, ?_, installed_regs whole m r, ?_⟩
    · rw [exec_sessionInstall, takeStopped_of_stopped stopped, State.takeOwn,
        installSet_of_due (s := whole) stored staged commit]
    · rw [installed_chainDeck, installChainDeck_of_both _ new before]
    · rw [installed_chainDeck, installChainDeck_of_other _ other]
    · rw [installed_cell, installCell_of_unfitted (x := whole.cell c) unfitted]
    · rw [installed_cell, installCell_of_new (x := whole.cell c) fitted new]
    · rw [installed_cell, installCell_of_known (x := whole.cell c) fitted known]
      rfl
    · obtain ⟨b, deck⟩ := installed_deck whole m r d
      rw [deck]
      simp only [enabled, if_true]
      exact installMonitorDeck_of_touched _ enabled touched
    · obtain ⟨b, deck⟩ := installed_deck whole m r d
      rw [deck]
      simp only [enabled, if_true]
      exact installMonitorDeck_of_untouched _ enabled unchanged before
    · obtain ⟨b, deck⟩ := installed_deck whole m r d
      obtain ⟨zero, zeroRef, watch, mark, -⟩ :=
        installMonitorDeck_of_disabled (old := whole.metro.active) (changed := r.changedDecks)
          (linkFault := whole.link.state != .live) (whole.monitor.decks.get d) disabled
      rw [deck]
      simp only [disabled, Bool.false_eq_true, if_false]
      exact ⟨zero, zeroRef, watch, mark⟩
    · obtain ⟨b, deck⟩ := installed_deck whole m r d
      obtain ⟨filling, calibrated⟩ :=
        installMonitorDeck_of_enabled (old := whole.metro.active) (changed := r.changedDecks)
          (linkFault := whole.link.state != .live) (whole.monitor.decks.get d) enabled
      rw [State.flagsOf, deck]
      simp only [enabled, if_true]
      exact ⟨filling, trivial, calibrated⟩
    · obtain ⟨b, deck⟩ := installed_deck whole m r d
      obtain ⟨-, -, -, -, flags⟩ :=
        installMonitorDeck_of_disabled (old := whole.metro.active) (changed := r.changedDecks)
          (linkFault := whole.link.state != .live) (whole.monitor.decks.get d) disabled
      rw [State.flagsOf, deck]
      simp only [disabled, Bool.false_eq_true, if_false]
      exact flags
    · rw [same.read32 (outside (by decide)) (outside (by decide)) (outside (by decide)) (outside (by decide)),
        installed_epoch (s := whole) w]
    · rw [same.read16 (outside (by decide)) (outside (by decide)), installed_session (s := whole) w]
    · exact ((installed_sameBut (s := whole) w m r).mono fun _ => .inr).trans (same.mono fun _ => .inl)
  case undue =>
    intro s h
    rw [exec_sessionInstall, takeStopped_of_not h]
  case committed =>
    intro s k n c w commit detail t
    have logged := writeAudit_logged s .commit detail
    have audited := writeAudit_audited s .commit detail
    have completed : t = { s.writeAudit .commit detail with session := { s.session with stored := true } } :=
      commitCompleted_eq commit
    rw [completed]
    refine ⟨⟨audited.entries, audited.last⟩, rfl, ?_, logged.raised, logged.memory w⟩
    obtain ⟨_, _, _, _, _, fields⟩ := logged.fields
    rw [fields]
  case opened =>
    intro s k n w t
    have fits : (bytes32 s.metro.epoch).length ≤ 64 := Nat.le_of_ble_eq_true rfl
    exact ⟨answer_written w fits ⟨rfl, rfl⟩ rfl, answer_eq s k .done _, answer_sameBut_slot w k .done fits⟩

end Sys2Proof.Installs
end

section
/-! SUPPORT. What a start leaves (R118, R119, R183): the header and the working state after the verification of the
store, with the jobs, the boot count and the log that it makes. -/

namespace Sys2Proof.Starts

open Sys2Proof Sys2Proof.Machine

/-! The header that a start shows. -/

/-- The bytes of the header that a start writes itself: all but the journal's fields. -/
def headerBytes (x : Nat) : Prop :=
  x < 36 ∨ (48 ≤ x ∧ x < 52)

/-- A memory shows the header of a part that has started (R100, R118, R119). -/
structure HeaderShown (cause : StartCause) (v : State) (m : Memory) : Prop where
  identity : m.read32 hdrIdent = ident
  boot : m.read32 hdrBoot = v.store.counters.bootCount
  cause : m.read16 hdrCause = BitVec.ofNat 16 cause.code
  clockSet : m.read16 hdrClockSet = BitVec.ofNat 16 (bit v.time.isSet)
  time : m.read32 hdrTime = v.time.time
  cadence : m.read32 hdrCadence = v.link.cadence
  link : m.read16 hdrLink = BitVec.ofNat 16 v.link.state.code
  session : m.read16 hdrSession = BitVec.ofNat 16 v.session.state.code
  epoch : m.read32 hdrEpoch = v.store.counters.epoch
  ticket : m.read32 hdrTicket = v.store.counters.lastTicket
  visits : m.read16 hdrVisits = BitVec.ofNat 16 v.visitCount
  sweep : m.read16 hdrSweep = BitVec.ofNat 16 v.intake.position.val
  fault : m.read16 hdrStoreFault = BitVec.ofNat 16 (bit v.store.latch)
  refused : m.read16 hdrRefused = 0xFFFF

theorem writeHeader_shown {v : State} (w : v.mem.wf = true) (cause : StartCause) :
    ∃ m : Memory, v.writeHeader cause = { v with mem := m } ∧ m.wf = true ∧ HeaderShown cause v m
      ∧ Memory.SameBut headerBytes v.mem m := by
  obtain ⟨m, written, wf, identity, boot, shownCause, clockSet, time, cadence, link, session, epoch, ticket, visits, sweep,
    fault, refused, same⟩ := writeHeader_spec v cause w
  exact ⟨m, written, wf, ⟨identity, boot, shownCause, clockSet, time, cadence, link, session, epoch, ticket, visits, sweep,
    fault, refused⟩, same⟩

section Carried

variable {p : Nat → Prop} {m n : Memory} (same : Memory.SameBut p m n) (outside : ∀ x, headerBytes x → ¬p x)
include same outside

theorem read16_header {x : Nat} (low : headerBytes x) (high : headerBytes (x + 1)) : n.read16 x = m.read16 x :=
  same.read16 (outside x low) (outside _ high)

theorem read32_header {x : Nat} (h : x + 3 < 36) : n.read32 x = m.read32 x :=
  same.read32 (outside _ (.inl (by omega))) (outside _ (.inl (by omega))) (outside _ (.inl (by omega)))
    (outside _ (.inl h))

/-- What leaves the header alone shows it still. -/
theorem HeaderShown.carried {cause : StartCause} {v : State} (h : HeaderShown cause v m) : HeaderShown cause v n where
  identity := by rw [read32_header same outside (by decide), h.identity]
  boot := by rw [read32_header same outside (by decide), h.boot]
  cause := by rw [read16_header same outside (.inl (by decide)) (.inl (by decide)), h.cause]
  clockSet := by rw [read16_header same outside (.inl (by decide)) (.inl (by decide)), h.clockSet]
  time := by rw [read32_header same outside (by decide), h.time]
  cadence := by rw [read32_header same outside (by decide), h.cadence]
  link := by rw [read16_header same outside (.inl (by decide)) (.inl (by decide)), h.link]
  session := by rw [read16_header same outside (.inl (by decide)) (.inl (by decide)), h.session]
  epoch := by rw [read32_header same outside (by decide), h.epoch]
  ticket := by rw [read32_header same outside (by decide), h.ticket]
  visits := by rw [read16_header same outside (.inl (by decide)) (.inl (by decide)), h.visits]
  sweep := by rw [read16_header same outside (.inl (by decide)) (.inl (by decide)), h.sweep]
  fault := by rw [read16_header same outside (.inr (by decide)) (.inr (by decide)), h.fault]
  refused := by rw [read16_header same outside (.inr (by decide)) (.inr (by decide)), h.refused]

end Carried

theorem header_not_journal (x : Nat) (h : headerBytes x) : ¬journalBytes x := by
  have page : hdrLastPage = 36 := rfl
  have fault : hdrStoreFault = 48 := rfl
  simp only [headerBytes, journalBytes] at h ⊢
  omega

/-- The live board and the sequence before it stand between the header and the slots (R101). -/
def boardRange (x : Nat) : Prop :=
  0x100 ≤ x ∧ x < 0x400

theorem header_not_board (x : Nat) (h : headerBytes x) : ¬boardRange x := by
  simp only [headerBytes, boardRange] at h ⊢
  omega

/-! The working state handed over (R183, step 8). -/

/-- The blocks at their start values, with the working state that the rows of the store give. -/
structure Handed (s v : State) : Prop where
  power : v.power = .on
  pins : v.pins = s.pins
  whole : v.unfinished = []
  link : v.link = Link.start v.clock
  back : v.back = ⟨[], []⟩
  validSet :
    ∀ i, v.store.rows.image (placeOfEpoch v.store.rows.countersAtStart.epoch) = some i →
      i.epoch = v.store.rows.countersAtStart.epoch → i.set.valid = true → v.metro = ⟨i.set, i.epoch, false⟩
  standInSet :
    (∀ i, v.store.rows.image (placeOfEpoch v.store.rows.countersAtStart.epoch) = some i →
      i.epoch = v.store.rows.countersAtStart.epoch → i.set.valid = false) →
      v.metro = ⟨manufactureSet, v.store.rows.countersAtStart.epoch, true⟩
  cells : v.cells = allCells.map (startCell v.metro)
  chain : v.chain = Chain.start
  monitor : v.monitor = Monitor.start v.metro.active v.metro.standIn
  lane : v.lane = Lane.start
  intake : v.intake = Intake.start
  capture : v.capture = none
  session : v.session = Session.start
  visits : v.visits = { Visits.start with places := v.store.rows.repaired.visitTable }
  tickets :
    v.tickets =
      { Tickets.start with places := v.store.rows.repaired.ticketTable v.store.rows.countersAtStart.lastTicket }
  tracker : v.tracker = Tracker.start v.pins.strips v.clock v.store.rows.repaired.classTable
  site : v.site = v.store.rows.repaired.siteSettings.getD defaultSite
  sealLine : v.sealLine = Seal.start
  epoch : v.store.counters.epoch = v.store.rows.countersAtStart.epoch
  ticket : v.store.counters.lastTicket = v.store.rows.countersAtStart.lastTicket

/-- What the verification of a part leaves alone: the clocks, the journal but for the AUDIT records that are held, the
rows and the queue, the registers but for the causes, and the memory but for the fault flag. -/
structure VerifiedFrom (w v : State) : Prop where
  clock : v.clock = w.clock
  time : v.time = w.time
  journal : ∃ rs, v.journal = { w.journal with held := w.journal.held ++ rs } ∧ ∀ r ∈ rs, r.kind = .audit
  rows : v.store.rows = w.store.rows
  queue : v.store.queue = w.store.queue
  run : v.regs.run = w.regs.run
  restart : v.regs.restart = w.regs.restart
  refused : v.regs.refused = w.regs.refused
  enable : v.regs.enable = w.regs.enable
  memory : v.mem = w.mem ∨ v.mem = w.mem.write16 hdrStoreFault 1

theorem verify_handed {s w : State} (cause : StartCause) (holding : w.journal.holding = true) (power : w.power = .on)
    (pins : w.pins = s.pins) (whole : w.unfinished = []) :
    Handed s (w.verify cause) ∧ VerifiedFrom w (w.verify cause) := by
  obtain ⟨st, m, mem, regs, a, rs, verified, audits, rows, queue, epoch, ticket, valid, standIn, run, restart, refused,
    enable, memory⟩ := verify_spec w cause holding
  rw [verified]
  have tickets : { Tickets.start with places := st.rows.repaired.ticketTable st.counters.lastTicket } =
      { Tickets.start with places := st.rows.repaired.ticketTable st.rows.countersAtStart.lastTicket } := by
    rw [ticket]
  exact ⟨⟨power, pins, whole, rfl, rfl, valid, standIn, rfl, rfl, rfl, rfl, rfl, rfl, rfl, rfl, tickets, rfl, rfl, rfl,
    epoch, ticket⟩, ⟨rfl, rfl, ⟨rs, rfl, audits⟩, rows, queue, run, restart, refused, enable, memory⟩⟩

/-- A part that differs from one handed over in its journal, its registers and its memory has started, where its memory
shows the header and no order stands in a slot. -/
theorem started_of_handed {cause : StartCause} {s v t : State} (h : Handed s v)
    (same : t = { v with mem := t.mem, regs := t.regs, journal := t.journal }) (run : t.regs.run = false)
    (restart : t.regs.restart = false) (header : HeaderShown cause v t.mem)
    (slots : ∀ x, bytesFrom 0x400 0x800 x → t.mem.readByte x = 0) : Started cause s t := by
  generalize mem : t.mem = m at *
  generalize regs : t.regs = r at *
  generalize journal : t.journal = j at *
  subst same
  have link := h.link
  constructor
  case run => exact run
  case restart => exact restart
  case power => exact h.power
  case pins => exact h.pins
  case link => exact h.link
  case back => exact h.back
  case validSet => exact h.validSet
  case standInSet => exact h.standInSet
  case cells => exact h.cells
  case chain => exact h.chain
  case monitor => exact h.monitor
  case lane => exact h.lane
  case intake => exact h.intake
  case capture => exact h.capture
  case session => exact h.session
  case whole => exact h.whole
  case visits => exact h.visits
  case tickets => exact h.tickets
  case tracker => exact h.tracker
  case site => exact h.site
  case sealLine => exact h.sealLine
  case shownIdent => exact header.identity
  case shownBoot => exact header.boot
  case shownTicket => exact header.ticket.trans h.ticket
  case shownEpoch => exact header.epoch.trans h.epoch
  case shownFault => exact header.fault
  case shownVisits => exact header.visits
  case shownCause => exact header.cause
  case shownTime => exact header.time
  case shownClockSet => exact header.clockSet
  case shownCadence => rw [header.cadence, h.link]; rfl
  case shownLink => rw [header.link, h.link]; rfl
  case shownSession => rw [header.session, h.session]; rfl
  case shownSweep => rw [header.sweep, h.intake]; rfl
  case shownRefused => exact header.refused
  case slots => exact slots

/-! The jobs, the boot count and the log that a verification makes (R183, R184). -/

/-- The log's pump has requested jobs of its own, and the store is the same otherwise. -/
def Pumped (s t : State) : Prop :=
  ∃ js : List Job, t.store = { s.store with waiting := s.store.waiting ++ js } ∧ ∀ j ∈ js, ∃ n, j.kind = .auditRow n

theorem Pumped.refl (s : State) : Pumped s s :=
  ⟨[], by simp, by simp⟩

theorem Pumped.trans {s t u : State} (h : Pumped s t) (k : Pumped t u) : Pumped s u := by
  obtain ⟨js, store, own⟩ := h
  obtain ⟨js', store', own'⟩ := k
  refine ⟨js ++ js', by simp [store', store], fun j member => ?_⟩
  rcases List.mem_append.mp member with first | second
  · exact own j first
  · exact own' j second

theorem auditPump_pumped (s : State) : Pumped s s.auditPump := by
  have job : ∀ (e : AuditEntry) (a : Audit), Pumped s
      { s with
        audit := a
        store := { s.store with waiting := s.store.waiting ++ [⟨.auditRow e.serial, [.audit e]⟩] } } := by
    intro e a
    exact ⟨[⟨.auditRow e.serial, [.audit e]⟩], rfl, by simp⟩
  unfold State.auditPump
  dsimp only
  split
  · exact Pumped.refl s
  · split
    · exact job _ _
    · split
      · exact Pumped.refl s
      · split
        · exact job _ _
        · exact Pumped.refl s

theorem writeAudit_pumped (s : State) (kind : AuditKind) (detail : List Byte) :
    Pumped s (s.writeAudit kind detail) := by
  have recorded : ∀ (u : State) (r : Record), u.store = s.store → Pumped s (u.record r).auditPump := by
    intro u r same
    have store : (u.record r).store = s.store := by rw [(record_journaled u r).eq, same]
    obtain ⟨js, pumped, own⟩ := auditPump_pumped (u.record r)
    exact ⟨js, by rw [pumped, store], own⟩
  exact recorded _ _ rfl

theorem writeVerified_pumped (s : State) (lost : Bool) (test : Option Nat) :
    Pumped s (s.writeVerified lost test) := by
  have first : Pumped s (if lost = true then s.writeAudit .countersLost [] else s.auditPump) := by
    split
    · exact writeAudit_pumped ..
    · exact auditPump_pumped s
  have second : Pumped s
      (match test with
      | some t =>
        (if lost = true then s.writeAudit .countersLost [] else s.auditPump).writeAudit .setInvalid
          (setInvalidDetail s.store.counters.epoch t)
      | none => if lost = true then s.writeAudit .countersLost [] else s.auditPump) := by
    cases test with
    | none => exact first
    | some t => exact first.trans (writeAudit_pumped ..)
  unfold State.writeVerified
  dsimp only
  split
  · exact second.trans (writeAudit_pumped ..)
  · exact second

/-- The state after the counters, the set and the log are read. -/
def readStore (w : State) (cause : StartCause) : State :=
  ((w.readCounters cause).readSet).readAuditLog cause

/-- The state after the entries of the first three steps are written. -/
def loggedStore (w : State) (cause : StartCause) : State :=
  (readStore w cause).writeVerified w.store.rows.countersRow.isNone
    ((w.readCounters cause).readSet.store.rows.imageTest (w.readCounters cause).readSet.store.counters.epoch)

/-- The rows of the ticket repair at a start. -/
def repairRows (w : State) (cause : StartCause) : List RowWrite :=
  (loggedStore w cause).store.rows.repair (loggedStore w cause).store.counters

/-- The state before the job of the start is requested. -/
def raisedStore (w : State) (cause : StartCause) : State :=
  ((loggedStore w cause).loseSession).raiseBoot cause

/-- What a start counts as a change that it has to write. -/
def startChanged (w : State) (cause : StartCause) : Bool :=
  !(repairRows w cause).isEmpty || (loggedStore w cause).store.counters.sessionOpen || cause != .engineRestart

theorem verify_store (w : State) (cause : StartCause) :
    (w.verify cause).store =
      ((raisedStore w cause).queueStartUp (repairRows w cause) (startChanged w cause)).store := rfl

theorem verify_audit (w : State) (cause : StartCause) : (w.verify cause).audit = (raisedStore w cause).audit := by
  change ((raisedStore w cause).queueStartUp (repairRows w cause) (startChanged w cause)).audit = _
  unfold State.queueStartUp
  split <;> rfl

theorem readSet_store (s : State) : s.readSet.store = s.store ∧ s.readSet.audit = s.audit := by
  obtain ⟨m, read, -⟩ := readSet_spec s
  rw [read]
  exact ⟨rfl, rfl⟩

theorem readStore_store (w : State) (cause : StartCause) : (readStore w cause).store = (w.readCounters cause).store := by
  obtain ⟨a, log⟩ := readAuditLog_eq (w.readCounters cause).readSet cause
  rw [readStore, log]
  exact (readSet_store _).1

theorem loggedStore_pumped (w : State) (cause : StartCause) : Pumped (readStore w cause) (loggedStore w cause) :=
  writeVerified_pumped ..

/-- Losing a session and raising the boot count write at most an audit entry. -/
theorem loseSession_pumped (s : State) :
    ∃ (js : List Job) (b : Bool),
      s.loseSession.store =
          { s.store with waiting := s.store.waiting ++ js, counters := { s.store.counters with sessionOpen := b } }
        ∧ ∀ j ∈ js, ∃ n, j.kind = .auditRow n := by
  unfold State.loseSession
  split
  · obtain ⟨js, store, own⟩ := writeAudit_pumped s .sessionLost []
    exact ⟨js, false, by simp only [store], own⟩
  · exact ⟨[], s.store.counters.sessionOpen, by simp, by simp⟩

theorem raiseBoot_store (s : State) (cause : StartCause) :
    (s.raiseBoot cause).store =
      { s.store with
        counters :=
          { s.store.counters with
            bootCount :=
              if cause = .engineRestart then s.store.counters.bootCount else s.store.counters.bootCount + 1 } } := by
  unfold State.raiseBoot
  split <;> rfl

/-- The store before the job of the start: the counters as read, but for the boot count and the flag, and jobs of the
log's own. -/
theorem raisedStore_store (w : State) (cause : StartCause) :
    ∃ (js : List Job) (b : Bool),
      (raisedStore w cause).store =
          { (w.readCounters cause).store with
            waiting := (w.readCounters cause).store.waiting ++ js
            counters :=
              { (w.readCounters cause).store.counters with
                sessionOpen := b
                bootCount :=
                  if cause = .engineRestart then (w.readCounters cause).store.counters.bootCount
                  else (w.readCounters cause).store.counters.bootCount + 1 } }
        ∧ ∀ j ∈ js, ∃ n, j.kind = .auditRow n := by
  obtain ⟨js, logged, own⟩ := loggedStore_pumped w cause
  obtain ⟨js', b, lost, own'⟩ := loseSession_pumped (loggedStore w cause)
  refine ⟨js ++ js', b, ?_, fun j member => ?_⟩
  · rw [raisedStore, raiseBoot_store, lost, logged, readStore_store]
    simp only [List.append_assoc]
  · rcases List.mem_append.mp member with first | second
    · exact own j first
    · exact own' j second

theorem queueStartUp_store (s : State) (repair : List RowWrite) (changed : Bool) :
    (s.queueStartUp repair changed).store =
      { s.store with
        waiting :=
          s.store.waiting
            ++ if s.store.latch || !changed then [] else [⟨.startUp, repair ++ [.counters .asTheyStand]⟩] } := by
  unfold State.queueStartUp
  split
  · simp
  · rfl

theorem readCounters_waiting (w : State) (cause : StartCause) :
    (w.readCounters cause).store.waiting = w.store.waiting := by
  obtain ⟨boot, latch, mem, regs, read, -⟩ := readCounters_spec w cause
  rw [read]

/-- The jobs of a start are its own and the log's. -/
theorem verify_waiting {w : State} (cause : StartCause) (none_ : w.store.waiting = []) :
    ∀ j ∈ (w.verify cause).store.waiting, j.kind = .startUp ∨ ∃ n, j.kind = .auditRow n := by
  obtain ⟨js, b, raised, own⟩ := raisedStore_store w cause
  intro j member
  have own' : ∀ c : Bool,
      j ∈ (if c = true then [] else [⟨.startUp, repairRows w cause ++ [.counters .asTheyStand]⟩] : List Job) →
        j.kind = .startUp := by
    intro c start
    cases c
    · rw [List.mem_singleton.mp start]
    · contradiction
  rw [verify_store, queueStartUp_store, raised, readCounters_waiting, none_] at member
  rcases List.mem_append.mp member with log | start
  · exact .inr (own j log)
  · exact .inl (own' _ start)

theorem verify_latch (w : State) (cause : StartCause) :
    (w.verify cause).store.latch = (w.readCounters cause).store.latch := by
  obtain ⟨js, b, raised, -⟩ := raisedStore_store w cause
  rw [verify_store, queueStartUp_store, raised]

/-- No verification clears the latch. -/
theorem verify_latched {w : State} (latched : w.store.latch = true) (cause : StartCause) :
    (w.verify cause).store.latch = true := by
  rw [verify_latch]
  unfold State.readCounters
  dsimp only
  split
  · exact latched
  · rfl

theorem verify_boot (w : State) (cause : StartCause) :
    (w.verify cause).store.counters.bootCount =
      if cause = .engineRestart then (w.readCounters cause).store.counters.bootCount
      else (w.readCounters cause).store.counters.bootCount + 1 := by
  obtain ⟨js, b, raised, -⟩ := raisedStore_store w cause
  rw [verify_store, queueStartUp_store, raised]

/-- An engine restart keeps the boot count (R119). -/
theorem verify_boot_of_restart (w : State) :
    (w.verify .engineRestart).store.counters.bootCount = w.store.counters.bootCount := by
  rw [verify_boot, if_pos rfl]
  unfold State.readCounters
  dsimp only
  split <;> rfl

section Counted

variable {w : State} {x : CountersRow} (row : w.store.rows.countersRow = some x)
include row

theorem readCounters_of_row {cause : StartCause} (reset : cause ≠ .engineRestart) :
    w.readCounters cause = { w with store := { w.store with counters := x.counters } } := by
  simp only [State.readCounters, row, if_neg reset]

/-- Any other start raises the boot count of the counters row (R183, step 6). -/
theorem verify_boot_of_row {cause : StartCause} (reset : cause ≠ .engineRestart) :
    (w.verify cause).store.counters.bootCount = x.counters.bootCount + 1 := by
  rw [verify_boot, if_neg reset, readCounters_of_row row reset]

/-- The job of the start, with the rows of the ticket repair (R143, R183, step 7). -/
theorem startUp_mem_verify {cause : StartCause} (reset : cause ≠ .engineRestart) (sound : w.store.latch = false) :
    ⟨.startUp, w.store.rows.repair x.counters ++ [.counters .asTheyStand]⟩ ∈ (w.verify cause).store.waiting := by
  obtain ⟨js, b, raised, -⟩ := raisedStore_store w cause
  obtain ⟨js', logged, -⟩ := loggedStore_pumped w cause
  have repair : repairRows w cause = w.store.rows.repair x.counters := by
    rw [repairRows, logged, readStore_store, readCounters_of_row row reset]
  have changed : startChanged w cause = true := by
    simp [startChanged, reset]
  have free : (raisedStore w cause).store.latch = false := by
    rw [raised, readCounters_of_row row reset]
    exact sound
  rw [verify_store, queueStartUp_store, free, changed, repair]
  simp

/-- A start whose counters and image check, with no session open and no COMMIT entry missing, writes no entry: the log
is as it was read (R184). -/
theorem verify_audit_of_sound {cause : StartCause} (test : w.store.rows.imageTest x.counters.epoch = none)
    (closed : x.counters.sessionOpen = false)
    (committed : x.counters.epoch = 0
      ∨ ∃ e ∈ (readStore w cause).audit.entries, e.kind = .commit ∧ e.epoch = x.counters.epoch) :
    (w.verify cause).audit.entries = (readStore w cause).audit.entries
      ∧ (w.verify cause).audit.last = (readStore w cause).audit.last := by
  have read : ∃ boot, (w.readCounters cause).store =
      { w.store with counters := { x.counters with bootCount := boot } } := by
    simp only [State.readCounters, row]
    split
    · exact ⟨_, rfl⟩
    · exact ⟨x.counters.bootCount, rfl⟩
  obtain ⟨boot, read⟩ := read
  have epoch : (readStore w cause).store.counters.epoch = x.counters.epoch := by rw [readStore_store, read]
  have present : (readStore w cause).commitMissing = false := by
    unfold State.commitMissing
    rw [epoch]
    rcases committed with zero | ⟨e, member, kind, same⟩
    · simp [zero]
    · have found : ((readStore w cause).audit.entries.any fun e => e.kind == .commit && e.epoch == x.counters.epoch) =
          true := List.any_eq_true.mpr ⟨e, member, by simp [kind, same]⟩
      simp [found]
  have tested : (w.readCounters cause).readSet.store.rows.imageTest (w.readCounters cause).readSet.store.counters.epoch =
      none := by
    rw [(readSet_store _).1, read]
    exact test
  have logged : loggedStore w cause = (readStore w cause).auditPump := by
    rw [loggedStore, row, tested]
    simp [State.writeVerified, present]
  have flag : (loggedStore w cause).store.counters.sessionOpen = false := by
    obtain ⟨js, store, -⟩ := loggedStore_pumped w cause
    rw [store, readStore_store, read]
    exact closed
  have kept : (raisedStore w cause).audit = (readStore w cause).auditPump.audit := by
    have lost : (loggedStore w cause).loseSession = loggedStore w cause := by
      unfold State.loseSession
      rw [flag]
      rfl
    rw [raisedStore, lost, logged]
    unfold State.raiseBoot
    split <;> rfl
  obtain ⟨-, entries, last⟩ := auditPump_spec (readStore w cause)
  rw [verify_audit, kept]
  exact ⟨entries, last⟩

end Counted

end Sys2Proof.Starts
end

section
/-! SUPPORT. Power-on, pin reset and the loss of power (R118, R179, R183): the whole start of a part with nothing
volatile left, its journal with the STARTUP record, the silence of a part that does not run, and the ticket repair. -/

namespace Sys2Proof.StartParts

open Sys2Proof Sys2Proof.Machine Sys2Proof.Starts Sys2Proof.Publishing Sys2Proof.Reserved Sys2Proof.StartUps

/-! The first record of a journal (R151, R160). -/

theorem read16_of_zero {m : Memory} {x : Nat} (low : m.readByte x = 0) (high : m.readByte (x + 1) = 0) :
    m.read16 x = 0 := by
  rw [Memory.read16, low, high]
  rfl

theorem openPage_mem {s : State} (free : s.pageState s.journal.nextFill ≠ pagePublished) :
    s.openPage.mem =
      ((s.mem.clearBytes (pageBase s.journal.nextFill) 256).write16 (pageBase s.journal.nextFill) pageFilling).write16
        hdrBlocked 0 := by
  unfold State.openPage
  dsimp only
  rw [if_neg free]
  rfl

/-- Behind its state word, a page opened is all 0. -/
theorem openPage_read16 {s : State} (w : s.mem.wf = true)
    (free : s.pageState s.journal.nextFill ≠ pagePublished) {n : Nat} (behind : 2 ≤ n) (within : n + 2 ≤ 256) :
    s.openPage.mem.read16 (pageBase s.journal.nextFill + n) = 0 := by
  have above := pageBase_lower s.journal.nextFill
  have blocked : hdrBlocked = 0x2E := rfl
  have cleared := Memory.clearBytes_wf (x := pageBase s.journal.nextFill) (n := 256) w
  rw [openPage_mem free, Memory.read16_write16_other (Memory.write16_wf cleared) (by omega),
    Memory.read16_write16_other cleared (by omega)]
  exact read16_of_zero (Memory.readByte_clearBytes (by omega)) (Memory.readByte_clearBytes (by omega))

/-- A journal in which nothing has been placed. -/
structure FreshJournal (u : State) : Prop where
  memory : u.mem.wf = true
  reservation : u.journal.reservation = none
  unblocked : u.journal.blocked = false
  outbox : u.journal.outbox = []
  current : u.journal.current = none
  fill : u.journal.nextFill = 0
  serial : u.journal.nextSerial = 1
  free : u.pageState 0 ≠ pagePublished

section First

variable {u : State} (h : FreshJournal u) {r : Record} (quiet : r.kind.prompt = false) (short : r.length ≤ 240)
include h

theorem openPage_current : u.openPage.journal.current = some 0 := by
  rw [openPage_opens (by rw [h.fill]; exact h.free), h.fill]

theorem openPage_wf : u.openPage.mem.wf = true :=
  (openPage_journaled u).wf h.memory

theorem openPage_pageUsed : u.openPage.pageUsed 0 = 0 := by
  have read := openPage_read16 h.memory (by rw [h.fill]; exact h.free) (n := 8) (by decide) (by decide)
  rw [h.fill] at read
  rw [State.pageUsed, read]
  rfl

theorem openPage_pageCount : u.openPage.pageCount 0 = 0 := by
  have read := openPage_read16 h.memory (by rw [h.fill]; exact h.free) (n := 2) (by decide) (by decide)
  rw [h.fill] at read
  rw [State.pageCount, read]
  rfl

include quiet short

/-- The first record opens page 0 and stands on it. -/
theorem offer_first : u.offer r = u.openPage.placeOn 0 r := by
  have room : r.length ≤ u.openPage.pageLeft 0 := by
    rw [State.pageLeft, openPage_pageUsed h]
    exact short
  rw [offer_of_unopened h.reservation h.unblocked h.outbox h.current (openPage_current h) room, placedAt, quiet]
  rfl

theorem offer_first_current : (u.offer r).journal.current = some 0 := by
  rw [offer_first h quiet short, placeOn_journal]
  exact openPage_current h

theorem offer_first_filling : (u.offer r).pageState 0 = pageFilling := by
  have fills := openPage_filling (s := u) (by rw [h.fill]; exact h.free) h.memory
  rw [h.fill] at fills
  have body : pageBody 0 = pageBase 0 + 16 := rfl
  have same := placeOn_sameBut (p := 0) (r := r) (openPage_wf h)
  have outside : ∀ x, pageBase 0 ≤ x → x < pageBase 0 + 2 →
      ¬(bytesFrom (pageBody 0 + u.openPage.pageUsed 0) r.length x ∨ bytesFrom (pageBase 0 + 8) 2 x
        ∨ bytesFrom (pageBase 0 + 2) 2 x) := by
    intro x lower upper
    simp only [bytesFrom]
    omega
  rw [offer_first h quiet short, State.pageState,
    same.read16 (outside _ (by omega) (by omega)) (outside _ (by omega) (by omega))]
  exact fills

theorem offer_first_count : (u.offer r).pageCount 0 = 1 := by
  rw [offer_first h quiet short, placeOn_pageCount (openPage_wf h) (by rw [openPage_pageCount h]; decide),
    openPage_pageCount h]

theorem offer_first_bytes : (u.offer r).mem.readBytes (pageBody 0) r.length = r.bytes 1 := by
  have room : u.openPage.pageUsed 0 + r.length ≤ 240 := by
    rw [openPage_pageUsed h]
    omega
  have placed := placeOn_bytes (openPage_wf h) room
  have serial : u.openPage.journal.nextSerial = 1 := by
    rw [openPage_opens (by rw [h.fill]; exact h.free)]
    exact h.serial
  rw [openPage_pageUsed h, serial] at placed
  rw [offer_first h quiet short]
  exact placed

end First

/-! The whole start (R118). -/

/-- The store verified and the blocks handed over, in a part with nothing volatile left. -/
def verified (s : State) (cause : StartCause) : State :=
  ((s.cleared .on).holdRecords).verify cause

/-- The part with its exchange memory initialised, before the STARTUP record. -/
def begun (s : State) (cause : StartCause) : State :=
  (({ verified s cause with mem := [] } : State).writeHeader cause).writeBoard

theorem startPart_eq (s : State) (cause : StartCause) :
    s.startPart cause = followed ((begun s cause).offer ((begun s cause).startUpRecord cause)) := rfl

theorem verified_handed (s : State) (cause : StartCause) :
    Handed s (verified s cause) ∧ VerifiedFrom ((s.cleared .on).holdRecords) (verified s cause) :=
  verify_handed cause rfl rfl rfl rfl

theorem nil_wf : Memory.wf [] = true := rfl

theorem boardBytes_of_handed {s v : State} (h : Handed s v) : v.boardBytes.length = 156 := by
  refine boardBytes_length ?_
  rw [h.cells, List.length_map]
  rfl

/-- The memory that a start initialises: the header, the board, and 0 elsewhere. -/
theorem begun_memory (s : State) (cause : StartCause) :
    ∃ m, begun s cause = { verified s cause with mem := m } ∧ m.wf = true ∧ HeaderShown cause (verified s cause) m
      ∧ Memory.SameBut (fun x => headerBytes x ∨ boardRange x) [] m := by
  obtain ⟨m, written, wf, header, same⟩ :=
    writeHeader_shown (v := { verified s cause with mem := [] }) nil_wf cause
  have length : ({ verified s cause with mem := m } : State).boardBytes.length = 156 :=
    boardBytes_of_handed (s := s) (v := verified s cause) (verified_handed s cause).1
  have board : Memory.SameBut boardRange m
      (m.writeBytes (boardBase + 4) ({ verified s cause with mem := m } : State).boardBytes) := by
    refine Memory.SameBut.writeBytes wf fun y lower upper => ?_
    rw [length] at upper
    have base : boardBase = 0x100 := rfl
    exact ⟨by omega, by omega⟩
  refine ⟨m.writeBytes (boardBase + 4) ({ verified s cause with mem := m } : State).boardBytes, ?_,
    Memory.writeBytes_wf wf, ?_, (same.mono fun _ => .inl).trans (board.mono fun _ => .inr)⟩
  · rw [begun, written]
    rfl
  · have carried : HeaderShown cause { verified s cause with mem := [] } _ := header.carried board header_not_board
    exact ⟨carried.identity, carried.boot, carried.cause, carried.clockSet, carried.time, carried.cadence, carried.link,
      carried.session, carried.epoch, carried.ticket, carried.visits, carried.sweep, carried.fault, carried.refused⟩

/-- The journal before the STARTUP record has nothing but what it holds. -/
theorem begun_journal (s : State) (cause : StartCause) :
    ∃ rs, (begun s cause).journal = { Journal.start with holding := true, held := rs } ∧ ∀ r ∈ rs, r.kind = .audit := by
  obtain ⟨rs, journal, audits⟩ := (verified_handed s cause).2.journal
  obtain ⟨m, initialised, -⟩ := begun_memory s cause
  exact ⟨rs, by rw [initialised]; exact journal, audits⟩

theorem begun_zero (s : State) (cause : StartCause) {x : Nat} (header : ¬headerBytes x) (board : ¬boardRange x) :
    (begun s cause).mem.readByte x = 0 := by
  obtain ⟨m, initialised, -, -, same⟩ := begun_memory s cause
  rw [initialised]
  exact same x (not_or.mpr ⟨header, board⟩)

/-- Where neither the header's fields nor the board stand, a start leaves 0. -/
theorem begun_zero_journal (s : State) (cause : StartCause) {x : Nat} (inside : journalBytes x) :
    (begun s cause).mem.readByte x = 0 := by
  refine begun_zero s cause (fun header => header_not_journal x header inside) fun board => ?_
  have fault : hdrStoreFault = 48 := rfl
  simp only [journalBytes, boardRange] at inside board
  omega

theorem begun_pageState (s : State) (cause : StartCause) (p : PageId) : (begun s cause).pageState p = pageFree := by
  have above := pageBase_lower p
  exact read16_of_zero (begun_zero_journal s cause (.inr (by omega))) (begun_zero_journal s cause (.inr (by omega)))

theorem begun_fresh (s : State) (cause : StartCause) : FreshJournal (begun s cause) := by
  obtain ⟨rs, journal, -⟩ := begun_journal s cause
  have memory : (begun s cause).mem.wf = true := by
    obtain ⟨m, initialised, wf, -⟩ := begun_memory s cause
    rw [initialised]
    exact wf
  refine ⟨memory, by rw [journal]; rfl, by rw [journal]; rfl, by rw [journal]; rfl, by rw [journal]; rfl,
    by rw [journal]; rfl, by rw [journal]; rfl, ?_⟩
  rw [begun_pageState]
  decide

/-- The STARTUP record and what follows it are all that comes after. -/
theorem startPart_journaled (s : State) (cause : StartCause) :
    Journaled recordCauses (begun s cause) (s.startPart cause) := by
  rw [startPart_eq]
  exact ((offer_journaled _ _).mono (by decide)).trans (followed_journaled _)

theorem startPart_fields (s : State) (cause : StartCause) :
    ∃ m r j, s.startPart cause = { verified s cause with mem := m, regs := r, journal := j } := by
  obtain ⟨m, r, j, placed⟩ := (startPart_journaled s cause).fields
  obtain ⟨m', initialised, -⟩ := begun_memory s cause
  rw [initialised] at placed
  exact ⟨m, r, j, placed⟩

theorem startPart_regs (s : State) (cause : StartCause) :
    (s.startPart cause).regs.run = false ∧ (s.startPart cause).regs.restart = false
      ∧ (s.startPart cause).regs.enable = 0 := by
  have from_ := (verified_handed s cause).2
  obtain ⟨m, initialised, -⟩ := begun_memory s cause
  obtain ⟨c, -, raised⟩ := (startPart_journaled s cause).raised
  have before : (begun s cause).regs = (verified s cause).regs := by rw [initialised]
  rw [raised, before]
  exact ⟨from_.run, from_.restart, from_.enable⟩

theorem startPart_memory (s : State) (cause : StartCause) :
    ∃ m, HeaderShown cause (verified s cause) m ∧ Memory.SameBut (fun x => headerBytes x ∨ boardRange x) [] m
      ∧ Memory.SameBut journalBytes m (s.startPart cause).mem := by
  obtain ⟨m, initialised, wf, header, same⟩ := begun_memory s cause
  have mem : (begun s cause).mem = m := by rw [initialised]
  have placed := (startPart_journaled s cause).memory (by rw [mem, wf])
  exact ⟨m, header, same, mem ▸ placed⟩

/-- Whatever the start does not initialise, and no record is placed on, holds 0 (R118). -/
theorem startPart_zero (s : State) (cause : StartCause) {x : Nat} (low : 0x400 ≤ x) (high : x < 0x1C00) :
    (s.startPart cause).mem.readByte x = 0 := by
  obtain ⟨m, -, same, placed⟩ := startPart_memory s cause
  have fault : hdrStoreFault = 48 := rfl
  rw [placed x (by simp only [journalBytes]; omega), same x (by simp only [headerBytes, boardRange]; omega)]
  rfl

/-- Every start leaves the part started (R118, R183). -/
theorem startPart_started (s : State) (cause : StartCause) : Started cause s (s.startPart cause) := by
  obtain ⟨run, restart, -⟩ := startPart_regs s cause
  obtain ⟨m, header, -, placed⟩ := startPart_memory s cause
  obtain ⟨m', r, j, fields⟩ := startPart_fields s cause
  refine started_of_handed (verified_handed s cause).1 (by rw [fields]) run restart
    (header.carried placed header_not_journal) fun x inside => ?_
  exact startPart_zero s cause inside.1 (by have := inside.2; omega)

/-- The STARTUP record is made of what the part stands at in the end. -/
theorem startUpRecord_begun (s : State) (cause : StartCause) :
    (begun s cause).startUpRecord cause = ⟨.startup, 0, startUpContent cause (s.startPart cause)⟩ := by
  obtain ⟨m, initialised, -⟩ := begun_memory s cause
  obtain ⟨m', r, j, fields⟩ := startPart_fields s cause
  rw [fields, initialised]
  rfl

theorem startUpRecord_length (cause : StartCause) (t : State) :
    (⟨.startup, 0, startUpContent cause t⟩ : Record).length = 36 := rfl

theorem startup_bytes {content : List Byte} (length : content.length = 28) :
    (⟨.startup, 0, content⟩ : Record).bytes 1 = u16 1 ++ u16 9 ++ bytes32 1 ++ content := by
  rw [Record.bytes, Record.length, length]
  rfl

/-- The journal of a start begins anew, with STARTUP first (R160). -/
theorem startPart_begins (s : State) (cause : StartCause) : JournalBegun cause (begun s cause) (s.startPart cause) := by
  have fresh := begun_fresh s cause
  obtain ⟨rs, journal, audits⟩ := begun_journal s cause
  have header : ∀ x, 36 ≤ x → x + 1 < 48 → (begun s cause).mem.read16 x = 0 := by
    intro x lower upper
    exact read16_of_zero (begun_zero_journal s cause (.inl ⟨lower, by change x < 48; omega⟩))
      (begun_zero_journal s cause (.inl ⟨by change 36 ≤ x + 1; omega, upper⟩))
  have length := startUpRecord_length cause (s.startPart cause)
  have short : (⟨.startup, 0, startUpContent cause (s.startPart cause)⟩ : Record).length ≤ 240 := by
    rw [length]
    decide
  constructor
  case journal => rw [journal]
  case held =>
    rw [journal]
    exact audits
  case pages => exact fun x above => begun_zero_journal s cause (.inr above)
  case free => exact begun_pageState s cause
  case shownPage => exact header _ (by decide) (by decide)
  case shownSequence =>
    rw [Memory.read32, header _ (by decide) (by decide), header _ (by decide) (by decide)]
    rfl
  case shownFill => exact header _ (by decide) (by decide)
  case shownOutbox => exact header _ (by decide) (by decide)
  case shownBlocked => exact header _ (by decide) (by decide)
  case opened => exact offer_first_current fresh rfl short
  case filling => exact offer_first_filling fresh rfl short
  case count => exact offer_first_count fresh rfl short
  case first =>
    have bytes := offer_first_bytes fresh (r := ⟨.startup, 0, startUpContent cause (s.startPart cause)⟩) rfl short
    rw [length, startup_bytes rfl] at bytes
    exact bytes
  case rest =>
    rw [← startUpRecord_begun]
    exact startPart_eq s cause
  case staging =>
    rintro x ⟨lower, upper⟩
    have base : stagingBase = 0xC00 := rfl
    exact startPart_zero s cause (by omega) (by omega)

/-- What a start keeps of the part, and the rows (R118). -/
theorem startPart_kept (s : State) (cause : StartCause) :
    (s.startPart cause).clock = s.clock ∧ (s.startPart cause).time = EngineClock.start
      ∧ (s.startPart cause).store.rows = s.store.rows ∧ (s.startPart cause).store = (verified s cause).store
      ∧ (s.startPart cause).audit = (verified s cause).audit := by
  have from_ := (verified_handed s cause).2
  obtain ⟨m, r, j, fields⟩ := startPart_fields s cause
  rw [fields]
  exact ⟨from_.clock, from_.time, from_.rows, rfl, rfl⟩

section Counted

variable {s : State} {x : CountersRow} (row : s.store.rows.countersRow = some x)
include row

theorem startPart_boot {cause : StartCause} (reset : cause ≠ .engineRestart) :
    (s.startPart cause).store.counters.bootCount = x.counters.bootCount + 1 := by
  rw [(startPart_kept s cause).2.2.2.1]
  exact verify_boot_of_row (w := (s.cleared .on).holdRecords) row reset

theorem startUp_mem_startPart {cause : StartCause} (reset : cause ≠ .engineRestart) :
    ⟨.startUp, s.store.rows.repair x.counters ++ [.counters .asTheyStand]⟩ ∈ (s.startPart cause).store.waiting := by
  rw [(startPart_kept s cause).2.2.2.1]
  exact startUp_mem_verify (w := (s.cleared .on).holdRecords) row reset rfl

/-- Where the start writes no entry, the log is the one that the rows give (R184). -/
theorem startPart_audit {cause : StartCause} (reset : cause ≠ .engineRestart)
    (test : s.store.rows.imageTest x.counters.epoch = none) (closed : x.counters.sessionOpen = false)
    (committed : (∃ e ∈ (rebuiltAudit s.store.rows.audit x.counters.auditSerial).entries,
        e.kind = .commit ∧ e.epoch = x.counters.epoch) ∨ x.counters.epoch = 0) :
    (s.startPart cause).audit.entries = (rebuiltAudit s.store.rows.audit x.counters.auditSerial).entries
      ∧ (s.startPart cause).audit.last = (rebuiltAudit s.store.rows.audit x.counters.auditSerial).last := by
  let w : State := (s.cleared .on).holdRecords
  have rowW : w.store.rows.countersRow = some x := row
  have counters : (w.readCounters cause).readSet.store = { w.store with counters := x.counters } := by
    rw [(readSet_store _).1, readCounters_of_row rowW reset]
  have log : (readStore w cause).audit = rebuiltAudit s.store.rows.audit x.counters.auditSerial := by
    rw [readStore, State.readAuditLog, if_neg reset]
    dsimp only
    rw [counters]
    rfl
  rw [(startPart_kept s cause).2.2.2.2, ← log]
  exact verify_audit_of_sound (w := w) rowW test closed (by rw [log]; exact committed.symm)

end Counted

/-! A part without power, or held in a reset (R99). -/

theorem silent_of_dark {t : State} (dark : t.power ≠ .on) : Silent t where
  memory a := by simp [State.hostRead, dark]
  registers r third := by simp [State.hostReadRegister, dark]
  aRed := by simp [State.lineARed, redLine, dark]
  aGreen := by simp [State.lineAGreen, greenLine, dark]
  bRed := by simp [State.lineBRed, redLine, dark]
  bGreen := by simp [State.lineBGreen, greenLine, dark]
  horn := by simp [State.lineHorn, dark]

end Sys2Proof.StartParts
end

section
/-! SUPPORT. POWER_ON, POWER_LOSS and PIN_RESET as commands (R118, R179): what is left of the store when power goes, the
starts, the ticket repair, and the statements about them. -/

namespace Sys2Proof.PowerEvents

open Sys2Proof Sys2Proof.Machine Sys2Proof.StartParts Sys2Proof.StartUps Sys2Proof.Dark Sys2Proof.Sealing

/-! What a cut leaves (R178, R179). -/

theorem cutStore_fields (s : State) (left : Residue) : ∃ st, s.cutStore left = { s with store := st } := by
  unfold State.cutStore
  dsimp only
  split
  · exact ⟨_, rfl⟩
  · rename_i w _ _
    obtain ⟨rows, cut⟩ := StoreJobs.leaveRow_fields s.enterJobs w left
    rw [cut]
    exact ⟨_, rfl⟩

/-- Where no row is being written, the rows stand. -/
theorem cutStore_rows {s : State} (queue : s.store.queue = []) (waiting : s.store.waiting = []) (left : Residue) :
    (s.cutStore left).store.rows = s.store.rows := by
  simp only [State.cutStore, Completions.enterJobs_of_none waiting, State.writing, queue]

theorem losePower_pins (s : State) (left : Residue) : (s.losePower left).pins = s.pins := by
  unfold State.losePower
  split
  · obtain ⟨st, cut⟩ := cutStore_fields s left
    rw [cut]
    rfl
  · rfl

theorem losePower_rows {s : State} (queue : s.store.queue = []) (waiting : s.store.waiting = []) (left : Residue) :
    (s.losePower left).store.rows = s.store.rows := by
  unfold State.losePower
  split
  · exact cutStore_rows queue waiting left
  · rfl

theorem cleared_silent (s : State) {p : Power} (dark : p ≠ .on) : Silent (s.cleared p) :=
  silent_of_dark (t := s.cleared p) dark

/-! The commands. -/

theorem settled_of_whole {s : State} (whole : s.power = .on → s.unfinished = []) : s.settled = s := by
  unfold State.settled
  split
  · rename_i running
    exact finish_of_whole (whole running)
  · rfl

theorem settled_power (s : State) : s.settled.power = s.power := by
  unfold State.settled
  split
  · exact finish_power s
  · rfl

theorem exec_powerLoss (s : State) (left : Residue) :
    exec (.powerLoss left) s = .next (s.settled.losePower left) := rfl

theorem exec_powerOn (s : State) (hold : Bool) (left : Residue) :
    exec (.powerOn hold left) s = .next (s.settled.applyPower hold left) := rfl

theorem exec_pinReset (s : State) (hold : Bool) (left : Residue) :
    exec (.pinReset hold left) s = .next (s.settled.resetPin hold left) := rfl

/-- Power that was not seen to go has gone first (assumption 7). -/
theorem applyPower_losePower {s : State} (powered : s.power ≠ .off) (hold : Bool) (left : Residue) :
    s.applyPower hold left = (s.losePower left).applyPower hold left := by
  have off : (s.losePower left).power = .off := rfl
  unfold State.applyPower
  dsimp only
  rw [if_neg powered, if_pos off]

theorem exec_powerOn_held {s : State} (off : s.power = .off) (left : Residue) :
    exec (.powerOn true left) s = .next (s.cleared (.held .powerOn)) := by
  rw [exec_powerOn, settled_dark (by simp [off]), State.applyPower, if_pos off]
  rfl

theorem exec_pinReset_of_ready {s : State} (r : s.Ready) (left : Residue) :
    exec (.pinReset false left) s = .next ((s.cutStore left).startPart .pin) := by
  rw [exec_pinReset, settled_of_ready r, State.resetPin, r.power]
  rfl

theorem exec_pinReset_hold {s : State} (r : s.Ready) (left : Residue) :
    exec (.pinReset true left) s = .next ((s.cutStore left).cleared (.held .pin)) := by
  rw [exec_pinReset, settled_of_ready r, State.resetPin, r.power]
  rfl

theorem exec_pinReset_held {s : State} {cause : StartCause} (held : s.power = .held cause) (left : Residue) :
    exec (.pinReset false left) s = .next (s.startPart cause) := by
  rw [exec_pinReset, settled_dark (by simp [held]), State.resetPin, held]
  rfl

theorem exec_pinReset_off {s : State} (off : s.power = .off) (hold : Bool) (left : Residue) :
    exec (.pinReset hold left) s = .next s := by
  rw [exec_pinReset, settled_dark (by simp [off]), State.resetPin, off]

/-! A cell at a start (R12). -/

theorem fittedTo_isSome_iff {m : MetroSet} {c : CellId} :
    (m.fittedTo c).isSome = true ↔ ∃ d, m.deckOf c = some d ∧ m.isEnabled d = true := by
  unfold MetroSet.fittedTo
  cases m.deckOf c with
  | none => simp
  | some d => cases enabled : m.isEnabled d <;> simp [enabled]

theorem startCell_of_mapped {m : Metrology} {c : CellId} (set : m.standIn = false)
    (mapped : ∃ d, m.active.deckOf c = some d ∧ m.active.isEnabled d = true) :
    startCell m c = { Cell.start with state := .active } :=
  if_pos (by simp [set, fittedTo_isSome_iff.mpr mapped])

theorem startCell_of_unmapped {m : Metrology} {c : CellId}
    (unmapped : ¬(m.standIn = false ∧ ∃ d, m.active.deckOf c = some d ∧ m.active.isEnabled d = true)) :
    startCell m c = Cell.start := by
  refine if_neg fun fits => unmapped ?_
  rw [Bool.and_eq_true, Bool.not_eq_true'] at fits
  exact ⟨fits.1, fittedTo_isSome_iff.mp fits.2⟩

/-! The ticket repair (R143). -/

section Repair

variable {r : Rows} {c : Counters} {n : W32}

/-- A place that holds an entry of a visit number, as the search for it judges. -/
def holdsVisit (r : Rows) (n : W32) (i : Nat) : Bool :=
  match r.visitAt i with
  | some e => e.number == n
  | none => false

/-- A place that holds a copy of a ticket number, as the search for it judges. -/
def holdsTicket (r : Rows) (n : W32) (i : Nat) : Bool :=
  match r.ticketAt i with
  | some x => x.ticket.number == n
  | none => false

theorem visitPlace_eq (r : Rows) (n : W32) : r.visitPlace n = (List.range 64).find? (holdsVisit r n) := rfl

theorem holdsVisit_iff {i : Nat} : holdsVisit r n i = true ↔ ∃ e, r.visitAt i = some e ∧ e.number = n := by
  unfold holdsVisit
  cases r.visitAt i <;> simp

theorem holdsTicket_iff {i : Nat} : holdsTicket r n i = true ↔ ∃ x, r.ticketAt i = some x ∧ x.ticket.number = n := by
  unfold holdsTicket
  cases r.ticketAt i <;> simp

theorem visitPlace_isSome_iff :
    (r.visitPlace n).isSome = true ↔ ∃ j e, j < 64 ∧ r.visitAt j = some e ∧ e.number = n := by
  rw [visitPlace_eq, List.find?_isSome]
  simp only [List.mem_range, holdsVisit_iff]
  constructor
  · rintro ⟨j, within, e, entry, number⟩
    exact ⟨j, e, within, entry, number⟩
  · rintro ⟨j, e, within, entry, number⟩
    exact ⟨j, within, e, entry, number⟩

theorem visitPlace_of_first {i : Nat} {e : VisitEntry} (within : i < 64) (entry : r.visitAt i = some e)
    (number : e.number = n) (first : ∀ j x, j < i → r.visitAt j = some x → x.number ≠ n) :
    r.visitPlace n = some i := by
  rw [visitPlace_eq, List.find?_range_eq_some]
  refine ⟨holdsVisit_iff.mpr ⟨e, entry, number⟩, List.mem_range.mpr within, fun j lower => ?_⟩
  rw [Bool.not_eq_true', ← Bool.not_eq_true, holdsVisit_iff]
  rintro ⟨x, found, same⟩
  exact first j x lower found same

theorem visitPlace_of_none (absent : ∀ i x, i < 64 → r.visitAt i = some x → x.number ≠ n) : r.visitPlace n = none := by
  rw [visitPlace_eq, List.find?_eq_none]
  intro i member
  rw [holdsVisit_iff]
  rintro ⟨x, found, same⟩
  exact absent i x (List.mem_range.mp member) found same

theorem repairRemoval_of_place {i : Nat} (found : r.visitPlace c.closedVisit = some i) :
    r.repairRemoval c = [.freeVisit i] := by
  simp only [Rows.repairRemoval, found]

theorem repairRemoval_of_none (absent : r.visitPlace c.closedVisit = none) : r.repairRemoval c = [] := by
  simp only [Rows.repairRemoval, absent]

/-- The place of the copy that a repair discards. -/
def copyFound (r : Rows) (c : Counters) : Option Nat :=
  (List.range 16).find? (holdsTicket r (c.lastTicket + 1))

theorem copyFound_of_first {i : Nat} {x : TicketCopy} (within : i < 16) (copy : r.ticketAt i = some x)
    (number : x.ticket.number = c.lastTicket + 1)
    (first : ∀ j y, j < i → r.ticketAt j = some y → y.ticket.number ≠ c.lastTicket + 1) : copyFound r c = some i := by
  rw [copyFound, List.find?_range_eq_some]
  refine ⟨holdsTicket_iff.mpr ⟨x, copy, number⟩, List.mem_range.mpr within, fun j lower => ?_⟩
  rw [Bool.not_eq_true', ← Bool.not_eq_true, holdsTicket_iff]
  rintro ⟨y, found, same⟩
  exact first j y lower found same

theorem repairCopy_of_absent (absent : ∀ i x, i < 16 → r.ticketAt i = some x → x.ticket.number ≠ c.lastTicket + 1) :
    r.repairCopy c = [] := by
  have none_ : copyFound r c = none := by
    rw [copyFound, List.find?_eq_none]
    intro i member
    rw [holdsTicket_iff]
    rintro ⟨x, found, same⟩
    exact absent i x (List.mem_range.mp member) found same
  change (match copyFound r c with | none => _ | some i => _) = _
  rw [none_]

variable {i : Nat} {x : TicketCopy} (found : copyFound r c = some i) (copy : r.ticketAt i = some x)
include found copy

/-- The copy of the next ticket number is discarded, and its visit written back where the table has it no more. -/
theorem repairCopy_of_found :
    r.repairCopy c =
      if (r.visitPlace x.ticket.visit.number).isSome then [.freeTicket i]
      else
        match (List.range 64).find? fun j => (r.visitAt j).isNone with
        | some j => visitRows j x.ticket.visit ++ [.freeTicket i]
        | none => [.freeTicket i] := by
  change (match copyFound r c with | none => _ | some i => _) = _
  rw [found]
  dsimp only
  rw [copy] <;> rfl

theorem repairCopy_of_held
    (held : ∃ j e, j < 64 ∧ r.visitAt j = some e ∧ e.number = x.ticket.visit.number) :
    r.repairCopy c = [.freeTicket i] := by
  rw [repairCopy_of_found found copy, if_pos (visitPlace_isSome_iff.mpr held)]

theorem repairCopy_of_lost (lost : ∀ j e, j < 64 → r.visitAt j = some e → e.number ≠ x.ticket.visit.number) {j : Nat}
    (within : j < 64) (free : r.visitAt j = none) (first : ∀ m, m < j → r.visitAt m ≠ none) :
    r.repairCopy c = visitRows j x.ticket.visit ++ [.freeTicket i] := by
  have place : (List.range 64).find? (fun j => (r.visitAt j).isNone) = some j := by
    rw [List.find?_range_eq_some]
    refine ⟨by simp [free], List.mem_range.mpr within, fun m lower => ?_⟩
    have taken := first m lower
    simpa [Option.isSome_iff_ne_none] using taken
  rw [repairCopy_of_found found copy, visitPlace_of_none lost, place]
  rfl

theorem repairCopy_of_full (full : ∀ j, j < 64 → r.visitAt j ≠ none) : r.repairCopy c = [.freeTicket i] := by
  have none_ : (List.range 64).find? (fun j => (r.visitAt j).isNone) = none := by
    rw [List.find?_eq_none]
    intro j member
    simpa [Option.isSome_iff_ne_none] using full j (List.mem_range.mp member)
  rw [repairCopy_of_found found copy, none_]
  exact ite_self _

end Repair

/-- Settles O6: POWER_ON as the whole start, with what it makes of the rows; the cells, the ticket repair; and the loss of
power as what the start finds. -/
theorem powerOnAndPowerLoss : Obligations.PowerOnAndPowerLoss := by
  refine ⟨?start, ?cell, ?removal, ?noRemoval, ?copy, ?noCopy, ?held, ?unseen, ?loss⟩
  case start =>
    intro s left off
    obtain ⟨clock, time, rows, -, -⟩ := startPart_kept s .powerOn
    obtain ⟨-, -, enable⟩ := startPart_regs s .powerOn
    exact ⟨_, exec_powerOn_off off left, startPart_started s .powerOn, clock, time, enable, rows,
      ⟨_, startPart_begins s .powerOn⟩, fun x row => ⟨startPart_boot row nofun, startUp_mem_startPart row nofun,
        fun test closed committed => startPart_audit row nofun test closed committed⟩⟩
  case cell =>
    intro m c x mapped
    by_cases fits : mapped
    · have started : x = { Cell.start with state := .active } := startCell_of_mapped fits.1 fits.2
      simp [started, fits, Cell.start]
    · have started : x = Cell.start := startCell_of_unmapped fits
      simp [started, fits, Cell.start]
  case removal =>
    exact fun r c i e within entry number first =>
      repairRemoval_of_place (visitPlace_of_first within entry number first)
  case noRemoval => exact fun r c absent => repairRemoval_of_none (visitPlace_of_none absent)
  case copy =>
    intro r c i x within copy number first
    have found := copyFound_of_first within copy number first
    exact ⟨repairCopy_of_held found copy,
      fun lost j within free first => repairCopy_of_lost found copy lost within free first,
      repairCopy_of_full found copy⟩
  case noCopy => exact fun r c absent => repairCopy_of_absent absent
  case held =>
    intro s left off
    exact ⟨_, exec_powerOn_held off left, rfl, cleared_silent s nofun, rfl, rfl⟩
  case unseen =>
    intro s u hold left powered lost
    rw [exec_powerLoss] at lost
    cases lost
    rw [exec_powerOn, exec_powerOn, settled_dark (s := s.settled.losePower left) nofun]
    exact congrArg Host.Outcome.next (applyPower_losePower (by rwa [settled_power]) hold left)
  case loss =>
    intro s left whole
    refine ⟨s.losePower left, ?_, rfl, cleared_silent _ nofun, losePower_pins s left, rfl, rfl, rfl,
      fun queue waiting => losePower_rows queue waiting left⟩
    rw [exec_powerLoss, settled_of_whole whole]

/-- Settles O7: a reset released starts what the cut has left of the part; held, it leaves the part silent. -/
theorem pinResetStartsThePart : Obligations.PinResetStartsThePart := by
  refine ⟨?start, ?hold, ?release, ?off⟩
  case start =>
    intro s left r
    obtain ⟨st, cut⟩ := cutStore_fields s left
    obtain ⟨clock, time, rows, -, -⟩ := startPart_kept (s.cutStore left) .pin
    obtain ⟨-, -, enable⟩ := startPart_regs (s.cutStore left) .pin
    have started : Started .pin s ((s.cutStore left).startPart .pin) := by
      have of_cut := startPart_started (s.cutStore left) .pin
      have pins : (s.cutStore left).pins = s.pins := by rw [cut]
      exact { of_cut with pins := of_cut.pins.trans pins }
    refine ⟨_, exec_pinReset_of_ready r left, started, by rw [clock, cut], time, enable,
      ⟨_, startPart_begins _ .pin⟩, fun queue waiting => ?_⟩
    have same := cutStore_rows queue waiting left
    exact ⟨rows.trans same, fun x row => startPart_boot (s := s.cutStore left) (by rw [same, row]) nofun⟩
  case hold =>
    intro s left r
    obtain ⟨st, cut⟩ := cutStore_fields s left
    refine ⟨_, exec_pinReset_hold r left, rfl, cleared_silent _ nofun, ?_⟩
    rw [cut]
    rfl
  case release =>
    intro s left cause held
    exact ⟨_, exec_pinReset_held held left, startPart_started s cause, _, startPart_begins s cause⟩
  case off => exact fun s hold left off => exec_pinReset_off off hold left

end Sys2Proof.PowerEvents
end

section
/-! SUPPORT. The row that an engine restart finishes (R179): what the completion and the failure of a job leave alone,
and the store that the restart finds. -/

namespace Sys2Proof.RestartStore

open Sys2Proof Sys2Proof.Machine Sys2Proof.CaptureEnds Sys2Proof.Completions Sys2Proof.StoreJobs

/-! What requesters leave alone when their jobs end. -/

/-- The exchange memory below the staging area, and the journal's bytes. -/
def workBytes (x : Nat) : Prop :=
  journalBytes x ∨ x < 0xC00

/-- Jobs may have ended: the pins, the clocks, the rows and the counters stand, the registers but for causes that are
added, and the memory but for the journal, the header and the slots. -/
structure Worked (s t : State) : Prop where
  pins : t.pins = s.pins
  clock : t.clock = s.clock
  time : t.time = s.time
  rows : t.store.rows = s.store.rows
  counters : t.store.counters = s.store.counters
  latch : t.store.latch = s.store.latch
  regs : ∃ c, t.regs = { s.regs with cause := s.regs.cause ||| c }
  wf : s.mem.wf = true → t.mem.wf = true
  memory : s.mem.wf = true → Memory.SameBut workBytes s.mem t.mem

theorem regs_added (r : Registers) : ∃ c, r = { r with cause := r.cause ||| c } :=
  ⟨0, by simp⟩

/-- A change of none of these. -/
theorem Worked.of_same {s t : State} (pins : t.pins = s.pins) (clock : t.clock = s.clock) (time : t.time = s.time)
    (rows : t.store.rows = s.store.rows) (counters : t.store.counters = s.store.counters)
    (latch : t.store.latch = s.store.latch) (regs : t.regs = s.regs) (mem : t.mem = s.mem) : Worked s t :=
  ⟨pins, clock, time, rows, counters, latch, by rw [regs]; exact regs_added s.regs, fun w => by rw [mem, w],
    fun _ => by rw [mem]; exact Memory.SameBut.refl _ _⟩

theorem Worked.refl (s : State) : Worked s s :=
  Worked.of_same rfl rfl rfl rfl rfl rfl rfl rfl

theorem Worked.trans {s t u : State} (h : Worked s t) (k : Worked t u) : Worked s u := by
  obtain ⟨c, regs⟩ := h.regs
  obtain ⟨d, regs'⟩ := k.regs
  exact ⟨k.pins.trans h.pins, k.clock.trans h.clock, k.time.trans h.time, k.rows.trans h.rows,
    k.counters.trans h.counters, k.latch.trans h.latch, ⟨c ||| d, by rw [regs', regs]; simp [BitVec.or_assoc]⟩,
    k.wf ∘ h.wf, fun w => (h.memory w).trans (k.memory (h.wf w))⟩

theorem Worked.of_logged {e : W16} {s t : State} (h : Logged e s t) : Worked s t := by
  obtain ⟨c, -, regs⟩ := h.raised
  refine ⟨?_, ?_, ?_, ?_, ?_, ?_, ⟨c, regs⟩, h.wf, fun w => (h.memory w).mono fun _ => .inl⟩
  all_goals rw [h.eq]

theorem Worked.of_journaled {e : W16} {s t : State} (h : Journaled e s t) : Worked s t :=
  Worked.of_logged h.logged

theorem slot_work {k : SlotId} (x : Nat) (inside : slotAnswerBytes k x) : workBytes x := by
  have upper := slotBase_upper k
  unfold slotAnswerBytes at inside
  exact .inr (by omega)

theorem answer_worked (s : State) (k : SlotId) (code : AnswerCode) {body : List Byte} (fits : body.length ≤ 64) :
    Worked s (s.answer k code body) := by
  have same := answer_eq s k code body
  refine ⟨?_, ?_, ?_, ?_, ?_, ?_, ⟨causeAnswer, answer_regs ..⟩, fun w => answer_wf w k code body,
    fun w => (answer_sameBut_slot w k code fits).mono slot_work⟩
  all_goals rw [same]

theorem endCapture_worked (s : State) (k : SlotId) (code : AnswerCode) {body : List Byte} (fits : body.length ≤ 64) :
    Worked s (s.endCapture k code body) :=
  (Worked.of_same (s := s) (t := uncaptured s) rfl rfl rfl rfl rfl rfl rfl rfl).trans (answer_worked (uncaptured s) k code fits)

/-- A word of the header. -/
theorem writeWord_worked (s : State) {x : Nat} (v : W16) (low : x + 1 < 0xC00) : Worked s (s.writeWord x v) :=
  ⟨rfl, rfl, rfl, rfl, rfl, rfl, regs_added s.regs, fun w => Memory.write16_wf w,
    fun w => Memory.SameBut.write16 w (.inr (by omega)) (.inr low)⟩

theorem writeLong_worked (s : State) {x : Nat} (v : W32) (low : x + 3 < 0xC00) : Worked s (s.writeLong x v) :=
  ⟨rfl, rfl, rfl, rfl, rfl, rfl, regs_added s.regs, fun w => Memory.write32_wf w,
    fun w => Memory.SameBut.write32 w fun _ _ upper => .inr (by omega)⟩

theorem setPlace_worked (s : State) (i : Nat) (v : Option Visit) : Worked s (s.setPlace i v) :=
  Worked.of_same rfl rfl rfl rfl rfl rfl rfl rfl

theorem showVisitCount_worked (s : State) : Worked s s.showVisitCount :=
  writeWord_worked s _ (by decide)

theorem removeVisit_worked (s : State) (n : W32) : Worked s (s.removeVisit n) := by
  unfold State.removeVisit
  split
  · exact (setPlace_worked s _ none).trans (showVisitCount_worked _)
  · exact Worked.refl s

theorem setStatus_worked (s : State) (n : W32) (status : VisitStatus) : Worked s (s.setStatus n status) := by
  obtain ⟨visits, changed⟩ := setStatus_fields s n status
  rw [changed]
  exact Worked.of_same rfl rfl rfl rfl rfl rfl rfl rfl

theorem writeSummary_worked (s : State) (i : Nat) (v : Visit) (m : Summary) : Worked s (s.writeSummary i v m) := by
  unfold State.writeSummary
  dsimp only
  split
  · exact setPlace_worked s ..
  · exact Worked.of_same (s := s) rfl rfl rfl rfl rfl rfl rfl rfl

theorem commitTicket_worked (s : State) : Worked s s.commitTicket := by
  unfold State.commitTicket
  split
  · rename_i t i _
    refine (writeLong_worked s (x := hdrTicket) t.number (by decide)).trans ?_
    exact Worked.of_same rfl rfl rfl rfl rfl rfl rfl rfl
  · exact Worked.refl s

theorem dropTicket_worked (s : State) : Worked s s.dropTicket := by
  obtain ⟨tickets, dropped⟩ := dropTicket_fields s
  rw [dropped]
  exact Worked.of_same rfl rfl rfl rfl rfl rfl rfl rfl

theorem expiryStep_worked (age : Nat) (ns : List W32) (s : State) : Worked s (s.expiryStep age ns) := by
  induction ns generalizing s with
  | nil => exact Worked.of_same rfl rfl rfl rfl rfl rfl rfl rfl
  | cons n ns ih =>
    unfold State.expiryStep
    split
    · exact ih s
    · split
      · exact ih s
      · split
        · dsimp only
          split
          · exact Worked.of_same rfl rfl rfl rfl rfl rfl rfl rfl
          · exact Worked.of_same rfl rfl rfl rfl rfl rfl rfl rfl
        · exact ih s

theorem closeSession_worked (s : State) (kind : AuditKind) : Worked s (s.closeSession kind) := by
  have ended : Worked s (SessionEnds.sessionOver s) :=
    ⟨rfl, rfl, rfl, rfl, rfl, rfl, regs_added s.regs, fun w => SessionEnds.inSession_wf w _ _ _, fun w =>
      (SessionEnds.inSession_sameBut w _ _ _).mono fun x inside => .inr (by
        have session : hdrSession = 0x16 := rfl
        have := inside.2
        omega)⟩
  exact ended.trans (Worked.of_logged (SessionEnds.closeSession_logged s kind))

/-! The two ends of a job (R179, R180). -/

/-- A record placed in its reservation, and the capture answered. -/
theorem Worked.placed_endCapture {s u : State} (h : Worked s u) (r : Record) (k : SlotId) (code : AnswerCode)
    {body : List Byte} (fits : body.length ≤ 64) : Worked s ((u.placeReserved r).endCapture k code body) :=
  (h.trans (Worked.of_journaled (placeReserved_journaled u r))).trans (endCapture_worked _ k code fits)

theorem firstWeighCompleted_worked (s : State) : Worked s s.firstWeighCompleted := by
  unfold State.firstWeighCompleted
  split
  · rename_i c _
    split
    · rename_i i _
      split
      · rename_i v _
        dsimp only
        have shown := fun v' => (setPlace_worked s i v').trans (showVisitCount_worked _)
        have fits : (bytes32 v.entry.number ++ s32 v.entry.weight ++ bytes32 v.entry.time ++ bytes32 v.entry.epoch
            ++ bytes32 (orZero v.entry.bound)).length ≤ 64 := Nat.le_of_ble_eq_true rfl
        split
        · exact ((shown _).placed_endCapture _ c.slot .done fits).trans (writeSummary_worked ..)
        · exact (shown _).placed_endCapture _ c.slot .done fits
      · exact Worked.refl s
    · exact Worked.refl s
  · exact Worked.refl s

theorem ticketCompleted_worked (s : State) : Worked s s.ticketCompleted := by
  unfold State.ticketCompleted
  split
  · rename_i c t i _ _
    exact ((commitTicket_worked s).trans (removeVisit_worked _ _)).placed_endCapture _ c.slot .done
      (body := t.answerBody) (Nat.le_of_ble_eq_true rfl)
  · exact Worked.refl s

theorem recallCompleted_worked (s : State) (k : SlotId) (i : Nat) (c : TicketCopy) :
    Worked s (s.recallCompleted k i c) := by
  have raised : Worked s
      (if ((s.endRecall c.ticket.number).ticketPlace i).number = some c.ticket.number then
        (s.endRecall c.ticket.number).setTicketPlace i (.held c)
      else s.endRecall c.ticket.number) := by
    split <;> exact Worked.of_same rfl rfl rfl rfl rfl rfl rfl rfl
  exact (raised.trans (Worked.of_journaled (placeReserved_journaled _ _))).trans
    (answer_worked _ k .done (body := bytes32 c.ticket.number ++ u16 c.recalls) (Nat.le_of_ble_eq_true rfl))

theorem voidCompleted_worked (s : State) (k : SlotId) (n : W32) : Worked s (s.voidCompleted k n) := by
  unfold State.voidCompleted
  split
  · exact ((removeVisit_worked s n).trans (Worked.of_journaled (record_journaled _ _))).trans
      (answer_worked _ k .done (body := bytes32 n) (Nat.le_of_ble_eq_true rfl))
  · exact answer_worked _ k .done (body := bytes32 n) (Nat.le_of_ble_eq_true rfl)

theorem expiryCompleted_worked (s : State) (n : W32) : Worked s (s.expiryCompleted n) := by
  unfold State.expiryCompleted
  split
  · exact ((removeVisit_worked s n).trans (Worked.of_journaled (record_journaled _ _))).trans (expiryStep_worked _ _ _)
  · exact Worked.refl s

theorem commitCompleted_worked (s : State) : Worked s s.commitCompleted := by
  unfold State.commitCompleted
  split
  · exact (Worked.of_logged (writeAudit_logged s _ _)).trans (Worked.of_same rfl rfl rfl rfl rfl rfl rfl rfl)
  · exact Worked.refl s

/-- A job that completes (R179). -/
theorem jobCompleted_worked (s : State) (kind : JobKind) : Worked s (s.jobCompleted kind) := by
  match kind with
  | .firstWeigh => exact firstWeighCompleted_worked s
  | .ticket => exact ticketCompleted_worked s
  | .summary _ => exact Worked.refl s
  | .voidVisit k n => exact voidCompleted_worked s k n
  | .expiry n => exact expiryCompleted_worked s n
  | .recall k i c => exact recallCompleted_worked s k i c
  | .openSession k _ =>
    exact answer_worked s k .done (body := bytes32 s.metro.epoch) (Nat.le_of_ble_eq_true rfl)
  | .commit _ _ => exact commitCompleted_worked s
  | .closeSession => exact Worked.refl s
  | .classes k table =>
    exact (Worked.of_same (s := s) (t := { s with tracker := { s.tracker with classes := table } }) rfl rfl rfl rfl rfl rfl rfl
      rfl).trans (answer_worked _ k .done (Nat.zero_le _))
  | .site k x =>
    exact (Worked.of_same (s := s) (t := { s with site := x }) rfl rfl rfl rfl rfl rfl rfl rfl).trans
      (answer_worked _ k .done (Nat.zero_le _))
  | .auditRow n =>
    exact (Worked.of_same (s := s) (t := { s with audit := { s.audit with mark := nextSerial n, busy := false } }) rfl rfl rfl rfl
      rfl rfl rfl rfl).trans (Worked.of_logged (auditPump_spec _).1)
  | .startUp => exact Worked.refl s

theorem firstWeighFailed_worked (s : State) : Worked s s.firstWeighFailed := by
  unfold State.firstWeighFailed
  split
  · dsimp only
    refine Worked.trans ?_ (endCapture_worked _ _ _ (Nat.zero_le _))
    refine Worked.trans ?_ (Worked.of_journaled (releaseReservation_journaled _))
    split
    · exact setPlace_worked s _ none
    · exact Worked.refl s
  · exact Worked.refl s

theorem ticketFailed_worked (s : State) : Worked s s.ticketFailed := by
  unfold State.ticketFailed
  split
  · exact (((dropTicket_worked s).trans (setStatus_worked _ _ _)).trans
      (Worked.of_journaled (releaseReservation_journaled _))).trans (endCapture_worked _ _ _ (Nat.zero_le _))
  · exact Worked.refl s

theorem closed_answer_worked (s : State) (k : SlotId) (n : Nat) :
    Worked s ((if s.isSession n then s.closeSession .sessionAborted else s).answer k .storeFault []) := by
  refine Worked.trans ?_ (answer_worked _ k _ (Nat.zero_le _))
  split
  · exact closeSession_worked s _
  · exact Worked.refl s

/-- A job that fails (R180). -/
theorem jobFailed_worked (s : State) (kind : JobKind) : Worked s (s.jobFailed kind) := by
  match kind with
  | .firstWeigh => exact firstWeighFailed_worked s
  | .ticket => exact ticketFailed_worked s
  | .summary _ => exact Worked.refl s
  | .voidVisit k n => exact (setStatus_worked s n .held).trans (answer_worked _ k _ (Nat.zero_le _))
  | .expiry n => exact (setStatus_worked s n .held).trans (Worked.of_same rfl rfl rfl rfl rfl rfl rfl rfl)
  | .recall k i c =>
    exact ((Worked.of_same (s := s) (t := s.endRecall c.ticket.number) rfl rfl rfl rfl rfl rfl rfl rfl).trans
      (Worked.of_journaled (releaseReservation_journaled _))).trans (answer_worked _ k _ (Nat.zero_le _))
  | .openSession k n => exact closed_answer_worked s k n
  | .commit k n => exact closed_answer_worked s k n
  | .closeSession => exact Worked.refl s
  | .classes k _ => exact answer_worked s k _ (Nat.zero_le _)
  | .site k _ => exact answer_worked s k _ (Nat.zero_le _)
  | .auditRow n => exact Worked.of_same rfl rfl rfl rfl rfl rfl rfl rfl
  | .startUp => exact Worked.refl s

theorem foldl_jobFailed_worked (jobs : List Job) (s : State) :
    Worked s (jobs.foldl (fun t o => t.jobFailed o.kind) s) := by
  induction jobs generalizing s with
  | nil => exact Worked.refl s
  | cons j jobs ih => exact (jobFailed_worked s j.kind).trans (ih _)

/-! The row finished (R179). -/

/-- The store at a restart: no row is left in it. -/
def emptied (u : State) : State :=
  { u with store := { u.store with queue := [], waiting := [], retry := false } }

theorem finishStore_of_idle {s : State} (queue : s.store.queue = []) (waiting : s.store.waiting = [])
    (finish : RowFinish) : s.finishStore finish = emptied s := by
  simp only [State.finishStore, enterJobs_of_none waiting, State.writing, queue, emptied]

section Front

variable {s : State} {kind : JobKind} {w : RowWrite} {rest : List RowWrite} {jobs : List Job}
  (waiting : s.store.waiting = []) (queue : s.store.queue = ⟨kind, w :: rest⟩ :: jobs) {finish : RowFinish}
include waiting queue

theorem finishStore_of_matched (matched : finish.first = true ∨ (s.store.retry = false ∧ finish.second = true)) :
    s.finishStore finish = emptied (s.finishRow ⟨kind, w :: rest⟩ w rest) := by
  have passes : (finish.first || (!s.store.retry && finish.second)) = true := by simpa using matched
  simp only [State.finishStore, enterJobs_of_none waiting, writing_of_front queue, passes, if_true, emptied]

theorem finishStore_of_failed (failed : ¬(finish.first = true ∨ (s.store.retry = false ∧ finish.second = true))) :
    s.finishStore finish = emptied ((s.leaveRow w finish.left).failJob ⟨kind, w :: rest⟩ w) := by
  have fails : ¬(finish.first || (!s.store.retry && finish.second)) = true := by simpa using failed
  simp only [State.finishStore, enterJobs_of_none waiting, writing_of_front queue, if_neg fails, emptied]

end Front

/-- What finishing a row leaves alone: all but the rows, and the counters but for the boot count. -/
structure Finished (s t : State) : Prop where
  pins : t.pins = s.pins
  clock : t.clock = s.clock
  time : t.time = s.time
  boot : t.store.counters.bootCount = s.store.counters.bootCount
  regs : ∃ c, t.regs = { s.regs with cause := s.regs.cause ||| c }
  wf : s.mem.wf = true → t.mem.wf = true
  memory : s.mem.wf = true → Memory.SameBut workBytes s.mem t.mem

theorem Worked.finished {s t : State} (h : Worked s t) : Finished s t :=
  ⟨h.pins, h.clock, h.time, by rw [h.counters], h.regs, h.wf, h.memory⟩

/-- The rows alone, and the counters but for the boot count, come before what is worked. -/
theorem Finished.of_store {s u t : State} {st : Store} (same : u = { s with store := st })
    (boot : st.counters.bootCount = s.store.counters.bootCount) (h : Finished u t) : Finished s t := by
  subst same
  exact ⟨h.pins, h.clock, h.time, h.boot.trans boot, h.regs, h.wf, h.memory⟩

theorem Finished.emptied {s t : State} (h : Finished s t) : Finished s (emptied t) :=
  ⟨h.pins, h.clock, h.time, h.boot, h.regs, h.wf, h.memory⟩

theorem writeRow_boot (s : State) (w : RowWrite) :
    (s.writeRow w).store.counters.bootCount = s.store.counters.bootCount := by
  cases w with
  | counters change => cases change <;> rfl
  | _ => rfl

theorem writeRow_finished {s t : State} {w : RowWrite} {queue : List Job}
    (h : Finished { s.writeRow w with store := { (s.writeRow w).store with queue := queue, retry := false } } t) :
    Finished s t := by
  obtain ⟨rows, counters, written⟩ := writeRow_fields s w
  have boot := writeRow_boot s w
  have same : ({ s.writeRow w with store := { (s.writeRow w).store with queue := queue, retry := false } } : State)
      = { s with store := { (s.writeRow w).store with queue := queue, retry := false } } := by
    rw [written]
  exact Finished.of_store same boot h

theorem finishRow_finished (s : State) (j : Job) (w : RowWrite) (rest : List RowWrite) :
    Finished s (s.finishRow j w rest) := by
  unfold State.finishRow
  dsimp only
  split
  · exact writeRow_finished (jobCompleted_worked _ _).finished
  · exact writeRow_finished (Worked.refl _).finished

theorem setLatch_worked_but_latch (s : State) :
    Finished s s.setLatch ∧ s.setLatch.store = { s.store with latch := true } :=
  ⟨⟨rfl, rfl, rfl, rfl, ⟨causeStore, rfl⟩, (writeWord_worked s (x := hdrStoreFault) 1 (by decide)).wf,
    (writeWord_worked s (x := hdrStoreFault) 1 (by decide)).memory⟩, rfl⟩

/-- A job that fails at a row leaves the rows alone, and the latch set. -/
theorem failJob_spec (s : State) (j : Job) (w : RowWrite) :
    Finished s (s.failJob j w) ∧ (s.failJob j w).store.rows = s.store.rows
      ∧ (s.failJob j w).store.latch = true := by
  let latched := (emptied s).setLatch
  have entered := Worked.of_logged (writeAudit_logged latched .storeFault
    (u8 w.address.1 ++ u8 j.kind.requester ++ u16 w.address.2))
  have worked := (entered.trans (jobFailed_worked _ j.kind)).trans
    (foldl_jobFailed_worked (s.store.queue.drop 1 ++ s.store.waiting) _)
  have failed : Worked latched (s.failJob j w) := worked
  obtain ⟨before, store⟩ := setLatch_worked_but_latch (emptied s)
  obtain ⟨c, regs⟩ := before.regs
  obtain ⟨d, regs'⟩ := failed.regs
  refine ⟨⟨failed.pins.trans before.pins, failed.clock.trans before.clock, failed.time.trans before.time,
    by rw [failed.counters]; exact before.boot, ⟨c ||| d, by rw [regs', regs]; simp [emptied, BitVec.or_assoc]⟩,
    failed.wf ∘ before.wf, fun wf => (before.memory wf).trans (failed.memory (before.wf wf))⟩, ?_, ?_⟩
  · rw [failed.rows, store]
    rfl
  · rw [failed.latch, store]

end Sys2Proof.RestartStore
end

section
/-! SUPPORT. RESTART as a command (R119, R160, R161): the store that it finds, the whole start of the engine, its journal,
and the statement about them. -/

namespace Sys2Proof.RestartRows

open Sys2Proof Sys2Proof.Machine Sys2Proof.RestartStore Sys2Proof.StoreJobs Sys2Proof.Starts Sys2Proof.StartParts
open Sys2Proof.Publishing Sys2Proof.Reserved

/-! The store's end (R179). -/

theorem enter_counters (x : Store) : x.enter.counters = x.counters := by
  unfold Store.enter
  split
  · split <;> rfl
  · rfl

theorem enterAll_counters (n : Nat) (x : Store) : (x.enterAll n).counters = x.counters := by
  induction n generalizing x with
  | zero => rfl
  | succ n ih => exact (ih x.enter).trans (enter_counters x)

/-- What the end of the store leaves alone, whatever is in it. -/
theorem finishStore_finished (s : State) (finish : RowFinish) : Finished s (s.finishStore finish) := by
  have entered {t : State} (h : Finished s.enterJobs t) : Finished s t :=
    Finished.of_store rfl (by rw [enterAll_counters]) h
  unfold State.finishStore
  dsimp only
  refine Finished.emptied (entered ?_)
  split
  · exact (Worked.refl _).finished
  · rename_i j w rest _
    split
    · exact finishRow_finished _ j w rest
    · obtain ⟨rows, left⟩ := leaveRow_fields s.enterJobs w finish.left
      exact Finished.of_store left rfl (failJob_spec _ j w).1

theorem finishRow_rows (s : State) (j : Job) (w : RowWrite) (rest : List RowWrite) :
    (s.finishRow j w rest).store.rows = (s.writeRow w).store.rows := by
  unfold State.finishRow
  dsimp only
  split
  · exact (jobCompleted_worked _ j.kind).rows
  · rfl

/-- The header written and the live board refreshed. -/
theorem header_board_shown {v : State} (w : v.mem.wf = true) (cause : StartCause) (length : v.boardBytes.length = 156) :
    ∃ m, (v.writeHeader cause).refreshBoard = { v with mem := m } ∧ m.wf = true ∧ HeaderShown cause v m
      ∧ Memory.SameBut (fun x => headerBytes x ∨ boardRange x) v.mem m := by
  obtain ⟨m, written, wf, header, same⟩ := writeHeader_shown w cause
  have odd := Memory.write16_wf (x := boardBase) (v := m.read16 boardBase + 1) wf
  have filled := Memory.writeBytes_wf (x := boardBase + 4) (bs := v.boardBytes) odd
  have base : boardBase = 0x100 := rfl
  have board : Memory.SameBut boardRange m (boardMemory { v with mem := m }) := by
    refine ((Memory.SameBut.write16 wf ?_ ?_).trans (Memory.SameBut.writeBytes odd fun y lower upper => ?_)).trans
      (Memory.SameBut.write16 filled ?_ ?_)
    case refine_3 =>
      change y < boardBase + 4 + v.boardBytes.length at upper
      exact ⟨by omega, by omega⟩
    all_goals exact ⟨by omega, by omega⟩
  refine ⟨boardMemory { v with mem := m }, ?_, Memory.write16_wf filled, header.carried board header_not_board,
    (same.mono fun _ => .inl).trans (board.mono fun _ => .inr)⟩
  rw [written, refreshBoard_eq]

/-! The stages of an engine restart (R119). -/

section Stages

variable (s : State) (finish : RowFinish)

/-- The engine restarts: it does not run, and it holds the records that arise. -/
def restarting : State :=
  { s with
    regs := { s.regs with restart := true, run := false }
    journal := { s.journal with holding := true, held := [] } }

/-- The store ended. -/
def ended : State :=
  (restarting s).finishStore finish

/-- The orders abandoned. -/
def abandoned : State :=
  s.holdRecords.abandonOrders finish

theorem abandoned_eq :
    abandoned s finish =
      { ended s finish with
        mem := (ended s finish).mem.clearBytes 0x400 0x800
        intake := Intake.start
        capture := none
        regs := { (ended s finish).regs with cause := 0, refused := none } } := rfl

/-- The store verified and the blocks handed over. -/
def checked : State :=
  (abandoned s finish).verify .engineRestart

/-- The header and the live board written. -/
def initialised : State :=
  ((checked s finish).writeHeader .engineRestart).refreshBoard

end Stages

/-- The journal turned, with the STARTUP record and what follows it. -/
def last (u : State) : State :=
  followed (u.restartJournal.offer (u.restartJournal.startUpRecord .engineRestart)).drain

/-- RESTART reads 0 again. -/
def restarted (t : State) : State :=
  { t with regs := { t.regs with restart := false } }

section Stages

variable (s : State) (finish : RowFinish)

theorem restartEngine_eq : s.restartEngine finish = restarted (last (initialised s finish)) := by
  unfold State.restartEngine restarted last initialised checked abandoned
  rfl

theorem exec_restart_of_ready {s : State} (r : s.Ready) (finish : RowFinish) :
    exec (.restart finish) s = .next (if s.regs.restart then s else s.restartEngine finish) :=
  congrArg Host.Outcome.next (whenOn_of_ready r _)

theorem ended_finished : Finished (restarting s) (ended s finish) :=
  finishStore_finished _ finish

theorem ended_kept : Kept (restarting s) (ended s finish) :=
  finishStore_kept (Kept.refl _) finish

theorem ended_regs :
    (ended s finish).regs.restart = true ∧ (ended s finish).regs.run = false
      ∧ (ended s finish).regs.enable = s.regs.enable := by
  obtain ⟨c, regs⟩ := (ended_finished s finish).regs
  rw [regs]
  exact ⟨rfl, rfl, rfl⟩

variable {s} (r : s.Ready)
include r

theorem checked_handed :
    Handed s (checked s finish) ∧ VerifiedFrom (abandoned s finish) (checked s finish) := by
  have kept := ended_kept s finish
  exact verify_handed .engineRestart (finishStore_holding _ finish) (kept.power.trans r.power)
    (ended_finished s finish).pins (kept.unfinished.trans r.whole)

variable (wf : s.mem.wf = true)

omit r in
include wf in
theorem abandoned_wf : (abandoned s finish).mem.wf = true :=
  Memory.clearBytes_wf ((ended_finished s finish).wf wf)

include wf

theorem checked_wf : (checked s finish).mem.wf = true := by
  rcases (checked_handed finish r).2.memory with same | fault
  · rw [same]
    exact abandoned_wf finish wf
  · rw [fault]
    exact Memory.write16_wf (abandoned_wf finish wf)

/-- The verification writes the header alone. -/
theorem checked_sameBut : Memory.SameBut headerBytes (abandoned s finish).mem (checked s finish).mem := by
  rcases (checked_handed finish r).2.memory with same | fault
  · rw [same]
    exact Memory.SameBut.refl _ _
  · rw [fault]
    exact Memory.SameBut.write16 (abandoned_wf finish wf) (.inr (by decide)) (.inr (by decide))

theorem initialised_memory :
    ∃ m, initialised s finish = { checked s finish with mem := m } ∧ m.wf = true
      ∧ HeaderShown .engineRestart (checked s finish) m
      ∧ Memory.SameBut (fun x => headerBytes x ∨ boardRange x) (checked s finish).mem m :=
  header_board_shown (checked_wf finish r wf) .engineRestart (boardBytes_of_handed (checked_handed finish r).1)

theorem initialised_wf : (initialised s finish).mem.wf = true := by
  obtain ⟨m, same, wf', -⟩ := initialised_memory finish r wf
  rw [same]
  exact wf'

end Stages

/-! The journal turned (R161). -/

/-- The records of an outbox noted as lost. -/
theorem foldl_dropRecord_eq (rs : List Record) (s : State) :
    ∃ owed, rs.foldl State.dropRecord s =
      { s with journal := { s.journal with owed := owed, notes := rs.foldl Notes.drop s.journal.notes } } := by
  induction rs generalizing s with
  | nil => exact ⟨s.journal.owed, rfl⟩
  | cons r rs ih =>
    obtain ⟨owed, dropped⟩ := ih (s.dropRecord r)
    exact ⟨owed, dropped⟩

/-- The outbox noted as lost and emptied, a SUMMARY owed, and the attention count 0. -/
def turned (u : State) (notes : Notes) : State :=
  { u with
    journal := { u.journal with outbox := [], owed := true, owedRestart := true, attention := 0, notes := notes }
    mem := u.mem.write16 hdrOutbox 0 }

theorem turned_eq (u : State) :
    (let noted := (u.journal.outbox.foldl State.dropRecord u).setOutbox []
    ({ noted with journal := { noted.journal with owed := true, owedRestart := true, attention := 0 } } : State)) =
      turned u (u.journal.outbox.foldl Notes.drop u.journal.notes) := by
  obtain ⟨owed, dropped⟩ := foldl_dropRecord_eq u.journal.outbox u
  rw [dropped]
  rfl

theorem openPage_notes (s : State) : s.openPage.journal.notes = s.journal.notes := by
  unfold State.openPage
  dsimp only
  split <;> rfl

theorem publish_notes {s : State} {p : PageId} (current : s.journal.current = some p) :
    s.publish.journal.notes = s.journal.notes := by
  rw [publish_eq current, openPage_notes]
  rfl

/-- The reservation discarded, and a current page that holds a record published. -/
def pagePublishedAtRestart (s : State) : State :=
  match s.endReservation.journal.current with
  | some p => if s.endReservation.pageCount p = 0 then s.endReservation else s.endReservation.publish
  | none => s.endReservation

theorem restartJournal_eq (s : State) :
    s.restartJournal = turned (pagePublishedAtRestart s)
      ((pagePublishedAtRestart s).journal.outbox.foldl Notes.drop (pagePublishedAtRestart s).journal.notes) :=
  turned_eq (pagePublishedAtRestart s)

theorem restartJournal_of_begun {s : State} {p : PageId} (current : s.journal.current = some p)
    (begun : s.pageCount p ≠ 0) :
    s.restartJournal = turned s.endReservation.publish (s.journal.outbox.foldl Notes.drop s.journal.notes) := by
  have ended : s.endReservation.journal.current = some p := current
  have page : s.endReservation.pageCount p ≠ 0 := begun
  have published : pagePublishedAtRestart s = s.endReservation.publish := by
    simp only [pagePublishedAtRestart, ended, if_neg page]
  rw [restartJournal_eq, published, (publish_queueKept _).outbox, publish_notes ended]
  rfl

theorem restartJournal_of_empty {s : State} (empty : ∀ p, s.journal.current = some p → s.pageCount p = 0) :
    s.restartJournal = turned s.endReservation (s.journal.outbox.foldl Notes.drop s.journal.notes) := by
  have published : pagePublishedAtRestart s = s.endReservation := by
    unfold pagePublishedAtRestart
    split
    · rename_i p current
      exact if_pos (empty p current)
    · rfl
  rw [restartJournal_eq, published]
  rfl

theorem turned_journaled (u : State) (notes : Notes) : Journaled causeJournal u (turned u notes) :=
  (journaled_header (x := hdrOutbox) u 0 (by decide) (by decide)).trans
    (journaled_journal (u.writeWord hdrOutbox 0) (turned u notes).journal)

theorem restartJournal_journaled (s : State) : Journaled causeJournal s s.restartJournal := by
  have published : Journaled causeJournal s (pagePublishedAtRestart s) := by
    unfold pagePublishedAtRestart
    split
    · split
      · exact endReservation_journaled s
      · exact (endReservation_journaled s).trans (publish_journaled _)
    · exact endReservation_journaled s
  rw [restartJournal_eq]
  exact published.trans (turned_journaled _ _)

/-! STARTUP and the SUMMARY (R160, R161). -/

section Startup

variable {s : State} {content : List Byte} (unreserved : s.journal.reservation = none) (empty : s.journal.outbox = [])
include unreserved empty

theorem startup_of_blocked (blocked : s.journal.blocked = true) :
    (s.offer ⟨.startup, 0, content⟩).drain =
      { s with
        journal := { s.journal with outbox := [⟨.startup, 0, content⟩] }
        mem := s.mem.write16 hdrOutbox 1 } := by
  rw [offer_of_waiting unreserved (.inl blocked), queueRecord_of_room (.inl (by rw [empty]; decide)), empty]
  exact drain_of_idle (.inl blocked)

omit unreserved empty in
theorem summaryRecord_length (cells : s.cells.length = 24) : s.summaryRecord.length = 96 := by
  simp [State.summaryRecord, Record.length, cells, bytes32, bytes16, u16, Memory.readBytes]

theorem startup_of_room {p : PageId} (unblocked : s.journal.blocked = false) (current : s.journal.current = some p)
    (owed : s.journal.owed = true) (fresh : s.pageUsed p = 0) (wf : s.mem.wf = true) (cells : s.cells.length = 24)
    (length : content.length = 28) :
    (s.offer ⟨.startup, 0, content⟩).drain =
      (noted ((s.placeOn p ⟨.startup, 0, content⟩).placeOn p
        (s.placeOn p ⟨.startup, 0, content⟩).summaryRecord)).judgePage := by
  have long : (⟨.startup, 0, content⟩ : Record).length = 36 := by rw [Record.length, length]
  have room : (⟨.startup, 0, content⟩ : Record).length ≤ s.pageLeft p := by
    rw [long, State.pageLeft, fresh]
    decide
  have placed : s.offer ⟨.startup, 0, content⟩ = s.placeOn p ⟨.startup, 0, content⟩ :=
    offer_of_room unreserved unblocked empty current room
  rw [placed]
  generalize beside : s.placeOn p ⟨.startup, 0, content⟩ = u
  have journal := placeOn_journal s p ⟨.startup, 0, content⟩
  rw [beside] at journal
  have used : u.pageUsed p = 36 := by
    rw [← beside, placeOn_pageUsed wf (by rw [long, fresh]; decide), long, fresh]
  have summary : u.summaryRecord.length ≤ u.pageLeft p := by
    rw [summaryRecord_length (by rw [← beside]; exact cells), State.pageLeft, used]
    decide
  have here : u.journal.current = some p := by rw [journal]; exact current
  have places := placeSummary_of_room here summary
  have after := placeOn_journal u p u.summaryRecord
  rw [drain_of_owed (by rw [journal]; exact unblocked) (by rw [journal]; exact unreserved)
    (by rw [journal]; exact owed) ?continues, places]
  case continues =>
    rw [places, noted, after, journal]
    exact unblocked
  have nothing : (noted (u.placeOn p u.summaryRecord)).journal.outbox = [] := by
    rw [noted, after, journal]
    exact empty
  rw [nothing]
  rfl

end Startup

end Sys2Proof.RestartRows
end

section
/-! SUPPORT. The engine restart (R119, R161): what its start finds and leaves, and the statement about it. -/

namespace Sys2Proof.Restarts

open Sys2Proof Sys2Proof.Machine Sys2Proof.RestartStore Sys2Proof.RestartRows Sys2Proof.StoreJobs Sys2Proof.Starts
open Sys2Proof.StartParts

/-! The rows that a restart finds. -/

section Rows

variable (s : State) (finish : RowFinish)

theorem ended_of_idle (queue : s.store.queue = []) (waiting : s.store.waiting = []) :
    ended s finish = emptied (restarting s) :=
  finishStore_of_idle (s := restarting s) queue waiting finish

theorem writeRow_restarting (w : RowWrite) :
    ((restarting s).writeRow w).store.rows = (s.writeRow w).store.rows := by
  cases w <;> rfl

theorem leaveRow_restarting (w : RowWrite) (left : Residue) :
    ((restarting s).leaveRow w left).store.rows = (s.leaveRow w left).store.rows := by
  cases w <;> rfl

variable {kind : JobKind} {w : RowWrite} {rest : List RowWrite} {jobs : List Job} (waiting : s.store.waiting = [])
  (queue : s.store.queue = ⟨kind, w :: rest⟩ :: jobs)
include waiting queue

theorem ended_rows_of_matched (matched : finish.first = true ∨ (s.store.retry = false ∧ finish.second = true)) :
    (ended s finish).store.rows = (s.writeRow w).store.rows := by
  have done := finishStore_of_matched (s := restarting s) waiting queue matched
  calc (ended s finish).store.rows
      = (emptied ((restarting s).finishRow ⟨kind, w :: rest⟩ w rest)).store.rows :=
        congrArg (fun u : State => u.store.rows) done
    _ = (s.writeRow w).store.rows := (finishRow_rows ..).trans (writeRow_restarting s w)

theorem ended_of_failed (failed : ¬(finish.first = true ∨ (s.store.retry = false ∧ finish.second = true))) :
    (ended s finish).store.rows = (s.leaveRow w finish.left).store.rows ∧ (ended s finish).store.latch = true := by
  have done := finishStore_of_failed (s := restarting s) waiting queue failed
  obtain ⟨-, rows, latch⟩ := failJob_spec ((restarting s).leaveRow w finish.left) ⟨kind, w :: rest⟩ w
  exact ⟨(congrArg (fun u : State => u.store.rows) done).trans (rows.trans (leaveRow_restarting s w finish.left)),
    (congrArg (fun u : State => u.store.latch) done).trans latch⟩

end Rows

/-! What an engine restart leaves. -/

theorem last_journaled (u : State) : Journaled recordCauses u (last u) := by
  have offered := (restartJournal_journaled u).trans
    (offer_journaled u.restartJournal (u.restartJournal.startUpRecord .engineRestart))
  have placed := offered.trans (drain_journaled _)
  exact (placed.mono (by decide)).trans (followed_journaled _)

theorem restarted_mem (t : State) : (restarted t).mem = t.mem := rfl

/-- The engine restarts from a part that does not restart already. -/
def engineRestarted (s : State) (finish : RowFinish) : State :=
  restarted (last (initialised s finish))

section Restarted

variable {s : State} (r : s.Ready) (wf : s.mem.wf = true) (finish : RowFinish)
include r wf

theorem restarted_fields :
    ∃ m q j, engineRestarted s finish = { checked s finish with mem := m, regs := q, journal := j } := by
  obtain ⟨m, q, j, placed⟩ := (last_journaled (initialised s finish)).fields
  obtain ⟨m', same, -⟩ := initialised_memory finish r wf
  rw [same] at placed
  exact ⟨m, { q with restart := false }, j, by rw [engineRestarted, restarted, same, placed]⟩

theorem restarted_regs :
    (engineRestarted s finish).regs.run = false ∧ (engineRestarted s finish).regs.enable = s.regs.enable
      ∧ (engineRestarted s finish).regs.refused = none := by
  obtain ⟨c, -, raised⟩ := (last_journaled (initialised s finish)).raised
  obtain ⟨m, same, -⟩ := initialised_memory finish r wf
  have before : (initialised s finish).regs = (checked s finish).regs := by rw [same]
  have from_ := (checked_handed finish r).2
  obtain ⟨-, run, enable⟩ := ended_regs s finish
  rw [engineRestarted, restarted, raised, before]
  exact ⟨from_.run.trans run, from_.enable.trans enable, from_.refused⟩

theorem restarted_memory :
    ∃ m, m.wf = true ∧ HeaderShown .engineRestart (checked s finish) m
      ∧ Memory.SameBut (fun x => headerBytes x ∨ boardRange x) (checked s finish).mem m
      ∧ Memory.SameBut journalBytes m (engineRestarted s finish).mem := by
  obtain ⟨m, same, wf', header, board⟩ := initialised_memory finish r wf
  have mem : (initialised s finish).mem = m := by rw [same]
  have placed := (last_journaled (initialised s finish)).memory (by rw [mem, wf'])
  rw [mem] at placed
  exact ⟨m, wf', header, board, by rw [engineRestarted, restarted_mem]; exact placed⟩

/-- No order stands in a slot (R119). -/
theorem restarted_slots {x : Nat} (inside : bytesFrom 0x400 0x800 x) :
    (engineRestarted s finish).mem.readByte x = 0 := by
  obtain ⟨m, -, -, board, placed⟩ := restarted_memory r wf finish
  obtain ⟨lower, upper⟩ := inside
  have fault : hdrStoreFault = 48 := rfl
  rw [placed x (by simp only [journalBytes]; omega), board x (by simp only [headerBytes, boardRange]; omega),
    checked_sameBut finish r wf x (by simp only [headerBytes]; omega), abandoned_eq]
  exact Memory.readByte_clearBytes ⟨lower, upper⟩

theorem restarted_sameBut : Memory.SameBut workBytes s.mem (engineRestarted s finish).mem := by
  obtain ⟨m, -, -, board, placed⟩ := restarted_memory r wf finish
  have header : ∀ x, headerBytes x → workBytes x := fun x inside => .inr (by unfold headerBytes at inside; omega)
  have cleared : Memory.SameBut workBytes (ended s finish).mem (abandoned s finish).mem := by
    rw [abandoned_eq]
    exact Memory.SameBut.clearBytes fun y lower upper => .inr (by omega)
  have ends : Memory.SameBut workBytes s.mem (ended s finish).mem := (ended_finished s finish).memory wf
  refine (((ends.trans cleared).trans ((checked_sameBut finish r wf).mono header)).trans (board.mono ?_)).trans
    (placed.mono fun _ => .inl)
  rintro x (inside | inside)
  · exact header x inside
  · exact .inr (by have := inside.2; omega)

/-- The part has started (R118, R119). -/
theorem restarted_started : Started .engineRestart s (engineRestarted s finish) := by
  obtain ⟨m, q, j, fields⟩ := restarted_fields r wf finish
  obtain ⟨run, -, -⟩ := restarted_regs r wf finish
  obtain ⟨m', -, header, -, placed⟩ := restarted_memory r wf finish
  exact started_of_handed (checked_handed finish r).1 (by rw [fields]) run rfl
    (header.carried placed header_not_journal) fun x inside => restarted_slots r wf finish inside

omit wf in
theorem checked_clocks : (checked s finish).clock = s.clock ∧ (checked s finish).time = s.time := by
  have from_ := (checked_handed finish r).2
  have ends := ended_finished s finish
  rw [from_.clock, from_.time, abandoned_eq]
  exact ⟨ends.clock, ends.time⟩

/-- The clocks, the boot count, the queue, the rows and the log are what the verification leaves of the store. -/
theorem restarted_checked :
    (engineRestarted s finish).clock = s.clock ∧ (engineRestarted s finish).time = s.time
      ∧ (engineRestarted s finish).store = (checked s finish).store
      ∧ (engineRestarted s finish).audit = (checked s finish).audit := by
  obtain ⟨m, q, j, fields⟩ := restarted_fields r wf finish
  obtain ⟨clock, time⟩ := checked_clocks r finish
  rw [fields]
  exact ⟨clock, time, rfl, rfl⟩

omit wf in
theorem checked_rows : (checked s finish).store.rows = (ended s finish).store.rows :=
  (checked_handed finish r).2.rows

omit r wf in
theorem checked_boot : (checked s finish).store.counters.bootCount = s.store.counters.bootCount :=
  (verify_boot_of_restart _).trans (ended_finished s finish).boot

omit wf in
theorem checked_queue : (checked s finish).store.queue = [] :=
  (checked_handed finish r).2.queue

omit r wf in
theorem checked_waiting :
    ∀ j ∈ (checked s finish).store.waiting, j.kind = .startUp ∨ ∃ n, j.kind = .auditRow n :=
  verify_waiting (w := abandoned s finish) .engineRestart rfl

/-- The journal before its turn is the one that the end of the store left, and holds what arose since. -/
theorem initialised_journal :
    (initialised s finish).journal = { (ended s finish).journal with held := (initialised s finish).journal.held } := by
  obtain ⟨m, same, -⟩ := initialised_memory finish r wf
  obtain ⟨rs, journal, -⟩ := (checked_handed finish r).2.journal
  have before : (initialised s finish).journal = (checked s finish).journal := by rw [same]
  rw [before, journal]
  rfl

theorem initialised_journal_bytes {x : Nat} (inside : journalBytes x) :
    (initialised s finish).mem.readByte x = (ended s finish).mem.readByte x := by
  obtain ⟨m, same, -, -, board⟩ := initialised_memory finish r wf
  have outside := fun header => header_not_journal x header inside
  have fault : hdrStoreFault = 48 := rfl
  have last_ : hdrLastPage = 36 := rfl
  have notBoard : ¬boardRange x := by
    simp only [journalBytes, boardRange] at inside ⊢
    omega
  have notSlots : ¬(0x400 ≤ x ∧ x < 0x400 + 0x800) := by
    simp only [journalBytes] at inside
    omega
  have mem : (initialised s finish).mem = m := by rw [same]
  rw [mem, board x (not_or.mpr ⟨outside, notBoard⟩), checked_sameBut finish r wf x outside, abandoned_eq]
  exact Memory.readByte_clearBytes_other notSlots

/-- The STARTUP record is made of what the part stands at in the end. -/
theorem startUpRecord_turned :
    (initialised s finish).restartJournal.startUpRecord .engineRestart =
      ⟨.startup, 0, startUpContent .engineRestart (engineRestarted s finish)⟩ := by
  obtain ⟨m, q, j, turned⟩ := (restartJournal_journaled (initialised s finish)).fields
  obtain ⟨m', same, -⟩ := initialised_memory finish r wf
  obtain ⟨m'', q', j', fields⟩ := restarted_fields r wf finish
  rw [turned, same, fields]
  rfl

/-- With nothing queued, and counters that check with the manufacture epoch, the log stands (R184). -/
theorem restarted_audit (queue : s.store.queue = []) (waiting : s.store.waiting = []) {x : CountersRow}
    (row : s.store.rows.countersRow = some x) (test : s.store.rows.imageTest x.counters.epoch = none)
    (closed : x.counters.sessionOpen = false) (zero : x.counters.epoch = 0) :
    (engineRestarted s finish).audit.entries = s.audit.entries
      ∧ (engineRestarted s finish).audit.last = s.audit.last := by
  have abandons : (abandoned s finish).store.rows = s.store.rows ∧ (abandoned s finish).audit = s.audit := by
    rw [abandoned_eq, ended_of_idle s finish queue waiting]
    exact ⟨rfl, rfl⟩
  obtain ⟨rows, audit⟩ := abandons
  have log : (readStore (abandoned s finish) .engineRestart).audit = { s.audit with busy := false } := by
    obtain ⟨boot, latch, mem, regs, read, -⟩ := readCounters_spec (abandoned s finish) .engineRestart
    have same : (((abandoned s finish).readCounters .engineRestart).readSet).audit = s.audit := by
      rw [(readSet_store _).2, read]
      exact audit
    rw [readStore, State.readAuditLog, if_pos rfl]
    exact congrArg (fun a : Audit => { a with busy := false }) same
  obtain ⟨entries, last_⟩ := verify_audit_of_sound (w := abandoned s finish) (cause := .engineRestart)
    (by rw [rows, row]) (by rw [rows, test]) closed (.inl zero)
  rw [log] at entries last_
  rw [(restarted_checked r wf finish).2.2.2]
  exact ⟨entries, last_⟩

end Restarted

/-- Settles O8: the restart as the start of the part with its journal turned; the turn, the STARTUP record and its
SUMMARY; and the row that a restart finishes. -/
theorem restartKeepsEnableClockAndBootCount : Obligations.RestartKeepsEnableClockAndBootCount := by
  refine ⟨?restart, ?turn, ?startup, ?idle, ?row, ?again⟩
  case restart =>
    intro s finish wf r fresh
    have run : exec (.restart finish) s = .next (engineRestarted s finish) := by
      rw [exec_restart_of_ready r, fresh, restartEngine_eq]
      rfl
    obtain ⟨-, enable, refused⟩ := restarted_regs r wf finish
    obtain ⟨clock, time, store, -⟩ := restarted_checked r wf finish
    have rows : (engineRestarted s finish).store.rows = (ended s finish).store.rows := by
      rw [store, checked_rows r finish]
    refine ⟨engineRestarted s finish, run, restarted_started r wf finish, clock, time, enable, refused,
      by rw [store, checked_boot], by rw [store, checked_queue r finish], by rw [store]; exact checked_waiting finish,
      fun queue waiting => ⟨?_, fun x row test closed zero => restarted_audit r wf finish queue waiting row test closed zero⟩,
      fun kind w rest jobs waiting queue => ⟨fun matched => ?_, fun failed => ?_⟩, restarted_sameBut r wf finish,
      initialised s finish, initialised_journal r wf finish, fun x inside => initialised_journal_bytes r wf finish inside, ?_⟩
    · rw [rows, ended_of_idle s finish queue waiting]
      rfl
    · rw [rows, ended_rows_of_matched s finish waiting queue matched]
    · obtain ⟨left, latch⟩ := ended_of_failed s finish waiting queue failed
      exact ⟨rows.trans left, by rw [store]; exact verify_latched (w := abandoned s finish) latch _⟩
    · rw [← startUpRecord_turned r wf finish]
      rfl
  case turn =>
    exact fun s => ⟨fun p current begun => restartJournal_of_begun current begun, restartJournal_of_empty⟩
  case startup =>
    intro s content j record noted_ unreserved empty owed cells length
    exact ⟨fun p unblocked current fresh wf =>
        startup_of_room unreserved empty unblocked current owed fresh wf cells length,
      startup_of_blocked unreserved empty⟩
  case idle =>
    intro s finish queue waiting
    have same : ({ s.store with queue := [], waiting := [], retry := false } : Store) =
        { s.store with retry := false } := by
      dsimp only
      rw [queue, waiting]
    exact (finishStore_of_idle queue waiting finish).trans (congrArg (fun x => { s with store := x }) same)
  case row =>
    intro s finish kind w rest jobs waiting queue matched emptied_
    refine ⟨fun done more => ?_, fun done final => ?_, fun failed => finishStore_of_failed waiting queue failed⟩
    · obtain ⟨rows, counters, written⟩ := writeRow_fields s w
      rw [finishStore_of_matched waiting queue done, finishRow_next queue more, written]
      rfl
    · rw [finishStore_of_matched waiting queue done, final, Completions.finishRow_last (final ▸ queue)]
      rfl
  case again =>
    intro s finish r restarting_
    rw [exec_restart_of_ready r, restarting_]
    rfl

end Sys2Proof.Restarts
end

section
/-! SUPPORT. The order of work under a plan (R3, assumption 3): each work once, after the work that it needs. -/

namespace Sys2Proof.PlanOrders

open Sys2Proof Sys2Proof.Machine

/-- A list of work that can follow `done`: none of it is done already, and each has what it needs before it. -/
def Follows : List Work → List Work → Prop
  | _, [] => True
  | done, w :: ws => w ∉ done ∧ (∀ v ∈ worksBefore done w, v ∈ done) ∧ Follows (w :: done) ws

/-- What a work needs depends on what is done alone. -/
theorem worksBefore_congr {done other : List Work} (same : ∀ v, v ∈ done ↔ v ∈ other) (w : Work) :
    worksBefore done w = worksBefore other w := by
  have snapshot : done.contains .snapshot = other.contains .snapshot := by
    rw [Bool.eq_iff_iff, List.contains_iff_mem, List.contains_iff_mem]
    exact same _
  cases w <;> simp only [worksBefore, snapshot]

theorem Follows.congr {done other ws : List Work} (same : ∀ v, v ∈ done ↔ v ∈ other) (h : Follows done ws) :
    Follows other ws := by
  induction ws generalizing done other with
  | nil => trivial
  | cons w ws ih =>
    obtain ⟨fresh, needs, rest⟩ := h
    refine ⟨fun done' => fresh ((same w).mpr done'), fun v need => ?_, ih (fun v => ?_) rest⟩
    · rw [← worksBefore_congr same] at need
      exact (same v).mp (needs v need)
    · rw [List.mem_cons, List.mem_cons, same]

theorem Follows.append {done ws vs : List Work} (h : Follows done ws) (k : Follows (ws ++ done) vs) :
    Follows done (ws ++ vs) := by
  induction ws generalizing done with
  | nil => exact k
  | cons w ws ih =>
    obtain ⟨fresh, needs, rest⟩ := h
    refine ⟨fresh, needs, ih rest (k.congr fun v => ?_)⟩
    simp only [List.cons_append, List.mem_cons, List.mem_append]
    exact or_left_comm

/-! A work with what it needs. -/

/-- Whatever a work needs needs nothing more than the snapshot that is done already. -/
theorem worksBefore_met {done other : List Work} {u v w : Work} (need : v ∈ worksBefore done w)
    (further : u ∈ worksBefore other v) : u ∈ done := by
  cases w
  case zeroWatch | tracking =>
    rw [List.mem_singleton.mp need] at further
    contradiction
  case compute =>
    by_cases shown : Work.snapshot ∈ done
    · simp only [worksBefore, List.contains_iff_mem.mpr shown, if_true, List.mem_cons, List.not_mem_nil, or_false]
        at need
      rcases need with rfl | rfl | rfl
      · contradiction
      · exact List.mem_singleton.mp further ▸ shown
      · exact List.mem_singleton.mp further ▸ shown
    · simp only [worksBefore, List.contains_iff_mem, shown, if_false, List.mem_singleton] at need
      subst need
      contradiction
  all_goals contradiction

theorem worksBefore_nodup (done : List Work) (w : Work) : (worksBefore done w).Nodup ∧ w ∉ worksBefore done w := by
  unfold worksBefore
  split
  case h_3 => split <;> decide
  all_goals simp

/-- What is done besides for a work changes nothing in what the work needs. -/
theorem worksBefore_grown {done before : List Work} {w : Work} (needed : ∀ v ∈ before, v ∈ worksBefore done w) :
    worksBefore (before ++ done) w = worksBefore done w := by
  cases w
  case compute =>
    have absent : Work.snapshot ∉ before := fun member => by
      have need := needed _ member
      unfold worksBefore at need
      dsimp only at need
      split at need <;> simp at need
    have same : (before ++ done).contains .snapshot = done.contains .snapshot := by
      rw [Bool.eq_iff_iff, List.contains_iff_mem, List.contains_iff_mem, List.mem_append]
      exact or_iff_right absent
    simp only [worksBefore, same]
  all_goals rfl

theorem Follows.of_met {done ws : List Work} (once : ws.Nodup) (fresh : ∀ w ∈ ws, w ∉ done)
    (met : ∀ w ∈ ws, ∀ other, ∀ v ∈ worksBefore other w, v ∈ done) : Follows done ws := by
  induction ws generalizing done with
  | nil => trivial
  | cons w ws ih =>
    obtain ⟨apart, once⟩ := List.nodup_cons.mp once
    refine ⟨fresh w List.mem_cons_self, met w List.mem_cons_self done, ih once (fun v member again => ?_)
      fun v member other u need => List.mem_cons_of_mem _ (met v (List.mem_cons_of_mem _ member) other u need)⟩
    rcases List.mem_cons.mp again with rfl | done'
    · exact apart member
    · exact fresh v (List.mem_cons_of_mem _ member) done'

theorem worksUpTo_follows {done : List Work} {w : Work} (fresh : w ∉ done) : Follows done (worksUpTo done w) := by
  obtain ⟨once, other⟩ := worksBefore_nodup done w
  have needed : ∀ v ∈ (worksBefore done w).filter (fun v => !done.contains v), v ∈ worksBefore done w ∧ v ∉ done := by
    intro v member
    simpa using member
  refine (Follows.of_met (once.filter _) (fun v member => (needed v member).2)
    fun v member _ u further => worksBefore_met (needed v member).1 further).append ⟨?fresh, ?needs, trivial⟩
  case fresh =>
    rw [List.mem_append, not_or]
    exact ⟨fun member => other (needed w member).1, fresh⟩
  case needs =>
    intro v need
    rw [worksBefore_grown fun v member => (needed v member).1] at need
    by_cases done' : v ∈ done
    · exact List.mem_append_right _ done'
    · exact List.mem_append_left _ (List.mem_filter.mpr ⟨need, by simpa using done'⟩)

theorem mem_worksUpTo_self (done : List Work) (w : Work) : w ∈ worksUpTo done w := by
  simp [worksUpTo]

/-! The whole order. -/

theorem orderFrom_follows (done ws : List Work) : Follows done (orderFrom done ws) := by
  induction ws generalizing done with
  | nil => trivial
  | cons w ws ih =>
    unfold orderFrom
    split
    · exact ih done
    · rename_i fresh
      exact (worksUpTo_follows (by simpa using fresh)).append (ih _)

/-- All that is listed is done. -/
theorem mem_orderFrom {done ws : List Work} {v : Work} (listed : v ∈ ws) : v ∈ done ∨ v ∈ orderFrom done ws := by
  induction ws generalizing done with
  | nil => contradiction
  | cons w ws ih =>
    unfold orderFrom
    split
    · rename_i done'
      rcases List.mem_cons.mp listed with rfl | later
      · exact .inl (by simpa using done')
      · exact ih later
    · rw [List.mem_append]
      rcases List.mem_cons.mp listed with rfl | later
      · exact .inr (.inl (mem_worksUpTo_self done v))
      · rcases ih (done := worksUpTo done w ++ done) later with before | after
        · rcases List.mem_append.mp before with now | done'
          · exact .inr (.inl now)
          · exact .inl done'
        · exact .inr (.inr after)

theorem planWorks_follows (plan : Plan) : Follows [] (planWorks plan) :=
  orderFrom_follows [] _

theorem mem_planWorks (plan : Plan) (w : Work) : w ∈ planWorks plan := by
  have listed : w ∈ plan.order ++ canonicalOrder := by
    rw [List.mem_append]
    exact .inr (by cases w <;> decide)
  exact (mem_orderFrom (done := []) listed).resolve_left (by simp)

/-! What follows of the places. -/

theorem Follows.nodup {done ws : List Work} (h : Follows done ws) : ws.Nodup ∧ ∀ w ∈ ws, w ∉ done := by
  induction ws generalizing done with
  | nil => exact ⟨List.nodup_nil, by simp⟩
  | cons w ws ih =>
    obtain ⟨fresh, -, rest⟩ := h
    obtain ⟨once, apart⟩ := ih rest
    refine ⟨List.nodup_cons.mpr ⟨fun again => apart w again List.mem_cons_self, once⟩, fun v member => ?_⟩
    rcases List.mem_cons.mp member with rfl | later
    · exact fresh
    · exact fun done' => apart v later (List.mem_cons_of_mem _ done')

/-- What a work needs stands before it. -/
theorem Follows.needs_before {done ws : List Work} (h : Follows done ws) {w v : Work} (member : w ∈ ws)
    (need : v ∈ worksBefore (ws.take (ws.idxOf w) ++ done) w) : v ∈ ws.take (ws.idxOf w) ++ done := by
  induction ws generalizing done with
  | nil => contradiction
  | cons x ws ih =>
    obtain ⟨fresh, needs, rest⟩ := h
    by_cases here : x = w
    · subst here
      rw [List.idxOf_cons_self] at need ⊢
      exact needs v need
    · have later : w ∈ ws := (List.mem_cons.mp member).resolve_left (Ne.symm here)
      have same : ∀ u, u ∈ x :: ws.take (ws.idxOf w) ++ done ↔ u ∈ ws.take (ws.idxOf w) ++ x :: done := by
        intro u
        simp only [List.cons_append, List.mem_cons, List.mem_append]
        exact or_left_comm
      rw [List.idxOf_cons_ne _ here, List.take_succ_cons] at need ⊢
      rw [same]
      rw [worksBefore_congr same] at need
      exact ih rest later need

section Places

variable (plan : Plan)

theorem planWorks_before {w v : Work}
    (need : v ∈ worksBefore ((planWorks plan).take ((planWorks plan).idxOf w)) w) :
    (planWorks plan).idxOf v < (planWorks plan).idxOf w := by
  have before := (planWorks_follows plan).needs_before (mem_planWorks plan w) (v := v) (by rwa [List.append_nil])
  rw [List.append_nil] at before
  exact (List.mem_take_iff_idxOf_lt (mem_planWorks plan v)).mp before

/-- A computation comes before the snapshot, or after the examinations of that snapshot. -/
theorem planWorks_compute :
    (planWorks plan).idxOf .compute < (planWorks plan).idxOf .snapshot
      ∨ ((planWorks plan).idxOf .tracking < (planWorks plan).idxOf .compute
        ∧ (planWorks plan).idxOf .zeroWatch < (planWorks plan).idxOf .compute) := by
  rcases Nat.lt_trichotomy ((planWorks plan).idxOf .compute) ((planWorks plan).idxOf .snapshot) with
    before | same | after
  · exact .inl before
  · exact absurd ((List.idxOf_inj (mem_planWorks plan .compute)).mp same) (by decide)
  · have shown : Work.snapshot ∈ (planWorks plan).take ((planWorks plan).idxOf .compute) :=
      (List.mem_take_iff_idxOf_lt (mem_planWorks plan .snapshot)).mpr after
    have needs : worksBefore ((planWorks plan).take ((planWorks plan).idxOf .compute)) .compute =
        [.link, .zeroWatch, .tracking] := by
      simp [worksBefore, shown]
    exact .inr ⟨planWorks_before plan (by rw [needs]; decide), planWorks_before plan (by rw [needs]; decide)⟩

end Places

end Sys2Proof.PlanOrders
end

section
/-! SUPPORT. The refresh of the live board (R60, R98, R101, 12.4): its words, where each is read, and the bits of the flag
words. -/

namespace Sys2Proof.BoardReads

open Sys2Proof Sys2Proof.Machine

/-! A run of bytes in the memory. -/

/-- The bytes of a run that the memory holds are read as written. -/
theorem readByte_writeBytes_at {bs : List Byte} {m : Memory} {x i : Nat} {b : Byte} (w : m.wf = true)
    (here : bs[i]? = some b) (low : x + i < Memory.size) : (m.writeBytes x bs).readByte (x + i) = b := by
  induction bs generalizing m x i with
  | nil => simp at here
  | cons c bs ih =>
    have written := Memory.writeByte_wf (x := x) (v := c) w
    change ((m.writeByte x c).writeBytes (x + 1) bs).readByte (x + i) = b
    cases i with
    | zero =>
      rw [List.getElem?_cons_zero, Option.some.injEq] at here
      rw [Memory.readByte_writeBytes_other written (by omega), Nat.add_zero, Memory.readByte_writeByte w (by omega),
        if_pos rfl, here]
    | succ i =>
      rw [show x + (i + 1) = x + 1 + i by omega]
      exact ih written here (by omega)

theorem flatMap_bytes16_low {ws : List W16} {n : Nat} {v : W16} (word : ws[n]? = some v) :
    (ws.flatMap bytes16)[2 * n]? = some (v.extractLsb' 0 8)
      ∧ (ws.flatMap bytes16)[2 * n + 1]? = some (v.extractLsb' 8 8) := by
  induction ws generalizing n with
  | nil => simp at word
  | cons u ws ih =>
    cases n with
    | zero =>
      rw [List.getElem?_cons_zero, Option.some.injEq] at word
      rw [word]
      exact ⟨rfl, rfl⟩
    | succ n => exact ih (n := n) word

/-- A word of a run of words is read as written. -/
theorem read16_writeBytes_at {ws : List W16} {m : Memory} {x n : Nat} {v : W16} (w : m.wf = true)
    (word : ws[n]? = some v) (low : x + 2 * n + 1 < Memory.size) :
    (m.writeBytes x (ws.flatMap bytes16)).read16 (x + 2 * n) = v := by
  obtain ⟨first, second⟩ := flatMap_bytes16_low word
  rw [Memory.read16, readByte_writeBytes_at w first (by omega),
    show x + 2 * n + 1 = x + (2 * n + 1) by omega, readByte_writeBytes_at w second (by omega)]
  exact Memory.append_halves v

/-! The board (R101). -/

/-- The two words of a 32-bit field. -/
def longWords (v : W32) : List W16 :=
  [v.extractLsb' 0 16, v.extractLsb' 16 16]

theorem bytes32_eq_words (v : W32) : bytes32 v = (longWords v).flatMap bytes16 := by
  have part : ∀ a b, a + 8 ≤ 16 → b + a ≤ 24 → (v.extractLsb' b 16).extractLsb' a 8 = v.extractLsb' (b + a) 8 := by
    intro a b narrow _
    refine BitVec.eq_of_getLsbD_eq fun i small => ?_
    have inside : a + i < 16 := by omega
    simp [small, inside, Nat.add_assoc]
  simp [longWords, bytes32, bytes16, part]

/-- The words of a deck's entry (R60). -/
def deckWords (s : State) (d : DeckId) : List W16 :=
  let x := s.snapOf d
  let m := s.monitor.decks.get d
  longWords (fieldS32 x.legal) ++ longWords (fieldS32 x.fine) ++ [x.flags.word, 0]
    ++ longWords (fieldS32 (m.zero - m.zeroRef))

/-- The words of the board between those of the decks and those of the cells (12.4). -/
def midWords (s : State) : List W16 :=
  let p := s.monitor.snapshot
  let t := s.tracker.report
  let l := s.lane.report
  longWords (fieldS32 p.legal) ++ longWords (fieldS32 p.fine) ++ [p.flags.word, 0]
    ++ [field16 t.state.code, field16 t.axlesOn] ++ longWords t.number ++ [field16 (bit t.contained)]
    ++ [field16 l.aspectA.code, field16 l.aspectB.code, laneWord l]
    ++ [field16 l.horn.pattern.code, field16 l.horn.period, field16 (l.burst.getD 0), 0, 0, 0, 0, 0]

/-- The words of the board from offset 0x104 on. -/
def boardWords (s : State) : List W16 :=
  allDecks.flatMap (deckWords s) ++ (midWords s ++ s.cells.map fun c => field16 c.state.code)

theorem boardDeck_eq_words (s : State) (d : DeckId) : s.boardDeck d = (deckWords s d).flatMap bytes16 := by
  simp only [State.boardDeck, deckWords, s32, bytes32_eq_words, List.flatMap_append]
  rfl

theorem boardBytes_eq_words (s : State) : s.boardBytes = (boardWords s).flatMap bytes16 := by
  have decks : s.boardDeck = fun d => (deckWords s d).flatMap bytes16 := funext (boardDeck_eq_words s)
  have zero : bytes16 (field16 0) = bytes16 0 := by decide
  have reserved : List.replicate 10 (0 : Byte) = bytes16 0 ++ (bytes16 0 ++ (bytes16 0 ++ (bytes16 0 ++ bytes16 0))) := by
    decide
  simp only [State.boardBytes, boardWords, midWords, List.flatMap_assoc, decks, s32, bytes32_eq_words, u16, zero,
    reserved, List.flatMap_append, List.flatMap_map, List.flatMap_cons, List.flatMap_nil, List.append_nil,
    List.append_assoc]

theorem deckWords_length (s : State) (d : DeckId) : (deckWords s d).length = 8 := rfl

theorem getElem?_flatMap_of_length {α β : Type} {f : α → List β} {n : Nat} (length : ∀ a, (f a).length = n) {as : List α}
    {i k : Nat} {a : α} (place : as[i]? = some a) (within : k < n) : (as.flatMap f)[n * i + k]? = (f a)[k]? := by
  induction as generalizing i with
  | nil => simp at place
  | cons b as ih =>
    rw [List.flatMap_cons]
    cases i with
    | zero =>
      rw [List.getElem?_cons_zero, Option.some.injEq] at place
      rw [Nat.mul_zero, Nat.zero_add, List.getElem?_append_left (by rw [length]; exact within), place]
    | succ i =>
      rw [List.getElem?_append_right (by rw [length, Nat.mul_succ]; omega), length,
        show n * (i + 1) + k - n = n * i + k by rw [Nat.mul_succ]; omega]
      exact ih place

theorem allDecks_getElem? (d : DeckId) : allDecks[d.val]? = some d := by
  fin_cases d <;> rfl

theorem deckWords_flatMap_length (s : State) : (allDecks.flatMap (deckWords s)).length = 32 := rfl

theorem boardWords_deck (s : State) (d : DeckId) {k : Nat} (within : k < 8) :
    (boardWords s)[8 * d.val + k]? = (deckWords s d)[k]? := by
  have small := d.isLt
  rw [boardWords, List.getElem?_append_left (by rw [deckWords_flatMap_length]; omega)]
  exact getElem?_flatMap_of_length (deckWords_length s) (allDecks_getElem? d) within

theorem midWords_length (s : State) : (midWords s).length = 22 := rfl

theorem boardWords_mid (s : State) {n : Nat} (within : n < 22) : (boardWords s)[32 + n]? = (midWords s)[n]? := by
  rw [boardWords, List.getElem?_append_right (by rw [deckWords_flatMap_length]; omega), deckWords_flatMap_length,
    Nat.add_sub_cancel_left, List.getElem?_append_left (by rw [midWords_length]; exact within)]

theorem boardWords_cell (s : State) (i : Nat) :
    (boardWords s)[54 + i]? = (s.cells.map fun c => field16 c.state.code)[i]? := by
  rw [boardWords, List.getElem?_append_right (by rw [deckWords_flatMap_length]; omega), deckWords_flatMap_length,
    List.getElem?_append_right (by rw [midWords_length]; omega), midWords_length, show 54 + i - 32 - 22 = i by omega]

theorem refreshBoard_mem (s : State) : s.refreshBoard.mem = boardMemory s := by
  rw [refreshBoard_eq]

section Refreshed

variable {s : State} (w : s.mem.wf = true)
include w

theorem oddBoard_wf : (s.mem.write16 boardBase (s.mem.read16 boardBase + 1)).wf = true :=
  Memory.write16_wf w

/-- A refresh raises the sequence by two (R101). -/
theorem refreshBoard_sequence : s.refreshBoard.mem.read16 boardBase = s.mem.read16 boardBase + 2 := by
  have base : boardBase = 0x100 := rfl
  have size : Memory.size = 0x8000 := rfl
  rw [refreshBoard_mem]
  unfold boardMemory
  dsimp only
  rw [Memory.read16_write16 (Memory.writeBytes_wf (oddBoard_wf w)) (by omega),
    Memory.read16_writeBytes_other (oddBoard_wf w) (by omega), Memory.read16_write16 w (by omega), BitVec.add_assoc]
  rfl

theorem refreshBoard_sameBut :
    Memory.SameBut (fun x => bytesFrom boardBase 2 x ∨ bytesFrom (boardBase + 4) s.boardBytes.length x) s.mem
      s.refreshBoard.mem := by
  rw [refreshBoard_mem]
  have odd := oddBoard_wf w
  exact ((Memory.SameBut.write16 w (.inl ⟨by omega, by omega⟩) (.inl ⟨by omega, by omega⟩)).trans
    (Memory.SameBut.writeBytes odd fun y lower upper => .inr ⟨lower, upper⟩)).trans
    (Memory.SameBut.write16 (Memory.writeBytes_wf odd) (.inl ⟨by omega, by omega⟩) (.inl ⟨by omega, by omega⟩))

/-- Each byte of the contents stands at its place. -/
theorem refreshBoard_byte {i : Nat} {b : Byte} (here : s.boardBytes[i]? = some b)
    (low : boardBase + 4 + i < Memory.size) : s.refreshBoard.mem.readByte (boardBase + 4 + i) = b := by
  rw [refreshBoard_mem]
  unfold boardMemory
  dsimp only
  rw [Memory.readByte_write16_other (Memory.writeBytes_wf (oddBoard_wf w)) (by omega) (by omega)]
  exact readByte_writeBytes_at (oddBoard_wf w) here low

/-- Each word of the contents stands at its place. -/
theorem refreshBoard_word {n : Nat} {v : W16} (word : (boardWords s)[n]? = some v) (low : n < 1000) :
    s.refreshBoard.mem.read16 (0x104 + 2 * n) = v := by
  have base : boardBase = 0x100 := rfl
  have size : Memory.size = 0x8000 := rfl
  rw [refreshBoard_mem]
  unfold boardMemory
  dsimp only
  rw [Memory.read16_write16_other (Memory.writeBytes_wf (oddBoard_wf w)) (by omega), boardBytes_eq_words]
  exact read16_writeBytes_at (oddBoard_wf w) word (by omega)

/-- Each long field of the contents stands at its place. -/
theorem refreshBoard_long {n : Nat} {v : W32} (low : n < 999)
    (words : (boardWords s)[n]? = some (v.extractLsb' 0 16) ∧ (boardWords s)[n + 1]? = some (v.extractLsb' 16 16)) :
    s.refreshBoard.mem.read32 (0x104 + 2 * n) = v := by
  rw [Memory.read32, refreshBoard_word w words.1 (by omega),
    show 0x104 + 2 * n + 2 = 0x104 + 2 * (n + 1) by omega, refreshBoard_word w words.2 (by omega)]
  exact Memory.append_words v

/-- The state of a cell stands at its place. -/
theorem refreshBoard_cell {i : Nat} {x : Cell} (within : i < 24) (cell : s.cells[i]? = some x) :
    s.refreshBoard.mem.read16 (0x170 + 2 * i) = field16 x.state.code := by
  have word : (boardWords s)[54 + i]? = some (field16 x.state.code) := by
    rw [boardWords_cell, List.getElem?_map, cell]
    rfl
  have read := refreshBoard_word w word (by omega)
  rwa [show 0x104 + 2 * (54 + i) = 0x170 + 2 * i by omega] at read

/-- A deck's entry stands at its place (R60). -/
theorem refreshBoard_deck (d : DeckId) :
    s.refreshBoard.mem.read32 (0x104 + 16 * d.val) = fieldS32 (s.snapOf d).legal
      ∧ s.refreshBoard.mem.read32 (0x108 + 16 * d.val) = fieldS32 (s.snapOf d).fine
      ∧ s.refreshBoard.mem.read16 (0x10C + 16 * d.val) = (s.snapOf d).flags.word
      ∧ s.refreshBoard.mem.read32 (0x110 + 16 * d.val) =
        fieldS32 ((s.monitor.decks.get d).zero - (s.monitor.decks.get d).zeroRef) := by
  have place : ∀ n, 0x104 + 2 * (8 * d.val + n) = 0x104 + 2 * n + 16 * d.val := fun n => by omega
  have small := d.isLt
  have word : ∀ {k v}, (deckWords s d)[k]? = some v → k < 8 → (boardWords s)[8 * d.val + k]? = some v :=
    fun here within => (boardWords_deck s d within).trans here
  refine ⟨?legal, ?fine, ?flags, ?offset⟩
  case legal =>
    exact place 0 ▸ refreshBoard_long w (n := 8 * d.val + 0) (by omega)
      ⟨word (k := 0) rfl (by decide), word (k := 1) rfl (by decide)⟩
  case fine =>
    exact place 2 ▸ refreshBoard_long w (n := 8 * d.val + 2) (by omega)
      ⟨word (k := 2) rfl (by decide), word (k := 3) rfl (by decide)⟩
  case flags => exact place 4 ▸ refreshBoard_word w (n := 8 * d.val + 4) (word (k := 4) rfl (by decide)) (by omega)
  case offset =>
    exact place 6 ▸ refreshBoard_long w (n := 8 * d.val + 6) (by omega)
      ⟨word (k := 6) rfl (by decide), word (k := 7) rfl (by decide)⟩

/-- A word between the decks and the cells stands at its place. -/
theorem refreshBoard_mid {n : Nat} {v : W16} (word : (midWords s)[n]? = some v) (within : n < 22) :
    s.refreshBoard.mem.read16 (0x144 + 2 * n) = v := by
  rw [show 0x144 + 2 * n = 0x104 + 2 * (32 + n) by omega]
  exact refreshBoard_word w ((boardWords_mid s within).trans word) (by omega)

theorem refreshBoard_mid_long {n : Nat} {v : W32} (within : n < 21)
    (words : (midWords s)[n]? = some (v.extractLsb' 0 16) ∧ (midWords s)[n + 1]? = some (v.extractLsb' 16 16)) :
    s.refreshBoard.mem.read32 (0x144 + 2 * n) = v := by
  rw [show 0x144 + 2 * n = 0x104 + 2 * (32 + n) by omega]
  exact refreshBoard_long w (by omega) ⟨(boardWords_mid s (by omega)).trans words.1,
    (boardWords_mid s (n := n + 1) (by omega)).trans words.2⟩

end Refreshed

/-! The codes and the bits of the board's words. -/

theorem field16_of_small {n : Nat} (small : n < 65536) : field16 n = BitVec.ofNat 16 n := by
  rw [field16, if_pos ⟨by omega, by omega⟩, BitVec.ofInt_natCast]

theorem trackState_code (x : TrackState) : field16 x.code = BitVec.ofNat 16 x.code :=
  field16_of_small (by cases x <;> decide)

theorem aspect_code (x : Aspect) : field16 x.code = BitVec.ofNat 16 x.code :=
  field16_of_small (by cases x <;> decide)

theorem hornPattern_code (x : HornPattern) : field16 x.code = BitVec.ofNat 16 x.code :=
  field16_of_small (by cases x <;> decide)

theorem cellState_code (x : CellState) : field16 x.code = BitVec.ofNat 16 x.code :=
  field16_of_small (by cases x <;> decide)

theorem bit_code (b : Bool) : field16 (bit b) = BitVec.ofNat 16 (bit b) :=
  field16_of_small (by cases b <;> decide)

theorem flagWord_getLsbD {bs : List Bool} (short : bs.length ≤ 16) (i : Nat) :
    (flagWord bs).getLsbD i = bs.getD i false := by
  rw [flagWord, BitVec.getLsbD_ofNat, bitsNat_testBit]
  by_cases inside : i < 16
  · simp [inside]
  · simp [List.getD_eq_getElem?_getD, List.getElem?_eq_none (show bs.length ≤ i by omega), inside]

end Sys2Proof.BoardReads
end

section
/-! SUPPORT. The cadence event (R3, R5, R63, assumptions 3, 4): its count, the pieces of each work, what a piece does,
the rows at which it stops, and the statement about it. -/

namespace Sys2Proof.Cadences

open Sys2Proof Sys2Proof.Machine Sys2Proof.PlanOrders Sys2Proof.BoardReads

/-! The count (R3). -/

theorem countCadence_mem (s : State) : s.countCadence.mem = s.mem.write32 hdrCadence (s.link.cadence + 1) := rfl

theorem countCadence_eq (s : State) :
    s.countCadence =
      { s with
        link := { s.link with cadence := s.link.cadence + 1 }
        cells := s.cells.map fun c => { c with released := false }
        mem := s.countCadence.mem } := rfl

/-! The pieces. -/

theorem piece_publishSnapshot (s : State) :
    s.doPiece .publishSnapshot =
      { s with
        monitor :=
          { s.monitor with
            snapshot :=
              { decks := ⟨s.deckSnapshot 0, s.deckSnapshot 1, s.deckSnapshot 2, s.deckSnapshot 3⟩
                legal := s.chain.legal
                fine := s.chain.fine
                gross := s.chain.gross
                flags := s.platformFlags } } } := rfl

/-- A window that is counted is one lower, and a count of none stays. -/
theorem countWindow_eq (a : Axle) : a.countWindow = { a with window := a.window.map fun n => n - 1 } := by
  unfold Axle.countWindow
  cases window : a.window with
  | none =>
    obtain ⟨⟩ := a
    cases window
    rfl
  | some n => rfl

section Traverse

variable {s : State}

theorem consumeEdges_eq (s : State) : s.doPiece .consumeEdges = s.countClosing.consumeQueue := rfl

theorem countWindows_eq (s : State) : s.doPiece .countWindows = s.countWindows := rfl

theorem publishTrack_eq (s : State) : s.doPiece .publishTrack = s.publishTrack := rfl

section Empty

variable (none_ : s.tracker.traverse = none)
include none_

theorem consumeEdges_of_none : s.doPiece .consumeEdges = s.consumeQueue := by
  simp only [consumeEdges_eq, State.countClosing, none_]

theorem countWindows_of_none : s.doPiece .countWindows = s := by
  simp only [countWindows_eq, State.countWindows, none_]

theorem publishTrack_of_none :
    s.doPiece .publishTrack =
      { s with
        tracker :=
          { s.tracker with
            report := { state := .empty, number := s.tracker.number, axlesOn := 0, contained := false } } } := by
  have outside : (TrackState.empty == TrackState.active) = false := by decide
  simp only [publishTrack_eq, State.publishTrack, State.trackState, none_, outside, Bool.and_false]

end Empty

variable {tr : Traverse} (some_ : s.tracker.traverse = some tr)
include some_

theorem countWindows_of_some :
    s.doPiece .countWindows =
      { s with
        tracker :=
          { s.tracker with
            traverse :=
              some { tr with axles := tr.axles.map fun a => { a with window := a.window.map fun n => n - 1 } } } } := by
  simp only [countWindows_eq, State.countWindows, some_, State.setTraverse, ← countWindow_eq]

theorem consumeEdges_of_active (active : tr.closing = none) : s.doPiece .consumeEdges = s.consumeQueue := by
  simp only [consumeEdges_eq, State.countClosing, some_, active]

theorem publishTrack_of_active (active : tr.closing = none) :
    s.doPiece .publishTrack =
      { s with
        tracker :=
          { s.tracker with
            report :=
              { state := .active
                number := s.tracker.number
                axlesOn := tr.axlesOn
                contained := s.tracker.contained } } } := by
  have inside : (TrackState.active == TrackState.active) = true := by decide
  simp only [publishTrack_eq, State.publishTrack, State.trackState, some_, active, Option.isSome_none,
    Bool.false_eq_true, if_false, inside, Bool.and_true]

variable {n : Nat} (closing : tr.closing = some n)
include closing

theorem consumeEdges_of_closing :
    s.doPiece .consumeEdges =
      ({ s with tracker := { s.tracker with traverse := some { tr with closing := some (n + 1) } } } : State).consumeQueue := by
  simp only [consumeEdges_eq, State.countClosing, some_, closing, State.setTraverse]

theorem publishTrack_of_closing :
    s.doPiece .publishTrack =
      { s with
        tracker :=
          { s.tracker with
            report :=
              { state := .closing, number := s.tracker.number, axlesOn := tr.axlesOn, contained := false } } } := by
  have outside : (TrackState.closing == TrackState.active) = false := by decide
  simp only [publishTrack_eq, State.publishTrack, State.trackState, some_, closing, Option.isSome_some, if_true,
    outside, Bool.and_false]

end Traverse

/-- The provisional means are all that a frame changes of the session (R166). -/
theorem provisional_eq (s : State) :
    s.doPiece .provisional =
      { s with session := { s.session with provisional := (s.doPiece .provisional).session.provisional } } := by
  have fed : ∃ p, s.feedProvisional = { s with session := { s.session with provisional := p } } := by
    unfold State.feedProvisional State.takeProvisional
    split
    · split
      · exact ⟨_, rfl⟩
      · exact ⟨s.session.provisional, rfl⟩
    · exact ⟨s.session.provisional, rfl⟩
  obtain ⟨p, same⟩ := fed
  change s.feedProvisional = { s with session := { s.session with provisional := s.feedProvisional.session.provisional } }
  rw [same]

theorem session_eq (s : State) :
    s.doPiece .session =
      { s with
        session :=
          { s.session with
            idle := if s.session.state = .opened then s.session.idle + 1 else s.session.idle } } := by
  change s.workSession = _
  unfold State.workSession
  split
  · rfl
  · rfl

/-! The examination of a capture (R123). -/

theorem tradeReady_iff (f : DeckFlags) :
    f.tradeReady = true ↔
      f.filling = false ∧ f.degraded = false ∧ f.linkFault = false ∧ f.inTest = false ∧ f.uncalibrated = false
        ∧ f.zeroUnset = false ∧ f.overload = false ∧ f.under = false := by
  simp only [DeckFlags.tradeReady, Bool.not_eq_true', Bool.or_eq_false_iff, and_assoc]

theorem firstUnmet_eq (s : State) :
    s.firstUnmet =
      if ¬(s.monitor.snapshot.flags.filling = false ∧ s.monitor.snapshot.flags.degraded = false
          ∧ s.monitor.snapshot.flags.linkFault = false ∧ s.monitor.snapshot.flags.inTest = false
          ∧ s.monitor.snapshot.flags.uncalibrated = false ∧ s.monitor.snapshot.flags.zeroUnset = false
          ∧ s.monitor.snapshot.flags.overload = false ∧ s.monitor.snapshot.flags.under = false) then some Unmet.tradeReady
      else if s.tracker.report.contained = false then some .contained
      else if s.monitor.snapshot.flags.motion = true then some .still
      else none := by
  simp only [← tradeReady_iff, State.firstUnmet, DeckFlags.still, Bool.not_not, Bool.not_eq_true', Bool.not_eq_true]

section Capture

variable {s : State}

theorem examineCapture_eq (s : State) : s.doPiece .examineCapture = s.workCapture := rfl

theorem examineCapture_of_none (none_ : s.capture = none) : s.doPiece .examineCapture = s := by
  simp only [examineCapture_eq, State.workCapture, none_]

variable {c : Capture} (some_ : s.capture = some c)
include some_

theorem examineCapture_of_settled (settled : c.takenAt = s.link.cadence ∨ c.storing = true) :
    s.doPiece .examineCapture = s := by
  simp only [examineCapture_eq, State.workCapture, some_, State.examineCapture]
  rcases settled with now | storing
  · rw [if_pos now]
  · rw [if_pos storing, ite_self]

variable (earlier : c.takenAt ≠ s.link.cadence) (waits : c.storing = false)
include earlier waits

theorem examineCapture_of_met (met : s.firstUnmet = none) : s.doPiece .examineCapture = s.takeValue c := by
  simp [examineCapture_eq, State.workCapture, some_, State.examineCapture, earlier, waits, met]

variable {u : Unmet} (unmet : s.firstUnmet = some u)
include unmet

theorem examineCapture_of_remaining (remaining : 0 < c.remaining) :
    s.doPiece .examineCapture = { s with capture := some { c with remaining := c.remaining - 1 } } := by
  simp [examineCapture_eq, State.workCapture, some_, State.examineCapture, earlier, waits, unmet, remaining,
    State.setCapture]

theorem examineCapture_of_last (last : c.remaining = 0) :
    s.doPiece .examineCapture = { s with capture := some { c with missed := some u } } := by
  simp [examineCapture_eq, State.workCapture, some_, State.examineCapture, earlier, waits, unmet, last,
    State.setCapture]

end Capture

/-! The count of the journal (R153). -/

theorem countDelay_of_empty {s : State} (empty : ∀ p, s.journal.current = some p → s.pageCount p = 0) :
    s.doPiece .countDelay = s := by
  change s.countDelay = s
  unfold State.countDelay
  split
  · rfl
  · rename_i p current
    exact if_pos (empty p current)

theorem countDelay_of_begun {s : State} {p : PageId} (current : s.journal.current = some p) (begun : s.pageCount p ≠ 0) :
    s.doPiece .countDelay =
      { s with
        journal :=
          { s.journal with
            delay := if s.journal.firstAt = some s.link.cadence then s.journal.delay else s.journal.delay + 1
            firstAt := none } } := by
  change s.countDelay = _
  simp only [State.countDelay, current, if_neg begun]

/-! The rows of the events, and every other command (assumption 4). -/

section Stopped

variable {s : State} {e : Own} {rest : List Piece} (stopped : s.StoppedAt e rest) (plan : Plan)
include stopped

theorem exec_own_of_stopped (warm : e ≠ .warmUp) (resumed : e ≠ .resumed) :
    exec (ownCommand plan e) s = .next ((({ s with unfinished := [] } : State).takeOwn e).run true rest) := by
  rw [exec_ownCommand plan s warm resumed, takeStopped_of_stopped stopped]

theorem exec_warmUp_of_stopped (warm : e = .warmUp) :
    exec (ownCommand plan e) s = .next (({ s with unfinished := [] } : State).cadenceEvent true [.enter .live] plan) := by
  subst warm
  exact congrArg Host.Outcome.next (takeChange_of_stopped stopped .live plan)

theorem exec_resumed_of_stopped (resumed : e = .resumed) :
    exec (ownCommand plan e) s =
      .next (({ s with unfinished := [] } : State).cadenceEvent true [.enter .resumed] plan) := by
  subst resumed
  exact congrArg Host.Outcome.next (takeChange_of_stopped stopped .resumed plan)

end Stopped

theorem exec_own_of_not {s : State} {e : Own} (other : s.NotStoppedAt e) (plan : Plan) :
    exec (ownCommand plan e) s = .next s := by
  by_cases warm : e = .warmUp
  · subst warm
    exact congrArg Host.Outcome.next (takeChange_of_not other .live plan)
  · by_cases resumed : e = .resumed
    · subst resumed
      exact congrArg Host.Outcome.next (takeChange_of_not other .resumed plan)
    · rw [exec_ownCommand plan s warm resumed, takeStopped_of_not other]

section Finished

variable {s : State}

theorem finish_finish (s : State) : s.finish.finish = s.finish :=
  finish_of_whole (finish_unfinished s)

variable (on : s.power = .on)
include on

theorem whenOn_finish (f : State → State) : s.whenOn f = s.finish.whenOn f := by
  unfold State.whenOn
  rw [if_pos on, if_pos ((finish_power s).trans on), finish_finish]

theorem settled_finish : s.settled = s.finish.settled := by
  unfold State.settled
  rw [if_pos on, if_pos ((finish_power s).trans on), finish_finish]

/-- Every other command finds the cadence event finished. -/
theorem exec_finish (c : Instr) (other : ∀ e plan, c ≠ ownCommand plan e) : exec c s = exec c s.finish := by
  have whenOn_ : ∀ f, (.next (s.whenOn f) : Result) = .next (s.finish.whenOn f) := fun f =>
    congrArg Host.Outcome.next (whenOn_finish on f)
  have settled_ : ∀ f : State → State, (.next (f s.settled) : Result) = .next (f s.finish.settled) := fun f => by
    rw [settled_finish on]
  cases c
  case powerOn hold left => exact settled_ fun t => t.applyPower hold left
  case pinReset hold left => exact settled_ fun t => t.resetPin hold left
  case powerLoss left => exact settled_ fun t => t.losePower left
  case registerWrite high value => exact settled_ id
  case sealChange level => exact settled_ fun t => (t.setSealInput level).whenOn fun u => u.changeSeal level
  case sealInitial level => exact settled_ fun t => (t.setSealInput level).whenOn fun u => u.initialSeal level
  case stripEdge dt line pressed =>
    exact congrArg
      (fun t : State => (.next ((t.setStrip line pressed).whenOn fun u => u.stripChanged line pressed) : Result))
      (whenOn_finish on fun t => t.advance dt)
  case linkNoStart => exact absurd rfl (other .noStart plainPlan)
  case warmUpComplete plan => exact absurd rfl (other .warmUp plan)
  case linkResumed plan => exact absurd rfl (other .resumed plan)
  case cellFault c => exact absurd rfl (other (.cellFault c) plainPlan)
  case cellRecovered c => exact absurd rfl (other (.cellRecovered c) plainPlan)
  case restartDue c => exact absurd rfl (other (.restartDue c) plainPlan)
  case filterFilled d => exact absurd rfl (other (.filterFilled d) plainPlan)
  case zeroWatchExpired d => exact absurd rfl (other (.watchExpired d) plainPlan)
  case trackingExamination => exact absurd rfl (other .tracking plainPlan)
  case settleWindowEnd => exact absurd rfl (other .windowEnd plainPlan)
  case crossingAbandoned side => exact absurd rfl (other (.crossing side) plainPlan)
  case stripStuck l => exact absurd rfl (other (.stuck l) plainPlan)
  case closingTimeout => exact absurd rfl (other .closing plainPlan)
  case sessionInstall => exact absurd rfl (other .install plainPlan)
  case sessionExpired => exact absurd rfl (other .expire plainPlan)
  case engineTimeAdvance => exact absurd rfl (other .time plainPlan)
  case captureDeadline => exact absurd rfl (other .deadline plainPlan)
  case burstEnd => exact absurd rfl (other .burstEnd plainPlan)
  case hornToggle => exact absurd rfl (other .toggle plainPlan)
  case publishDelay => exact absurd rfl (other .publishDelay plainPlan)
  all_goals exact whenOn_ _

end Finished

/-! The fields of the live board. -/

/-- What the fields of the board read (R60, R98, R101). -/
theorem refreshBoard_fields {s : State} (w : s.mem.wf = true) :
    let t := s.refreshBoard
    let p := s.monitor.snapshot
    let tracker := s.tracker.report
    let lane := s.lane.report
    t.mem.read32 0x144 = fieldS32 p.legal ∧ t.mem.read32 0x148 = fieldS32 p.fine ∧ t.mem.read16 0x14C = p.flags.word ∧
    t.mem.read16 0x150 = BitVec.ofNat 16 tracker.state.code ∧ t.mem.read16 0x152 = field16 tracker.axlesOn ∧
    t.mem.read32 0x154 = tracker.number ∧ t.mem.read16 0x158 = BitVec.ofNat 16 (bit tracker.contained) ∧
    t.mem.read16 0x15A = BitVec.ofNat 16 lane.aspectA.code ∧ t.mem.read16 0x15C = BitVec.ofNat 16 lane.aspectB.code ∧
    t.mem.read16 0x15E = laneWord lane ∧
    t.mem.read16 0x160 = BitVec.ofNat 16 lane.horn.pattern.code ∧ t.mem.read16 0x162 = field16 lane.horn.period ∧
    t.mem.read16 0x164 = field16 (lane.burst.getD 0) := by
  refine ⟨?_, ?_, ?_, ?_, ?_, ?_, ?_, ?_, ?_, ?_, ?_, ?_, ?_⟩
  · exact refreshBoard_mid_long w (n := 0) (by decide) ⟨rfl, rfl⟩
  · exact refreshBoard_mid_long w (n := 2) (by decide) ⟨rfl, rfl⟩
  · exact refreshBoard_mid w (n := 4) rfl (by decide)
  · exact (refreshBoard_mid w (n := 6) rfl (by decide)).trans (trackState_code _)
  · exact refreshBoard_mid w (n := 7) rfl (by decide)
  · exact refreshBoard_mid_long w (n := 8) (by decide) ⟨rfl, rfl⟩
  · exact (refreshBoard_mid w (n := 10) rfl (by decide)).trans (bit_code _)
  · exact (refreshBoard_mid w (n := 11) rfl (by decide)).trans (aspect_code _)
  · exact (refreshBoard_mid w (n := 12) rfl (by decide)).trans (aspect_code _)
  · exact refreshBoard_mid w (n := 13) rfl (by decide)
  · exact (refreshBoard_mid w (n := 14) rfl (by decide)).trans (hornPattern_code _)
  · exact refreshBoard_mid w (n := 15) rfl (by decide)
  · exact refreshBoard_mid w (n := 16) rfl (by decide)

end Sys2Proof.Cadences
end

section
/-! SUPPORT. The pieces of each work at a cadence event (R3, R63), and the statement about the whole event. -/

namespace Sys2Proof.CadenceEvents

open Sys2Proof Sys2Proof.Machine Sys2Proof.PlanOrders Sys2Proof.BoardReads Sys2Proof.Cadences

/-! The pieces of the work that a frame and a tick do differently. -/

theorem allCells_eq : allCells = List.finRange 24 := by
  decide

theorem workPieces_compute_frame (change : List Piece) :
    workPieces true change .compute =
      (List.finRange 24).flatMap
          (fun c => [Piece.examineCell c, .own (.cellFault c), .own (.cellRecovered c), .own (.restartDue c)])
        ++ [.computeChain, .provisional, .own (.filterFilled 0), .own (.filterFilled 1), .own (.filterFilled 2),
          .own (.filterFilled 3)] := by
  rw [← allCells_eq]
  exact List.append_assoc ..

theorem workPieces_compute_tick (change : List Piece) :
    workPieces false change .compute = (List.finRange 24).map fun c => .own (.restartDue c) := by
  rw [← allCells_eq]
  rfl

/-- The platform's flags are those of any deck, and the overload of the chain (R44). -/
theorem platformFlags_eq (s : State) :
    s.platformFlags =
      let any := fun f : DeckFlags → Bool => f (s.flagsOf 0) || f (s.flagsOf 1) || f (s.flagsOf 2) || f (s.flagsOf 3)
      { filling := any (·.filling)
        degraded := any (·.degraded)
        linkFault := any (·.linkFault)
        inTest := any (·.inTest)
        uncalibrated := any (·.uncalibrated)
        zeroUnset := any (·.zeroUnset)
        overload := any (·.overload) || s.chain.overload
        under := any (·.under)
        motion := any (·.motion) } := rfl

/-! The cadence event. -/

theorem cadenceEvent_counts (s : State) (w : s.mem.wf = true) :
    s.countCadence.mem.read32 hdrCadence = s.link.cadence + 1
      ∧ Memory.SameBut (bytesFrom hdrCadence 4) s.mem s.countCadence.mem := by
  rw [countCadence_mem]
  exact ⟨Memory.read32_write32 w (by decide), Memory.SameBut.write32 w fun y lower upper => ⟨lower, by omega⟩⟩

theorem run_cases (s : State) (apart : Bool) (e : Own) (p : Piece) (ps : List Piece) :
    s.run apart [] = s ∧
    (s.ownDue e = false → s.run apart (.own e :: ps) = s.run apart ps) ∧
    (s.ownDue e = true → s.run true (.own e :: ps) = { s with unfinished := .own e :: ps }) ∧
    (s.ownDue e = true → s.run false (.own e :: ps) = (s.takeOwn e).run false ps) ∧
    ((∀ e, p ≠ .own e) → s.run apart (p :: ps) = (s.doPiece p).run apart ps) :=
  ⟨rfl, run_skip, run_stop, run_take, run_piece⟩

/-- Settles O11: the count and the pieces of a cadence event, the order of work under a plan, what the pieces do, the
rows at which it stops, and the live board. -/
theorem cadenceEventDoesEachWorkOnce : Obligations.CadenceEventDoesEachWorkOnce := by
  refine ⟨?event, ?order, fun frame change plan => rfl, ?pieces, ?simple, fun s => rfl, ?snapshot, ?tracker, ?session,
    ?capture, ?delay, run_cases, ?stopped, ?other, ?finished, ?finish, ?board, ?bits, ?refresh⟩
  case event =>
    intro s frame change plan w
    obtain ⟨count, same⟩ := cadenceEvent_counts s w
    exact ⟨s.countCadence, rfl, countCadence_eq s, count, same⟩
  case order =>
    intro plan
    exact ⟨(planWorks_follows plan).nodup.1, mem_planWorks plan, planWorks_before plan (List.mem_singleton.mpr rfl),
      planWorks_before plan (List.mem_singleton.mpr rfl), planWorks_before plan List.mem_cons_self,
      planWorks_compute plan⟩
  case pieces =>
    intro frame change
    refine ⟨rfl, ?frame, ?tick, rfl, rfl, rfl, rfl, rfl, rfl, rfl, rfl, rfl, rfl, rfl⟩
    case frame =>
      rintro rfl
      exact workPieces_compute_frame change
    case tick =>
      rintro rfl
      exact workPieces_compute_tick change
  case simple => exact fun s c d => ⟨rfl, rfl, rfl, rfl, rfl, rfl, rfl, rfl, rfl, rfl, rfl, rfl, rfl⟩
  case snapshot =>
    intro s
    rw [piece_publishSnapshot, platformFlags_eq]
    rfl
  case tracker =>
    intro s
    refine ⟨fun empty => ⟨consumeEdges_of_none empty, countWindows_of_none empty, publishTrack_of_none empty⟩,
      fun tr here => ⟨countWindows_of_some here, fun active =>
        ⟨consumeEdges_of_active here active, publishTrack_of_active here active⟩, fun n closing =>
        ⟨consumeEdges_of_closing here closing, publishTrack_of_closing here closing⟩⟩⟩
  case session => exact fun s => ⟨provisional_eq s, session_eq s⟩
  case capture =>
    intro s
    refine ⟨examineCapture_of_none, fun c here => ⟨examineCapture_of_settled here, fun earlier waits => ?_⟩⟩
    rw [← firstUnmet_eq]
    exact ⟨examineCapture_of_met here earlier waits, fun u unmet =>
      ⟨examineCapture_of_remaining here earlier waits unmet, examineCapture_of_last here earlier waits unmet⟩⟩
  case delay => exact fun s => ⟨countDelay_of_empty, fun p => countDelay_of_begun⟩
  case stopped =>
    exact fun s e rest plan here => ⟨exec_own_of_stopped here plan, exec_warmUp_of_stopped here plan,
      exec_resumed_of_stopped here plan⟩
  case other => exact fun s e plan elsewhere => exec_own_of_not elsewhere plan
  case finished => exact fun s c on other => exec_finish on c other
  case finish => exact fun s => ⟨finish_unfinished s, finish_power s, finish_of_whole⟩
  case board =>
    intro s w
    obtain ⟨legal, fine, flags, state, axles, number, contained, aspectA, aspectB, lane, horn, period, burst⟩ :=
      refreshBoard_fields w
    exact ⟨refreshBoard_deck w, legal, fine, flags, state, axles, number, contained, aspectA, aspectB, lane, horn, period,
      burst, fun i x within cell => (refreshBoard_cell w within cell).trans (cellState_code _)⟩
  case bits =>
    exact fun f r i => ⟨flagWord_getLsbD (bs := f.list) (Nat.le_of_ble_eq_true rfl) i,
      flagWord_getLsbD (bs := [r.overriding] ++ r.causes.list ++ [r.aspectPending, r.sounding, r.burst.isSome])
        (Nat.le_of_ble_eq_true rfl) i⟩
  case refresh =>
    intro s w
    exact ⟨s.refreshBoard, rfl, by rw [refreshBoard_eq], refreshBoard_sequence w,
      fun i b here low => refreshBoard_byte w here low, refreshBoard_sameBut w⟩

end Sys2Proof.CadenceEvents
end
